-- ==== Sys2Proof/Word.lean ====
section
/-!
DEFINITION. The word types of the device (R9: registers are 32 bits wide, bytes little-endian) and their
plainest conversions.
-/
namespace Sys2Proof

/-- A register or image word (R9). -/
abbrev Word := BitVec 32

/-- A byte of DRAM or of a frame. -/
abbrev Byte := BitVec 8

/-- The word that holds a natural number modulo 2^32. -/
abbrev Word.ofN (n : Nat) : Word := BitVec.ofNat 32 n

/-- The word that holds an integer modulo 2^32. -/
abbrev Word.ofI (i : Int) : Word := BitVec.ofInt 32 i

end Sys2Proof
end

