-- ==== Sys2Proof/Types.lean ====
section
/-!
DEFINITION. The data that commands carry and that State holds: indices of units, frames, descriptors,
log entries, and the content of a configuration image (R508, R509). Plain data only.
-/
namespace Sys2Proof

/-- Global slot index (R7). -/
abbrev SlotIx := Fin 4096
/-- Global cluster d × 32 + r × 8 + c (R488). -/
abbrev ClusterIx := Fin 128
/-- Region number 4d + r (R23). -/
abbrev RegionIx := Fin 16
/-- Control die (R17). -/
abbrev DieIx := Fin 4
/-- Sequencer lane (R142). -/
abbrev LaneIx := Fin 16
/-- Global axis (R23). -/
abbrev AxisIx := Fin 128
/-- Global PWM pair or SDI channel (R23). -/
abbrev PairIx := Fin 192
/-- CAN port (R397). -/
abbrev CanIx := Fin 16
/-- Field port (R354). -/
abbrev PortIx := Fin 8
/-- Field ring (R355). -/
abbrev FRingIx := Fin 4
/-- Global station number 126 × ring + index (R355). -/
abbrev StnIx := Fin 504
/-- Host ring (R456). -/
abbrev HRingIx := Fin 64
/-- Flow (R224). -/
abbrev FlowIx := Fin 1024
/-- Hedgerow term (R301). -/
abbrev TermIx := Fin 2048
/-- Two-party proposal slot (R493). -/
abbrev PropIx := Fin 8

/-- The declared type of a variable (R191). -/
inductive Ty where
  | i32 | u32 | f32
  deriving DecidableEq, Repr, Inhabited

/-- The one writer of an output word, field or local (R22, R54). -/
inductive Owner where
  /-- A loop slot, by its LE_OUT_DST. -/
  | slot (k : SlotIx)
  /-- A task of a region. -/
  | task (r : RegionIx) (t : Fin 256)
  /-- A lane. -/
  | lane (l : LaneIx)
  /-- An axis. -/
  | axis (a : AxisIx)
  deriving DecidableEq, Repr

/-- The clock domains that a monitor watches (R31), in the order of R31's table. -/
inductive Domain where
  | core (d : DieIx) | pwm (d : DieIx) | hub | mem | host | field (p : PortIx) | xlnk | can | mgmt
  | sdm (g : Fin 48) | rtc
  deriving DecidableEq, Repr

/-- A CAN frame (R397, R464). -/
structure CanFrame where
  ident : Nat
  ide : Bool
  fdf : Bool
  brs : Bool
  esi : Bool
  rtr : Bool
  data : List Byte
  deriving DecidableEq, Repr, Inhabited

/-- The ACTION of a receive-map entry (R404). -/
inductive RxAction where
  | drop | image (word : Nat) | host | flow (f : FlowIx)
  deriving DecidableEq, Repr

/-- A receive-map entry (R404). -/
structure RxMap where
  ident : Nat
  mask : Nat
  ide : Bool
  action : RxAction
  deriving DecidableEq, Repr

/-- The trigger of an IMAGE transmit entry (R408). -/
inductive TxTrig where
  | action | period (k ph : Nat) | change
  deriving DecidableEq, Repr

/-- An IMAGE transmit entry of the image (R408): identifier, format, length and source words. -/
structure TxImage where
  ident : Nat
  ide : Bool
  fdf : Bool
  brs : Bool
  len : Nat
  word : Nat
  trig : TxTrig
  deriving DecidableEq, Repr

/-- What a configuration image brings (R508, R509), as the checked sections hold it. -/
structure Image where
  /-- IMAGE_ID (R495). -/
  id : Word
  /-- PART 0x4096 or 0x2048 (R508). -/
  part : Nat
  /-- Checkpoint layout identity (R439). -/
  layout : Word
  /-- SVN (R508). -/
  svn : Nat
  /-- Every BAR0 word that the CONFIG and NETS sections define: fields whose reset reads IMG, region
  locals, constants, node stores, hedgerow and fallow tables (R509). -/
  io : List (Nat × Word)
  /-- Law memory, keyed by cluster × 4,096 + word (R95). -/
  law : List (Nat × Word)
  /-- Record specifications, keyed by 4 × specification + word (R318). -/
  specs : List (Nat × Word)
  /-- RECIPES section: bytes of the recipe store (R144). -/
  recipes : List Host.Cell
  /-- Declared variables and their types, keyed by the 20-bit reference (R53, R191). -/
  decls : List (Nat × Ty)
  /-- Region locals marked RETAIN, by reference (R205). -/
  retain : List Nat
  /-- Writers, keyed by reference (R54). A writable field without one may be written by the host (R114). -/
  owners : List (Nat × Owner)
  /-- Chamber targets: (chamber, reference) (R142). -/
  chambers : List (Nat × Nat)
  /-- Image latch lists of background tasks, keyed by region × 256 + task: each word that the scheduler copies, with the
  region local that takes the copy (R63, R217). -/
  latch : List (Nat × List (Nat × Nat))
  /-- References that Preilaip marked LOCAL in a pair image (R35). -/
  locals : List Nat
  /-- Receive maps, keyed by port (R404). -/
  canRx : List (Nat × List RxMap)
  /-- IMAGE transmit entries, keyed by 64 × port + entry (R408). -/
  canTx : List (Nat × TxImage)
  /-- The base MAC address of unit 0 and of unit 1 (R358). -/
  macs : Nat × Nat
  /-- Length of the loaded sections in bytes (R513). -/
  loadLen : Nat
  /-- The placement of slot blocks, node stores and PWM state keeps every bank within R26. -/
  placed : Bool
  deriving DecidableEq, Repr, Inhabited

/-- Causes of a failed bank, with the codes of BT_STAT.CAUSE (R516). -/
inductive BootCause where
  | none | directory | magic | format | variant | signature | rollback | crc | digest | config | dram
  | bootmem | strapHalt
  deriving DecidableEq, Repr, Inhabited

/-- One of the two image banks (R495). -/
inductive Bank where
  | bankA | bankB
  deriving DecidableEq, Repr, Inhabited

/-- What a header holds that the header checks of R510 read, as the ROM finds it. -/
structure Header where
  magic : Word
  format : Nat
  part : Nat
  /-- Every section type is known, appears at most once, and the required ones are present (R509). -/
  secsOk : Bool
  osigOk : Bool
  vsigOk : Bool
  svn : Nat
  deriving DecidableEq, Repr, Inhabited

/-- The result of streaming one section (R510): first pass and re-read of the CRC, and the digest. -/
structure SecCheck where
  crcOk : Bool
  rereadOk : Bool
  digestOk : Bool
  deriving DecidableEq, Repr, Inhabited

/-- A directory copy (R506) as the ROM reads it. -/
structure DirCopy where
  magic : Word
  seq : Word
  /-- Word 2 of the copy: ACTIVE, TRIAL, TRIES and the bank states. -/
  ctl : Word
  crcOk : Bool
  deriving DecidableEq, Repr, Inhabited

/-- One segment of a received cyclic frame (R359): what the station wrote, and its working counter. -/
structure Seg where
  /-- STN. -/
  stn : Nat
  istat : Word
  stime : Word
  input : List Word
  wkc : Byte
  deriving DecidableEq, Repr

/-- A frame as it arrives at a field port (R354, R358). -/
structure RxFrame where
  /-- EtherType, and the length in bytes with the frame check sequence. -/
  etype : Nat
  size : Nat
  /-- The 802.3 frame check passes. -/
  fcsOk : Bool
  /-- DIR: false for port 2r, true for port 2r + 1. -/
  dir : Bool
  /-- UNIT of the sender. -/
  unit : Bool
  /-- ROLE of the sender. -/
  role : Nat
  /-- Lease epoch that the sender holds, known over the link or to the sender's partner (R426). -/
  epoch : Nat
  /-- SEQ. -/
  seq : Word
  /-- FIDX and whether it is the last frame of the train. -/
  fidx : Nat
  segs : List Seg
  deriving DecidableEq, Repr

/-- A station's entry in a returning DISCOVER frame (R374). -/
structure DiscEntry where
  eui : Nat
  stype : Word
  crc : Word
  /-- The hold state that the station reports. -/
  hold : Byte
  deriving DecidableEq, Repr

/-- A descriptor as the device reads it from host memory (R459), with the bytes at ADDR. -/
structure Desc where
  own : Bool
  irq : Bool
  chain : Bool
  opc : Nat
  tag : Nat
  len : Nat
  addr : Nat
  p0 : Word
  p1 : Word
  p2 : Word
  p3 : Word
  data : List Byte
  deriving DecidableEq, Repr, Inhabited

/-- One member of a command entry of the log: the descriptor and its slot on the command ring (R461). -/
structure CmdMember where
  ring : Nat
  slot : Nat
  desc : Desc
  /-- An on-line change awaited its cycle as the command was read: what it writes of the change registers is dropped (R242,
  R243). -/
  busy : Bool
  deriving DecidableEq, Repr, Inhabited

/-- Principal classes (R485), with the codes of TWO_PARTY's P1 (R494). -/
inductive Principal where
  | host | console | key | partner
  deriving DecidableEq, Repr, Inhabited

/-- The protected items and their fields and payload (R492). -/
inductive Item where
  /-- 1 Image acceptance. -/
  | image (bank : Bank) (ident : Word)
  /-- 2 Hedgerow patch: the entries as (word 0, word 1, OLD, NEW) (R313). -/
  | hedgerow (entries : List (Word × Word × Word × Word))
  /-- 3 Force permission ranges (R237): 64 pairs (LO, HI). -/
  | forceRanges (ranges : List (Nat × Nat))
  /-- 4 Life-cycle transition to a state code (R500); for FIELD, the payload supplies the owner key hash, and key hashes by
  4 × class + slot. -/
  | lifeCycle (target : Nat) (owner : Nat) (creds : List (Nat × Nat))
  /-- 5 Lease override TAKE (R427). -/
  | take
  /-- 6 HANDOVER (R427). -/
  | handover
  /-- 7 DIE_FENCE (R39). -/
  | dieFence (d : DieIx)
  /-- 8 Time-base step above 1 s: SET to a second and nanosecond, or an OFFSET (R389). -/
  | timeStep (set : Bool) (sec : Nat) (ns : Int)
  /-- 9 RTC write above 1 s (R395). -/
  | rtcWrite (sec : Nat)
  /-- 10 CREDENTIAL: class, slot and key hash, zero to clear (R485). -/
  | credential (cls : Principal) (slot : Fin 4) (hash : Nat)
  deriving DecidableEq, Repr

/-- What a log entry carries (R429), by KIND. -/
inductive LogKind where
  /-- HOST_WRITE: the masked bits of one BAR0 word. -/
  | hostWrite (addr : Nat) (val mask : Word)
  /-- HOST_WRITE to LC_LAW_DATA, with the word address at its arrival (R117). -/
  | lawWrite (c : ClusterIx) (waddr : Nat) (val : Word)
  /-- HOST_CMD: a command or a chain (R461). -/
  | hostCmd (members : List CmdMember)
  /-- CAN_RX (R405, R404). -/
  | canRx (port : CanIx) (entry : Nat) (f : CanFrame)
  /-- CAN_DONE (R415). -/
  | canDone (port : CanIx) (entry : Nat) (status : Nat)
  /-- A HOST transmit descriptor (R408). -/
  | canTx (port : CanIx) (slot : Nat) (desc : Desc)
  /-- EDGE for the image: the four words of R47 (R392). -/
  | edgeImage (e : Fin 64) (rise fall count level : Word)
  /-- EDGE as an item of a flow (R392). -/
  | edgeItem (e : Fin 64) (tag : Word) (level : Bool)
  /-- KEY (R231). -/
  | key (code : BitVec 2)
  /-- TERM transition (R309). -/
  | term (t : TermIx) (state : Bool)
  /-- STATION: an acknowledged admission (R375). -/
  | station (s : StnIx)
  /-- EXPIRY of a flow's wait (R225). -/
  | expiry (f : FlowIx) (count : Nat)
  /-- STALL report of an axis (R265). -/
  | stall (a : AxisIx)
  /-- POS_LOST report of an axis (R435). -/
  | posLost (a : AxisIx)
  /-- A confirmed pair-wide or unit item (R494): proposal slot, item, principals, KEY confirmation. -/
  | twoParty (slot : PropIx) (item : Item) (by_ conf : Principal)
  /-- CLOSE of a cycle: count and last LSEQ of its entries (R430). -/
  | close (count : Nat) (last : Word)
  /-- BULK (R429): words that the holder copies over the link before it assigns an entry its cycle (R148, R242, R313), of the
  recipe store by byte address, or of a staging buffer by BAR0 offset. -/
  | copied (store : Bool) (words : List (Nat × Word))
  deriving DecidableEq, Repr

/-- The KIND code of an entry (R429). A logged host command, a HOST transmit descriptor and a confirmed item are HOST_CMD (log
260). -/
def LogKind.code : LogKind → Nat
  | .hostWrite _ _ _ => 1
  | .lawWrite _ _ _ => 1
  | .hostCmd _ => 2
  | .canTx _ _ _ => 2
  | .twoParty _ _ _ _ => 2
  | .canRx _ _ _ => 3
  | .canDone _ _ _ => 4
  | .edgeImage _ _ _ _ _ => 5
  | .edgeItem _ _ _ => 5
  | .key _ => 6
  | .term _ _ => 7
  | .station _ => 8
  | .expiry _ _ => 9
  | .stall _ => 10
  | .posLost _ => 10
  | .copied _ _ => 11
  | .close _ _ => 12

/-- An entry of the sequenced input log (R429). -/
structure LogEntry where
  /-- CYC: the assigned cycle. -/
  cyc : Word
  lseq : Word
  fromStandby : Bool
  tag : Word
  kind : LogKind
  deriving DecidableEq, Repr

/-- HELLO (R422). -/
structure Hello where
  unit : Bool
  /-- Pair state code of R419. -/
  state : Nat
  epoch : Nat
  imgId : Word
  layout : Word
  /-- Epoch of the sender's valid checkpoint, if it has one (R420). -/
  ckpt : Option Nat
  /-- The sender's dies are all ACTIVE (R40). R422 does not list it among what HELLO carries (DESIGN CHOICE, log 215). -/
  dies : Bool
  deriving DecidableEq, Repr, Inhabited

/-- The kinds of CAN error (LEC codes of R417). -/
inductive CanErr where
  | stuff | form | ack | bit | crc
  deriving DecidableEq, Repr, Inhabited

/-- A port's part in a frame that meets an error (R410, R413): it receives, it sends and is still in arbitration, or its frame
has won arbitration. -/
inductive CanSide where
  | receiver | contender | sender
  deriving DecidableEq, Repr, Inhabited

/-- What a trip input has read (R291): the level of its ball, at `n` samples in succession. -/
structure TripRead where
  ball : Bool
  n : Nat
  deriving DecidableEq, Repr, Inhabited

/-- Memories whose words carry a code (R470), with what holds the word. -/
inductive MemLoc where
  /-- Slot block or law memory of a slot. -/
  | slot (k : SlotIx)
  /-- Node store of a region, with the node. -/
  | nodeStore (r : RegionIx) (node : Fin 8192)
  /-- Image copy, NoC tables or hedgerow segment of a control die. -/
  | dieTables (d : DieIx)
  /-- Region locals, task or delay lists, axis or PWM state. -/
  | regionState (r : RegionIx)
  /-- Capture staging. -/
  | capture (r : RegionIx)
  /-- Hub SRAM: image master, scheduler queues, staged entries. -/
  | hubControl
  /-- Hub SRAM: ring descriptor cache of a ring. -/
  | hubRing (k : HRingIx)
  /-- Hub SRAM: record staging. -/
  | hubStaging
  /-- Backup SRAM: checkpoint buffer A (false) or B (true). -/
  | ckpt (b : Bool)
  /-- Backup SRAM: staging, force table, action journal. -/
  | backup
  /-- DRAM recipe store, on the fetch of a lane, of the abort entry or not. -/
  | recipe (l : LaneIx) (abortEntry : Bool)
  /-- DRAM configuration copy. -/
  | config
  /-- DRAM resync and journal. -/
  | journal
  /-- DRAM record ring, window pool or host buffers, read for a host ring, with the byte offset of the
  first affected 32-byte word. -/
  | bulk (k : HRingIx) (offset : Nat)
  deriving DecidableEq, Repr

/-- What one offset is measured from (R387), in nanoseconds: the Sync stamps, the origin at the transmitter and the receipt here;
the stamps of the delay measurement, end to end (departure here, receipt there) or peer to peer (those of the request, and
of its response: departure there, receipt here); the correction fields of the two exchanges; and the domain. -/
structure PtpMeas where
  domain : Nat
  sync : Nat × Nat
  p2p : Bool
  req : Nat × Nat
  resp : Nat × Nat
  corrSync : Int
  corrDelay : Int
  deriving DecidableEq, Repr

/-- The result of one trigger-bus branch measurement (R348): round trip, taps, matched within 2 ns. -/
structure Branch where
  ps : Nat
  tap : Nat
  matched : Bool
  deriving DecidableEq, Repr

end Sys2Proof
end

