-- ==== Sys2Proof/Config.lean ====
section
/-!
DEFINITION. The free values: what the spec leaves open and an implementation fixes. Each is a constant
without a body, so no proof can see its value; a statement holds whatever it is. Each has a row in the
assumption log.
-/
namespace Sys2Proof

/-- One segment of a plan (R251): a constant jerk in s16.48 counts per cycle³, for a number of cycles. -/
structure PlanSeg where
  jerk : Int
  cycles : Nat
  deriving DecidableEq, Repr, Inhabited

/-- What a plan depends on (R251): the state in the formats of R248, the goal, and the per-cycle limits of
R249. `stop` marks a stop plan, whose goal is wherever it comes to rest, `replan` a plan of REPLAN, which may
need more deceleration than DMAX (R253), and `two` that the plan it replaces still reverses. -/
structure PlanQuery where
  p : Int
  v : Int
  a : Int
  goal : Int
  vmax : Int
  amax : Int
  dmax : Int
  jmax : Int
  stop : Bool
  replan : Bool
  two : Bool
  deriving DecidableEq, Repr, Inhabited

/-- The legs of the planner's plan: one or two lists of at most seven segments (R251, R252). The spec bounds
the plan and does not fix it; `planOk` states the bounds. Log 20. -/
opaque Config.plan : PlanQuery → List (List PlanSeg)

/-- SHA-384 over a list of bytes (R492), left uninterpreted. Log 21. -/
opaque Config.sha384 : List Byte → BitVec 384

/-- Whether a P-384 signature over a message verifies under the key with the given hash (R485), left
uninterpreted. Log 21. -/
opaque Config.verify : (keyHash : Nat) → (message : List Byte) → (signature : List Byte) → Bool

/-- The next nonce (R486). Log 22. -/
opaque Config.nonce : Nat → BitVec 384

/-- The device serial (R486). Log 22. -/
opaque Config.serial : List Byte

/-- The next BOOT_ID candidate (R358). Log 9. -/
opaque Config.bootId : Nat → BitVec 16

/-- Entry k of the stepper's table of 1,024 sines in units of 2^-60 (R262); what is used of it lies within 2^-24 of the
sine. Log 23. -/
opaque Config.sinTab : Nat → Int

/-- The interpolated sine of the chirp at a phase in units of 2^-60 (R137); what is used of it lies within 2^-20 of the
sine. Log 23. -/
opaque Config.chirp : Word → Int

/-- atan2 in degrees of two binary32 values (R265); what is used of it lies within 360° × 2^-24 of the angle. Log 23. -/
opaque Config.atan2Deg : Word → Word → Word

/-- What the accumulator of a loop engine holds of a value beyond its 72 bits, for an exponent and the value (R86). Log 208. -/
opaque Config.accBeyond : Int → Int → BitVec 72

/-- The fixed latency of a trigger pad in nanoseconds (R348). Log 25. -/
opaque Config.padLatency : Nat

/-- A free word for a value that the spec leaves open, drawn with the state's counter. Log 1. -/
opaque Config.freeWord : Nat → Word

end Sys2Proof
end

