-- ==== Sys2Proof/Machine/Num.lean ====
section
/-!
DEFINITION. Exact dyadic numbers, their rounding to binary32, INT32, UINT32 and fixed point, and the binary32
encoding (R10, R11, R90). A dyadic is m × 2^e.
-/
namespace Sys2Proof.Machine

/-- The number m × 2^e. -/
structure Dy where
  m : Int
  e : Int
  deriving DecidableEq, Repr, Inhabited

/-- Zero. -/
def Dy.zero : Dy := ⟨0, 0⟩
/-- An integer. -/
def Dy.ofInt (i : Int) : Dy := ⟨i, 0⟩
/-- The mantissa in units of 2^u, with u not above the exponent. -/
def Dy.scale (a : Dy) (u : Int) : Int := a.m * 2 ^ (a.e - u).toNat
/-- Exact sum. -/
def Dy.add (a b : Dy) : Dy := let u := min a.e b.e; ⟨a.scale u + b.scale u, u⟩
/-- Exact negation. -/
def Dy.neg (a : Dy) : Dy := ⟨-a.m, a.e⟩
/-- Exact difference. -/
def Dy.sub (a b : Dy) : Dy := a.add b.neg
/-- Exact product. -/
def Dy.mul (a b : Dy) : Dy := ⟨a.m * b.m, a.e + b.e⟩
/-- Magnitude. -/
def Dy.abs (a : Dy) : Dy := ⟨a.m.natAbs, a.e⟩
/-- a < b. -/
def Dy.lt (a b : Dy) : Bool := let u := min a.e b.e; a.scale u < b.scale u
/-- a ≤ b. -/
def Dy.le (a b : Dy) : Bool := let u := min a.e b.e; a.scale u ≤ b.scale u
/-- Equal as numbers. -/
def Dy.same (a b : Dy) : Bool := let u := min a.e b.e; a.scale u = b.scale u
/-- The smaller. -/
def Dy.min (a b : Dy) : Dy := if b.lt a then b else a
/-- The larger. -/
def Dy.max (a b : Dy) : Dy := if a.lt b then b else a
/-- Clamp into [lo, hi], the upper bound last. -/
def Dy.clamp (a lo hi : Dy) : Dy := Dy.min (Dy.max a lo) hi
/-- The mantissa in units of 2^u, truncated toward minus infinity (R86). -/
def Dy.floorTo (a : Dy) (u : Int) : Int :=
  if u ≤ a.e then a.scale u else a.m / 2 ^ (u - a.e).toNat
/-- A natural number times 2^-k, rounded to nearest with ties to even. -/
def Nat.rne (n k : Nat) : Nat :=
  let q := n >>> k
  let r := n % 2 ^ k
  if 2 * r > 2 ^ k then q + 1 else if 2 * r = 2 ^ k then q + q % 2 else q
/-- A rational n / d rounded to nearest with ties to even. -/
def Int.rneDiv (n : Int) (d : Nat) : Int :=
  let q := n / d
  let r := n % d
  if 2 * r > d then q + 1 else if 2 * r = d then q + q % 2 else q
/-- The mantissa in units of 2^u, rounded to nearest with ties to even. -/
def Dy.rneTo (a : Dy) (u : Int) : Int :=
  if u ≤ a.e then a.scale u
  else
    let r : Nat := Nat.rne a.m.natAbs (u - a.e).toNat
    if a.m < 0 then -(r : Int) else r
/-- The mantissa in units of 2^u, rounded to nearest with ties away from zero. -/
def Dy.awayTo (a : Dy) (u : Int) : Int :=
  if u ≤ a.e then a.scale u
  else
    let k := (u - a.e).toNat
    let r : Nat := (a.m.natAbs + 2 ^ (k - 1)) >>> k
    if a.m < 0 then -(r : Int) else r

/-- Sign, exponent and fraction fields of a binary32 word. -/
def F32.sign (w : Word) : Bool := w.toNat ≥ 2 ^ 31
def F32.expo (w : Word) : Nat := (w.toNat >>> 23) % 256
def F32.frac (w : Word) : Nat := w.toNat % 2 ^ 23
/-- NaN. -/
def F32.isNaN (w : Word) : Bool := F32.expo w = 255 && F32.frac w ≠ 0
/-- An infinity. -/
def F32.isInf (w : Word) : Bool := F32.expo w = 255 && F32.frac w = 0
/-- Neither NaN nor infinite. -/
def F32.finite (w : Word) : Bool := F32.expo w ≠ 255
/-- A zero of either sign. -/
def F32.isZero (w : Word) : Bool := w.toNat % 2 ^ 31 = 0
/-- The quiet NaN that operations give. -/
def F32.qNaN : Word := 0x7FC00000
/-- The infinity of a sign. -/
def F32.inf (neg : Bool) : Word := if neg then 0xFF800000 else 0x7F800000
/-- The zero of a sign. -/
def F32.zero (neg : Bool) : Word := if neg then 0x80000000 else 0
/-- The exact value of a finite word; an infinity or NaN reads as 0 here and is tested before. -/
def F32.toDy (w : Word) : Dy :=
  let x := F32.expo w
  let f := F32.frac w
  let mag : Nat := if x = 0 then f else f + 2 ^ 23
  let e : Int := (if x = 0 then (1 : Int) else x) - 150
  if x = 255 then Dy.zero else ⟨if F32.sign w then -(mag : Int) else mag, e⟩
/-- A magnitude m × 2^e with a sign, rounded to nearest with ties to even; overflow gives the infinity. -/
def F32.round (neg : Bool) (m : Nat) (e : Int) : Word :=
  if m = 0 then F32.zero neg
  else
    let top : Int := (Nat.log2 m : Int) + e
    let q : Int := max (top - 23) (-149)
    let r : Nat := if q ≤ e then m * 2 ^ (e - q).toNat else Nat.rne m (q - e).toNat
    -- a carry out of 24 bits moves into the exponent by the addition below
    let bits : Nat := if r < 2 ^ 23 then r else ((q + 150).toNat - 1) * 2 ^ 23 + r
    if bits ≥ 0x7F800000 then F32.inf neg
    else Word.ofN (if neg then bits + 2 ^ 31 else bits)
/-- A dyadic as binary32 (R90). -/
def F32.ofDy (a : Dy) : Word := F32.round (a.m < 0) a.m.natAbs a.e
/-- A dyadic as INT32, rounded to nearest even and saturated; true when it saturated (R90). -/
def I32.ofDy (a : Dy) : Word × Bool :=
  let r := a.rneTo 0
  if r > 2 ^ 31 - 1 then (0x7FFFFFFF, true) else if r < -(2 ^ 31) then (0x80000000, true)
  else (Word.ofI r, false)
/-- A dyadic as UINT32, rounded to nearest even and saturated; true when it saturated (R90). -/
def U32.ofDy (a : Dy) : Word × Bool :=
  let r := a.rneTo 0
  if r > 2 ^ 32 - 1 then (0xFFFFFFFF, true) else if r < 0 then (0, true) else (Word.ofI r, false)
/-- A dyadic in a declared type (R90). -/
def Ty.ofDy (t : Ty) (a : Dy) : Word × Bool :=
  match t with
  | .f32 => (F32.ofDy a, false)
  | .i32 => I32.ofDy a
  | .u32 => U32.ofDy a
/-- The value of a word in a declared type; none for a NaN or an infinity. -/
def Ty.toDy (t : Ty) (w : Word) : Option Dy :=
  match t with
  | .f32 => if F32.finite w then some (F32.toDy w) else none
  | .i32 => some ⟨w.toInt, 0⟩
  | .u32 => some ⟨w.toNat, 0⟩

/-- The Taylor terms of sin x after a term, with n terms to go: `t` is the last term and `k` its degree, in units of
2^-60. -/
def sinTerms (x2 : Int) (n k : Nat) (t : Int) : Int :=
  match n with
  | 0 => 0
  | n + 1 =>
    let u : Int := -(t * x2 / 2 ^ 60) / (((k + 1) * (k + 2) : Nat) : Int)
    u + sinTerms x2 n (k + 2) u
/-- sin(2π × phase / 2^32) in units of 2^-60, with an error below 2^-40: the Taylor series in the first quadrant. -/
def sinUnit (phase : Nat) : Int :=
  let r := phase % 2 ^ 30
  let r := if phase / 2 ^ 30 % 2 = 0 then r else 2 ^ 30 - r
  let x : Int := (1811004864519280710 * r / 2 ^ 30 : Nat)
  let y := x + sinTerms (x * x / 2 ^ 60) 10 1 x
  if phase / 2 ^ 31 % 2 = 0 then y else -y
/-- A free value held within 2^-n of a sine, less what sinUnit itself may err (R137, R262). -/
def Dy.nearSine (d : Dy) (phase n : Nat) : Dy :=
  let s := sinUnit phase
  let w : Int := 2 ^ (60 - n) - 2 ^ 20
  d.clamp ⟨s - w, -60⟩ ⟨s + w, -60⟩

/-- Entry k of the stepper's table of 1,024 sines (R262): exact at the quarters, and else the free value held within 2^-24 of
the sine. -/
def sineTab (k : Nat) : Dy :=
  match k % 1024 with
  | 0 => ⟨0, 0⟩
  | 256 => ⟨1, 0⟩
  | 512 => ⟨0, 0⟩
  | 768 => ⟨-1, 0⟩
  | i => Dy.nearSine ⟨Config.sinTab i, -60⟩ (i * 2 ^ 22) 24
/-- The cosine is the sine a quarter further on. -/
def cosineTab (k : Nat) : Dy := sineTab (k + 256)
/-- Halve a range of phases n times toward the direction (x, y) with y not negative: y cos φ − x sin φ is not negative below
it. -/
def phaseOf (x y : Int) : Nat → Nat → Nat → Nat
  | 0, lo, _ => lo
  | n + 1, lo, hi =>
    let m := (lo + hi) / 2
    if 0 ≤ y * sinUnit (m + 2 ^ 30) - x * sinUnit m then phaseOf x y n m hi else phaseOf x y n lo m
/-- The angle of (x, y) in degrees, between −180 and 180, to 2^-32 of a turn. -/
def angleOf (x y : Int) : Dy :=
  if 0 ≤ y then ⟨360 * (phaseOf x y 31 0 (2 ^ 31) : Int), -32⟩ else ⟨-360 * (phaseOf x (-y) 31 0 (2 ^ 31) : Int), -32⟩
/-- atan2 of two binary32 values in degrees (R265): the free value held within 360° × 2^-24 of the angle; free where both are
zero. -/
def atan2Deg (y x : Word) : Word :=
  let a := F32.toDy y
  let b := F32.toDy x
  let u := min a.e b.e
  let w := Config.atan2Deg y x
  if a.m = 0 ∧ b.m = 0 then w
  else
    let d := angleOf (b.scale u) (a.scale u)
    F32.ofDy ((F32.toDy w).clamp (d.sub ⟨360, -24⟩) (d.add ⟨360, -24⟩))

end Sys2Proof.Machine
end

