-- ==== Sys2Proof/Machine/Units.lean ====
section
/-!
DEFINITION. What the units of the block hold beside their registers: slots, lanes, axes, stations, rings, ports, tasks, flows,
streams, engines, the pair, the checkpoint, start-up, integrity and the management core; and the control-path state that a
resync brings.
-/
namespace Sys2Proof.Machine

/-- A ready sample (R100): its sample instant and deadline in nanoseconds of device time, and its five inputs SP,
PV, AUX0, AUX1, TRK as taken at the release (R81), each none for a NaN or an infinity (R84), with whether the
conversion clamped it (R83). -/
structure Ready where
  /-- The effective mode at the start of a sample during whose run a fallow cause was set: its output and states are
  not written back (R105). -/
  dead : Option Nat
  /-- What decided the mode of a slot when the sample started, where it has changed during the run (R120): the slot, LE_MODE.REQ,
  LE_STAT.FCAUSE and its slot fault. -/
  keep : List (Nat × Nat × Nat × Bool)
  t : Nat
  /-- The release time as later steps of the time base have moved it (R79). -/
  rel : Nat
  deadline : Nat
  ins : List (Option Dy × Bool)
  /-- Law words that an on-line change has replaced since the release, with their values at the release (R242). -/
  old : List (Nat × Word)
  deriving DecidableEq, Repr, Inhabited

/-- What a loop slot holds beside its block (R84 to R129). -/
structure SlotX where
  /-- The values of the five inputs in the previous executed sample (R84). -/
  prevIn : List Dy
  /-- Released samples that have not completed, the oldest first (R100, R112). -/
  ready : List Ready
  /-- The computed release times of a local slot that have had their release, as runs of the release grid from a
  first to a last time (R79). -/
  rels : List (Nat × Nat)
  /-- TP writes not yet copied (R115): (n, value). -/
  tp : List (Nat × Word)
  /-- MAN_OUT has been written since the previous sample (R108). -/
  manW : Bool
  /-- A slot fault is in force (R110). -/
  fault : Bool
  /-- The last applied output, exact (R104). -/
  last : Dy
  /-- Sample instant of an output that has been applied and has not taken effect (R103), and of one that the
  last snapshot carries. -/
  wait : Option Nat
  carried : Option Nat
  /-- Window of the frozen detector (R125): reference, least and greatest applied output. -/
  frzRef : Option Dy
  frzMin : Dy
  frzMax : Dy
  /-- PV of the tripping sample of the frozen detector (R129). -/
  pvTrip : Dy
  /-- Consecutive clear samples of the three detectors (R129). -/
  clrFe : Nat
  clrAge : Nat
  clrFrz : Nat
  /-- A lost-feedback episode in MANUAL or TRACK has been reported (R124). -/
  episode : Bool
  /-- Host writes to a local slot that apply at its first release after the t0 of their cycle (R116): register, value,
  mask, cycle. -/
  host : List (Nat × Word × Word × Word)
  deriving DecidableEq, Repr, Inhabited

/-- A row of a window (R334): its instant, its values, and whether it is a spacer row or the first row after a step
of the time base. -/
structure Row where
  t : Nat
  vals : List Word
  spacer : Bool
  step : Bool
  deriving DecidableEq, Repr, Inhabited

/-- A window that is open (R335, R343, R344). -/
structure Win where
  id : Word
  src : Nat
  swatch : Bool
  ring : Nat
  cols : List Word
  period : Nat
  pre : Nat
  post : Nat
  streaming : Bool
  /-- Bytes reserved in the share of the region. -/
  resv : Nat
  /-- Trigger time and kind. -/
  trig : Option (Nat × Nat)
  /-- The trigger row stands, so that the mark, and the header of a streaming window, have been sent (R341). -/
  told : Bool
  preAct : Nat
  rows : List Row
  supp : Nat
  /-- A step of the time base has come since the last row. -/
  stepPend : Bool
  deriving DecidableEq, Repr, Inhabited

/-- A window, or a part of one, that awaits delivery (R463): the window, its region, the byte offset of the next
word, the words, whether the trailer is among them, and the reservation that it still holds. -/
structure Chunk where
  id : Word
  region : Nat
  off : Nat
  words : List Word
  done : Bool
  resv : Nat
  deriving DecidableEq, Repr, Inhabited

/-- What a capture engine holds beside its registers (R336 to R342). -/
structure CeX where
  win : Option Win
  /-- An accepted ARM awaits the next row instant. -/
  arm : Bool
  /-- Directions of the PROBE trigger that are armed: rising, falling. -/
  up : Bool
  dn : Bool
  /-- Trigger time of the hold-off, suppressed triggers since it, and whether the window has closed. -/
  hoT : Nat
  hoN : Nat
  closed : Bool
  /-- Suppressed triggers not yet marked: number, first and last time, window. -/
  supp : Option (Nat × Nat × Nat × Word)
  /-- KIND of the first of them; one past the end of the last hold-off, at which a condition still belongs to it; and the runs of
  computed instants that have had their row (R79). -/
  suppKind : Nat
  hoEnd : Nat
  rels : List (Nat × Nat)
  deriving DecidableEq, Repr, Inhabited

/-- A block of the record ring (R322), with the full time of its tag. -/
structure Blk where
  t : Nat
  typ : Nat
  n : Nat
  spec : Nat
  bseq : Word
  interval : Nat
  ws : List Word
  deriving DecidableEq, Repr, Inhabited

/-- A stream beside its registers (R327, R329): the blocks of its share, the oldest first, and the number and the
first and last time of the blocks lost; the first and last time of values discarded at the staging area (R328). -/
structure StreamX where
  blocks : List Blk
  lost : Nat
  lostA : Nat
  lostB : Nat
  rate : Option (Nat × Nat)
  deriving DecidableEq, Repr, Inhabited

/-- An open block (R324): stream, type, specification, time of its first entry, INTERVAL and its entries. -/
structure OpenBlk where
  stream : Nat
  typ : Nat
  spec : Nat
  t : Nat
  interval : Nat
  ents : List (List Word)
  deriving DecidableEq, Repr, Inhabited

/-- The group of an ANALOG specification (R320): instants so far, the value of the last one, and the values present:
their sum, number, infinities seen, least and greatest. -/
structure GroupX where
  n : Nat
  last : Option Word
  sum : Dy
  cnt : Nat
  infP : Bool
  infN : Bool
  mn : Word
  mx : Word
  deriving DecidableEq, Repr, Inhabited

/-- What a cluster holds beside its page: the swatch in progress (R135 to R139), and the latched state words of
the law port (R117). -/
structure ClusterX where
  /-- (slot and stage, words 13 to 15) of the last read of a state word 12. -/
  latch : Option (Nat × Word × Word × Word)
  /-- PRBS register and position in the bit (R137). -/
  lfsr : Nat
  phase : Nat
  /-- The window that the swatch fills (R139). -/
  win : Option Win
  /-- Effective mode at the start and law digest, to see a change (R133 causes 8 and 12). -/
  mode0 : Nat
  law0 : List Word
  /-- Cluster-local slot of the swatch, and the device time from which its releases count (R133, R135). -/
  slot : Nat
  start : Nat
  /-- Counted samples of the swatch, which LC_SW_CNT shows (R135), and an ABORT of this t0 (R140). -/
  cnt : Nat
  abort : Bool
  /-- The cause of an abort that has come since the last sample (R133): 7 FALLOW, 9 KEY, 10 STOP; 0 for none. -/
  due : Nat
  /-- The time from which the engine has been free, and the cascade job in progress, as its head and its release
  (R97, R100). -/
  free : Nat
  run : Option (Nat × Nat)
  deriving DecidableEq, Repr, Inhabited

/-- An item (R224). -/
structure ItemX where
  cls : Nat
  src : Nat
  tag : Word
  data : List Byte
  deriving DecidableEq, Repr, Inhabited

/-- Phases that the present cycle has passed (R58, R65, R70). -/
structure Cyc where
  /-- The landing cut-off has passed. -/
  cut : Bool
  /-- Phase S is done, and Phase L has opened. -/
  sDone : Bool
  lOpen : Bool
  /-- Offset of the Phase S gate, for TM_PH_MAX_S. -/
  sOff : Nat
  /-- First lane deferred by the previous Phase S (R65). -/
  defer : Option Nat
  /-- Consecutive missing Phase L reports of each die (R70). -/
  late : List (Nat × Nat)
  /-- The close of the cycle has passed. -/
  closed : Bool
  /-- While the entries of the log apply at t0: the items that they bring, with flow and time tag (R224). -/
  items : Option (List (Nat × ItemX × Word))
  /-- The cycle has been counted in XL_DIG_MISS_CNT (R446). -/
  missed : Bool
  deriving DecidableEq, Repr, Inhabited

/-- What the loaded image declares (R509). -/
structure ImgDecl where
  loaded : Bool
  /-- The configuration copy (R511): the words of the image and its law memory. -/
  io : List (Nat × Word)
  law : List (Nat × Word)
  decls : List (Nat × Ty)
  retain : List Nat
  owners : List (Nat × Owner)
  chambers : List (Nat × Nat)
  latch : List (Nat × List (Nat × Nat))
  locals : List Nat
  canRx : List (Nat × List RxMap)
  canTx : List (Nat × TxImage)
  macs : Nat × Nat
  deriving DecidableEq, Repr, Inhabited

/-- What a host ring holds beside its registers (R457 to R461). -/
structure HRingX where
  /-- Slots or buffers that software has posted on a to-host ring and the device has not used. -/
  posted : List Desc
  /-- Posted slots that the completions of commands already read will take (R461). -/
  resv : Nat
  /-- Write-backs with IRQ set since the last interrupt (R458). -/
  irqs : Nat
  /-- A command that waits for a completion slot, with those behind it (R461). -/
  wait : List Desc
  /-- CAN entries that a slot's previous write-back carried (R457): (slot, port, entry, transmit). -/
  carried : List (Nat × Nat × Nat × Bool)
  /-- Byte offset of an uncorrectable word in the data of the next buffer (R470). -/
  ue : Option Nat
  deriving DecidableEq, Repr, Inhabited

/-- A running ramp (R154, R168): its descriptor and target, the count k, v0 and v1, the factor e of EXP, and its
value. -/
structure Ramp where
  ramp : Nat
  target : Nat
  k : Nat
  v0 : Word
  v1 : Word
  e : Word
  v : Word
  deriving DecidableEq, Repr, Inhabited

/-- An endpoint filter (R166): f if set, its values with the newest first (f included), f of the previous cycle, and
the qualified sign as 0, 1, −1. -/
structure EndF where
  f : Option Word
  hist : List Word
  prev : Option Word
  q : Int
  deriving DecidableEq, Repr, Inhabited

/-- A successor that a lane awaits (R160, R161, R174): its step, the staged entry that holds it if there is one, and
the cycle from which it is ready. -/
structure LaneWait where
  step : Nat
  entry : Option Nat
  ready : Word
  deriving DecidableEq, Repr, Inhabited

/-- What a lane holds beside its registers (R154 to R183). -/
structure LaneX where
  /-- LV0 to LV31 (R183). -/
  lv : List (Nat × Word)
  /-- Fields 6 and 7: the command that a task wrote, and its argument (R183). -/
  cmd : Word
  arg : Word
  /-- Host commands that apply in the next Phase S (R157). -/
  host : List Nat
  /-- Ready cycles of the staged entries, by entry, and of the abort entry (R170, R160). -/
  ready : List (Nat × Word)
  abortReady : Word
  wait : Option LaneWait
  /-- History bits that differ from HIST0 or have been set, by step (R169). -/
  hist : List (Nat × Nat)
  ramps : List Ramp
  /-- Endpoint filters by exit, and move counters at the commit by exit (R164, R166). -/
  ends : List (Nat × EndF)
  moves : List (Nat × Word)
  /-- The conditions HEDGEROW, STOP and FENCE as bits 0 to 2, as the lane last saw them (R158). -/
  conds : Nat
  /-- Exits that an ADVANCE of this Phase S names (R157). -/
  adv : List Nat
  /-- The abort path is to be taken in this Phase S (R161). -/
  abort : Bool
  /-- The exit result kept by a deferred lane (R66). -/
  kept : Option Nat
  /-- A RESUME after a stop re-issues the values of the current step's targets (R158). -/
  reissue : Bool
  /-- The last value written to each target (R158). -/
  lastW : List (Nat × Word)
  /-- The WARN of R167 has been raised in this step. -/
  warned : Bool
  /-- The journal (R180): the step, and how many actions of the commit have run. -/
  jStep : Nat
  jRun : Nat
  /-- A warm restart has come since, and the journalled commit may be repeated (R180). -/
  supp : Bool
  /-- The first Phase S after a warm restart is to come (R179), and the SQ_TIMER from which the ENDPOINT blanking counts. -/
  fresh : Bool
  blank : Nat
  /-- A fetch of the recipe has met an uncorrectable word (R470). -/
  bad : Bool
  deriving DecidableEq, Repr, Inhabited

/-- What a station's entry holds beside its registers (R52, R56, R359 to R376). -/
structure StnX where
  /-- Input age, and whether the segment landed, as the last cut-off left them (R366). -/
  age : Nat
  landed : Bool
  /-- ISTAT, STIME and input data of the copy that has landed in this cycle. -/
  got : Option (Word × Word × List Word)
  /-- The port and the offset at which that copy arrived (R365). -/
  gotAt : Nat × Nat
  /-- The miss run (R376). -/
  miss : Nat
  /-- APPLY and FALLOW of the segment. -/
  apply : Bool
  fallow : Bool
  /-- The station has answered discovery since the last cut-off; an ADMIT entry is to be sent, and its failures; the
  WARN of a mismatch has been raised (R374). -/
  disc : Bool
  adm : Bool
  tries : Nat
  warned : Bool
  /-- The station has been admitted, and no segment has landed with STATE FALLOW since (R375). -/
  first : Bool
  deriving DecidableEq, Repr, Inhabited

/-- A tail frame: kind, station or ring, entries, and its data (R358, R362). -/
structure TailItem where
  kind : Nat
  stn : Nat
  nseg : Nat
  data : List Byte
  deriving DecidableEq, Repr, Inhabited

/-- What a ring has seen of this unit's own frames in this cycle (R367, R390): a train was sent, and when; the stations whose
segment has been rewritten in it (R307, R361); a frame came back on its own port, the directions that returned something, the
time at which the first frame of direction 0 passed the whole ring, and the frames of direction 0 that have; of the previous
train, its SEQ, departure and that time, if the whole train passed; and the tail frames that wait in their places (R362): TIME
frames, and a DISCOVER frame. -/
structure RingX where
  sent : Bool
  sentAt : Nat
  rew : List Nat
  loop : Bool
  dir0 : Bool
  dir1 : Bool
  pass : Option Nat
  back : List Nat
  prev : Option (Word × Nat × Option Nat)
  times : List TailItem
  disc : Bool
  deriving DecidableEq, Repr, Inhabited

/-- A request for a station's parameter space (R362, R460): the station, the command descriptor, the cycle and LSEQ of
its entry, and whether its frame has been sent. -/
structure MailX where
  stn : Nat
  wr : Bool
  paddr : Nat
  len : Nat
  data : List Byte
  member : CmdMember
  cyc : Word
  lseq : Word
  sent : Bool
  deriving DecidableEq, Repr, Inhabited

/-- What a unit of a pair holds beside its registers (R420 to R436). -/
structure XlX where
  /-- The last HELLO of a partner that is used (R422). -/
  partner : Option Hello
  /-- Device time of the last heartbeat, and of the last landed frame of the holder (R423). -/
  hbT : Nat
  ringT : Nat
  /-- Digests of recent cycles: this unit's and the partner's (R432), and consecutive cycles in which they matched. -/
  digs : List (Word × Word)
  peers : List (Word × Word)
  matched : Nat
  /-- The frames of this cycle wait for the holder's digest (R433). -/
  held : Bool
  /-- CLOSE entries received (R430): cycle, count and last LSEQ. -/
  closes : List (Word × Nat × Word)
  /-- Non-field inputs that this unit has itself seen since the last CLOSE that it applied (R424), with their tags. -/
  seen : List (Word × LogKind)
  /-- What applies at the next cycle boundary (R40, R427, R428): 1 RESYNC, 2 MUTE, 3 hand-over, 4 TAKE. -/
  want : Nat
  /-- Phase of a resync (R436): 1 bulk, 2 catch-up, 3 shadow; the matching cycles in SHADOW, and the device time at which
  SHADOW began. -/
  phase : Nat
  shadow : Nat
  shadowT : Nat
  /-- The last HELLO showed a conflict of unit IDs or another image, and the link is not used (R422); of unit IDs. -/
  unused : Bool
  conflict : Bool
  /-- In SEEK, a cyclic frame with ROLE 1 of another unit has come; the unit has left SEEK alone (R420). -/
  heard : Bool
  alone : Bool
  /-- The partner has asked for the state at the next close (R436). -/
  give : Bool
  /-- Copies received that wait for the entry that names them (R429): LSEQ, whether of the recipe store, and words. -/
  bulk : List (Word × Bool × List (Nat × Word))
  deriving DecidableEq, Repr, Inhabited

/-- What an SDI channel holds beside its block (R294 to R297). -/
structure SdiX where
  /-- Outputs of the main and fast path since the filters restarted (R294). -/
  nMain : Nat
  nFast : Nat
  /-- The comparators read 1 until the first valid fast output (R297). -/
  held : Bool
  /-- Device times of the last main and fast output. -/
  tMain : Nat
  tFast : Nat
  deriving DecidableEq, Repr, Inhabited

/-- A committed set of a PWM pair (R275): the four shadows. -/
structure PwmSet where
  per : Nat
  duty : Nat
  toff : Nat
  phase : Nat
  deriving DecidableEq, Repr, Inhabited

/-- What a PWM pair holds beside its block (R272 to R286). -/
structure PairX where
  /-- The committed set that has not been loaded (R278). -/
  pend : Option PwmSet
  /-- The loaded set. -/
  cur : PwmSet
  /-- The gate outputs: the high and the low side are on (R273). -/
  hi : Bool
  lo : Bool
  /-- A turn-off has come and the complementary turn-on is awaited: of the high side, or not (R281, R285). -/
  wait : Option Bool
  /-- Start of the on-interval and its end within the period, after R284; none for a side that stays (R272). -/
  rise : Option Nat
  fall : Option Nat
  /-- The last reload clamped D (R276). -/
  clamped : Bool
  /-- Start of the running period in 1/128 ns of device time, of which a tick (R269) has 5, and the end that an EDGE or CENTRE period
  has from its start (R271, R274); none before the first. -/
  start : Option Nat
  ends : Nat
  /-- The tick at which the on-time of a stepper's period has ended (R265). -/
  off : Option Nat
  /-- Tag of the commit of the pending set: a reload at that instant does not load it but the set committed before it, if that
  one still waits (R278). -/
  pendAt : Word
  earlier : Option PwmSet
  /-- Start of the period before the running one, in the unit of `start`, for the slaves of the pair (R274). -/
  prev : Option Nat
  /-- What forces the fallow pattern (R285): bits 0 a term, 1 a FALLOW axis, 2 the pair state, 3 a held region. -/
  holds : Nat
  /-- The forcing has ended and the pair resumes at its next period (R285); the pad-ring latch holds (R286). -/
  resume : Bool
  latch : Bool
  deriving DecidableEq, Repr, Inhabited

/-- The state of a trajectory at a cycle start with the jerk of the cycle, in the formats of R248. -/
structure Traj where
  p : Int
  v : Int
  a : Int
  j : Int
  deriving DecidableEq, Repr, Inhabited

/-- What an axis holds beside its block (R248 to R265). -/
structure AxisX where
  /-- Velocity and acceleration (R248); the position stands in AX_POS. -/
  v : Int
  a : Int
  /-- Segments that the plan still has (R251). -/
  plan : List PlanSeg
  /-- Goal of the last accepted move (R254), and the value of MOVE_REQ last seen. -/
  goal : Int
  seen : Word
  /-- Position and velocity at the acceptance of the last move, and the cycles that the first of two legs still has (R252). -/
  accP : Int
  accV : Int
  first : Nat
  /-- Stop causes that have been acted on (R256). -/
  causes : Nat
  /-- Host writes that apply at the next Phase L gate (R268): address, value, mask. -/
  writes : List (Nat × Word × Word)
  /-- Stall reports that apply at the next Phase L gate (R265). -/
  stalls : Nat
  /-- The segment computed in the last Phase L, and the one that the stepper plays (R263). -/
  next : Traj
  play : Traj
  /-- Numerator of the stepper's position at its previous tick (R264). -/
  lastN : Int
  /-- HOLD_DELAY has passed at rest (R265). -/
  held : Bool
  /-- Bridge polarity of coils A and B: negative (R262). -/
  negA : Bool
  negB : Bool
  deriving DecidableEq, Repr, Inhabited

/-- The delay lines of a region (R289, R290): the line at each of the 12 pairs, the shadow line, the last SPAN of
each line, the next pair in turn, a calibrated shadow that awaits its swap, and rotation that has stopped. -/
structure DlX where
  lines : List (Nat × Nat)
  shadow : Option Nat
  spans : List (Nat × Nat)
  turn : Nat
  ready : Bool
  stopped : Bool
  deriving DecidableEq, Repr, Inhabited

/-- Term states as the control path takes them (R309): the true terms, and the transitions held as pending for
Phase S, Phase L and the close. -/
structure HgX where
  ctl : List Nat
  pendS : List Nat
  pendL : List Nat
  pendC : List Nat
  deriving DecidableEq, Repr, Inhabited

/-- A transmit entry beside its register (R408 to R416). -/
structure TxX where
  /-- The frame that is pending or on the bus, the one whose trigger waits for it, and the one that a close has
  formed. -/
  frame : CanFrame
  wait : Option CanFrame
  fresh : Option CanFrame
  /-- Slot and descriptor of a HOST entry on its ring. -/
  desc : Option (Nat × Desc)
  /-- A CANCEL has come while the frame is on the bus; the frame has completed and its log entry is awaited. -/
  cancel : Bool
  sent : Bool
  /-- A standby has itself received the frame that is pending: the holder has sent it (R416). -/
  heard : Bool
  /-- The data words last queued (CHANGE), and an ACTION trigger of this cycle. -/
  last : Option (List Word)
  trig : Bool
  deriving DecidableEq, Repr, Inhabited

/-- A CAN port beside its registers (R402 to R416). -/
structure CanX where
  tx : List (Nat × TxX)
  /-- HOST descriptors that wait for a free entry. -/
  txWait : List (Nat × Desc)
  /-- Receive entries that are filled and not delivered, with frame and tag, and those that software owns. -/
  rxQ : List (Nat × CanFrame × Word)
  rxOwn : List Nat
  /-- A lost HOST frame has been reported in this episode. -/
  ovf : Bool
  /-- Receptions of each map entry mod 256 (R405). -/
  rxN : List (Nat × Nat)
  /-- Bus integration is done (R402); RECOVER has been written while bus-off (R411). -/
  integ : Bool
  recov : Bool
  /-- Receive error count, which CF_ERRCNT shows up to 127. -/
  recN : Nat
  /-- Candidate and error-free frames of ABD (R403). -/
  abd : Nat
  abdN : Nat
  /-- Identifier, IDE and number of consecutive bit errors of one frame. -/
  coll : Option (Nat × Bool × Nat)
  /-- Frames that a standby has received, with their marks (R416). -/
  buf : List (CanFrame × Bool)
  /-- The bus carries a frame that this port does not send, so that no arbitration of its own is under way (R409, R410). -/
  busy : Bool
  deriving DecidableEq, Repr, Inhabited

/-- What an edge input holds (R392): the counted level, the tags of the last stamped rise and fall, the count, and
the cycle whose log entry carries its image words. -/
structure EdgeX where
  /-- The synchronised pin level (R302), and the level after the filter. -/
  pin : Bool
  level : Bool
  rise : Word
  fall : Word
  count : Word
  entry : Option Word
  /-- Device time of the last counted edge (R392). -/
  last : Option Nat
  /-- The words have changed since that entry, and wait for the next cycle's. -/
  dirty : Bool
  deriving DecidableEq, Repr, Inhabited

/-- What a task holds beside its entry (R213 to R221). -/
structure TaskX where
  /-- An instance is live: made and not yet complete, or not yet published. -/
  live : Bool
  /-- Its cycle, the cycle in which a background instance publishes, and DT in nanoseconds (R61, R63, R202). -/
  cyc : Word
  due : Word
  dt : Nat
  /-- A background instance has been released, and the instant at which it wakes (R217). -/
  rel : Bool
  wake : Nat
  /-- The instance has been dispatched, and when; it has completed and awaits its publication. -/
  disp : Option Nat
  done : Bool
  /-- Buffered writes in order (R63). -/
  writes : List (Nat × Word)
  /-- The evaluation of the partition (R186, R189, R214): the next node (none once its END node has run), EN, the values
  that the instance has written, and since when the engine has been at it. -/
  pos : Option Nat
  en : Bool
  ov : List (Nat × Word)
  since : Nat
  /-- The instant at which it became ready (R214). -/
  ready : Nat
  /-- Cycle of the previous instance (R202). -/
  prev : Option Word
  deriving DecidableEq, Repr, Inhabited

/-- What a region scheduler holds beside its registers (R214 to R220). -/
structure RsX where
  /-- Ready tasks in list order, a preempted one at the head of its priority, and the running one. -/
  ready : List Nat
  run : Option Nat
  /-- Event tasks whose condition was true in the last evaluation. -/
  cond : List Nat
  /-- Nothing is dispatched until a stop takes effect (R207). -/
  halt : Bool
  deriving DecidableEq, Repr, Inhabited

/-- What a flow holds beside its entry (R224 to R227): its queue, the items counted, the cycle of the last dispatch, and
whether an earlier instance of the holder task completes first. -/
structure FlowX where
  queue : List ItemX
  count : Nat
  last : Word
  later : Bool
  deriving DecidableEq, Repr, Inhabited

/-- The time base beside its registers (R386 to R395): the integral of the servo, consecutive offsets below LOCK_THR, a
TM_SET command that waits for t0 (a device time, or an offset), the RTC in units of 1/32,768 ns, and the staged low
word of its seconds. -/
structure TimeX where
  integ : Dy
  /-- The fraction of a nanosecond that the time base holds beyond t0, in 2^-32 ns (R383). -/
  frac : Nat
  good : Nat
  set : Option (Bool × Int)
  rtc : Nat
  rtcLo : Word
  deriving DecidableEq, Repr, Inhabited

/-- A checkpoint (R438, R439): its header, with LEN in bytes and the CRC-32C of the words that it holds, and the items as words
of BAR0, law memory and the image master, and as the extra state of units. -/
structure Ckpt where
  epoch : Word
  /-- The wraps of TM_CYC_SEQ at the epoch (R46). -/
  wraps : Nat
  layout : Word
  len : Nat
  crc : Word
  restores : Nat
  valid : Bool
  io : List (Nat × Word)
  law : List (Nat × Word)
  /-- The running exponents of the stages, by LE_STG register (R89). -/
  exps : List (Nat × Nat)
  /-- The t0 of the epoch (R330). -/
  t0 : Nat
  outs : List (Nat × Word)
  slots : List (Nat × SlotX)
  axes : List (Nat × AxisX)
  lanes : List (Nat × LaneX)
  tasks : List (Nat × TaskX)
  rss : List (Nat × RsX)
  flows : List (Nat × FlowX)
  stns : List (Nat × StnX)
  bootId : Nat
  lseq : Word
  deriving DecidableEq, Repr, Inhabited

/-- The parts of the backup SRAM (R439). -/
inductive BackupPart where
  | staging | forces | journal | bufA | bufB
  deriving DecidableEq, Repr
/-- The offset of a part and its size in bytes (R439). -/
def BackupPart.offset : BackupPart → Nat
  | .staging => 0 | .forces => 0x40000 | .journal => 0x50000 | .bufA => 0x54000 | .bufB => 0xAA000
def BackupPart.size : BackupPart → Nat
  | .staging => 262144 | .forces => 65536 | .journal => 16384 | .bufA => 352256 | .bufB => 352256

/-- Start-up and restart beside their registers (R440 to R444, R503 to R516). -/
structure BootX where
  /-- The two directory copies, the one in force, and the headers of the banks as last read. -/
  dir0 : DirCopy
  dir1 : DirCopy
  cur : Bool
  hdrA : Header
  hdrB : Header
  /-- Banks that have failed in this boot, as bits. -/
  failed : Nat
  /-- Step 5 is complete: units are loaded and cycles run. A cycle has started since. -/
  up : Bool
  started : Bool
  /-- Number of the first cycle, the time at which the time base was seeded, and milliseconds from reset release to the
  check of the sections. -/
  first : Nat
  seed : Nat
  ms : Nat
  /-- The first cycle after a restore runs: its frames carry APPLY = 0 (R442). -/
  quiet : Bool
  /-- The loops have started (step 7), and the boot is a warm restart. -/
  loops : Bool
  warm : Bool
  /-- A key code has been stable (R511); the rest of the DRAM is initialised (R513). -/
  keyed : Bool
  dram : Bool
  /-- The DRAM is trained (R513); the streams that the image enables once the DRAM is initialised, as a mask. -/
  trained : Bool
  streams : Nat
  /-- A warm restart that has been decided: KA_RESTART.CAUSE, and without checkpoint. -/
  restart : Option (Nat × Bool)
  /-- A FATAL fault has come since the last t0 (R440). -/
  fatal : Bool
  /-- The bank of a reload that stops the controller at the next cycle boundary (R42, R244). -/
  reload : Option Bank
  /-- The buffer that RESTORE_DONE restores: B, or A. -/
  use : Option Bool
  /-- Operating times of the warm restarts of the last hour, in nanoseconds (R440). -/
  autos : List Nat
  /-- What the streams have lost in a warm restart: the time of the last valid checkpoint, and the blocks of each that were
  not drained (R330). -/
  undrained : Option (Nat × List (Nat × Nat))
  /-- The checkpoint buffers A and B, and the copy in progress. -/
  bufA : Option Ckpt
  bufB : Option Ckpt
  copying : Option Ckpt
  deriving DecidableEq, Repr, Inhabited

/-- Integrity beside its registers (R209, R470, R474, R480): for each memory the corrections since the last record and its
operating time, consecutive passing sentinel runs of a cluster, regions in BIST, and regions whose checker has read an
area. -/
structure IntegX where
  mems : List (Nat × Nat × Option Nat)
  passes : List (Nat × Nat)
  bist : List Nat
  checked : List Nat
  deriving DecidableEq, Repr, Inhabited

/-- A proposal (R492, R493): its item, proposer, digest, and the lease epoch, mode and operating time at which it was
accepted; its confirmation, once there is one. -/
structure PropX where
  item : Item
  by_ : Principal
  digest : BitVec 384
  epoch : Word
  at_ : Nat
  conf : Option Principal
  deriving DecidableEq, Repr

/-- The management core beside its registers (R482 to R501). -/
structure MgX where
  /-- Key hashes of the credential slots, by 4 × class + slot; 0 for none. The OWNER slot. -/
  creds : List (Nat × Nat)
  owner : Nat
  /-- The next nonce, and the nonce of each class with its operating time. -/
  nonceN : Nat
  nonces : List (Nat × (BitVec 384) × Nat)
  /-- Open sessions: class and credential slot. Operating times of failed AUTHs, and AUTH refused. -/
  sess : List (Nat × Nat)
  fails : List Nat
  locked : Bool
  props : List (Nat × PropX)
  /-- A pending ACTIVATE: bank, second, and operating time of the command. -/
  act : Option (Bank × Nat × Nat)
  /-- SVN and identity of the image of each bank, as UPDATE_END left them. -/
  banks : List (Nat × Nat × Word)
  /-- The erase of R501 runs towards a state; no image runs again until cold reset. -/
  erase : Option Nat
  barred : Bool
  /-- The core is in reset (R482); operating times of its resets; the WARN of VBAT stands. -/
  down : Bool
  resets : List Nat
  vbatWarn : Bool
  deriving DecidableEq, Repr, Inhabited

/-- Control-path state that a resync brings (R436): words of BAR0 (registers, locals, tables), law memory, output words of
the image master, bytes of the recipe store, what the units hold beside their registers, BOOT_ID, the next LSEQ, and the wraps
of the cycle number. -/
structure Bulk where
  io : List (Nat × Word)
  law : List (Nat × Word)
  outs : List (Nat × Word)
  recipes : List Host.Cell
  slots : List (Nat × SlotX)
  lanes : List (Nat × LaneX)
  axes : List (Nat × AxisX)
  tasks : List (Nat × TaskX)
  flows : List (Nat × FlowX)
  stns : List (Nat × StnX)
  cans : List (Nat × CanX)
  bootId : Nat
  lseq : Word
  wraps : Nat
  deriving DecidableEq, Repr, Inhabited

end Sys2Proof.Machine
end

