-- ==== Sys2Proof/Syntax.lean ====
section
/-!
DEFINITION. The commands of the block: one constructor for each row of spec/opcode_table.json. The table gives
no operands; each constructor's docstring says what the surroundings supply with the event or request. An
operand `off` is the instant of the event in nanoseconds after t0 of the present cycle (R59).
-/
namespace Sys2Proof

/-- A command of the table. -/
inductive Instr where
  -- the control cycle
  /-- CYCLE_START (R46): t0 of the next cycle. -/
  | cycleStart
  /-- CYCLIC_FRAME_RECEIVE (R365): a frame arrives at a field port. `home` says that it is one of this unit's
  own frames and `looped` that it came back on the port that sent it (R367). -/
  | cyclicFrameReceive (port : PortIx) (off : Nat) (home looped : Bool) (f : RxFrame)
  /-- LANDING_CUTOFF (R64). -/
  | landingCutoff
  /-- TASK_DISPATCH (R216): the engine of a region takes its next instance. `mismatches` are the residue
  mismatches that it meets from there on: at which node, and whether the re-execution mismatches too (R206, R207). -/
  | taskDispatch (r : RegionIx) (off : Nat) (mismatches : List (Nat × Bool))
  /-- TASK_COMPLETE (R62): the running instance of a region reaches its END node. -/
  | taskComplete (r : RegionIx) (off : Nat)
  /-- RELEASE_TICK (R217, R218): a 10 µs tick of a cycle falls in a region, `off` ns after the present t0. -/
  | releaseTick (r : RegionIx) (off : Nat)
  /-- PHASE_S_GATE (R58). `fetchLate` says that a read due in this cycle has not completed (R34). -/
  | phaseSGate (off : Nat) (fetchLate : Bool)
  /-- PHASE_L_GATE (R58). -/
  | phaseLGate (off : Nat)
  /-- CLOSE (R68). `missing` bit d: die d's Phase L report is missing (R70). -/
  | close (missing : BitVec 4)
  -- loop engine and supervision
  /-- LOCAL_SLOT_RELEASE (R77). -/
  | localSlotRelease (k : SlotIx) (off : Nat)
  /-- SAMPLE_COMPLETE (R102): the engine finishes the sample of a slot. `mismatch` is a residue mismatch with P0
  of SLOT_RES_RETRY (stage, or 8), with whether the re-execution mismatches too (R92). -/
  | sampleComplete (k : SlotIx) (off : Nat) (mismatch : Option (Nat × Bool))
  /-- SAMPLE_SKIP (R111). -/
  | sampleSkip (k : SlotIx) (off : Nat)
  /-- MODE_REQUEST (R104): a written mode code applies. -/
  | modeRequest (k : SlotIx) (code : BitVec 3)
  /-- TP_WRITE (R115): a write to TPn. -/
  | tpWrite (k : SlotIx) (n : Fin 8) (v : Word)
  /-- LAW_DATA_WRITE (R117): a logged law-memory write applies at t0. -/
  | lawDataWrite (c : ClusterIx) (waddr : Fin 4096) (v : Word)
  /-- LAW_ADDR_WRITE (R117). -/
  | lawAddrWrite (c : ClusterIx) (v : Word)
  /-- LAW_STATE_READ (R117): a read of LC_LAW_DATA at the present word address. -/
  | lawStateRead (c : ClusterIx)
  /-- CLR_FAULT (R110). -/
  | clrFault (k : SlotIx)
  /-- CLR_MAX (R116). -/
  | clrMax (k : SlotIx)
  /-- REENGAGE (R130). -/
  | reengage (k : SlotIx)
  /-- SWATCH_START (R133) on a slot of the cluster. -/
  | swatchStart (c : ClusterIx) (slot : Fin 32)
  /-- SWATCH_ABORT (R140). -/
  | swatchAbort (c : ClusterIx)
  -- sequencer
  /-- LANE_START (R157) of a recipe. -/
  | laneStart (l : LaneIx) (recipe : Fin 256)
  /-- LANE_HOLD (R157). -/
  | laneHold (l : LaneIx)
  /-- LANE_RESUME (R157). -/
  | laneResume (l : LaneIx)
  /-- LANE_ABORT (R157). -/
  | laneAbort (l : LaneIx)
  /-- LANE_ADVANCE (R157) of a HOST exit. -/
  | laneAdvance (l : LaneIx) (exit : Fin 4)
  /-- LANE_CLEAR (R157). -/
  | laneClear (l : LaneIx)
  /-- LANE_GOTO (R157) to a step. -/
  | laneGoto (l : LaneIx) (step : Fin 4096)
  /-- VALIDATE (R146) of a recipe. -/
  | validate (recipe : Fin 256)
  /-- INVALIDATE (R147) of a recipe. -/
  | invalidate (recipe : Fin 256)
  -- axes
  /-- AXIS_STOP (R259). -/
  | axisStop (a : AxisIx)
  /-- AXIS_RESUME (R259). -/
  | axisResume (a : AxisIx)
  /-- AXIS_REPLAN (R253). -/
  | axisReplan (a : AxisIx)
  /-- AXIS_CLR_FAULT (R259). -/
  | axisClrFault (a : AxisIx)
  /-- SET_POS (R259), with AX_CMD_ARG as s48.16. -/
  | setPos (a : AxisIx) (arg : BitVec 64)
  /-- STEPPER_TICK (R263): a 1 µs tick of the die's time base, `off` ns after t0. -/
  | stepperTick (a : AxisIx) (off : Nat)
  /-- STALL (R265): the stall condition has held for STALL_TIME. -/
  | stall (a : AxisIx)
  /-- HOLD_DELAY_EXPIRY (R265). -/
  | holdDelayExpiry (a : AxisIx)
  -- PWM, SDI, trips
  /-- PWM_COMMIT (R275). -/
  | pwmCommit (p : PairIx)
  /-- PW_GCOMMIT (R275) of the pairs in the mask. -/
  | pwGcommit (r : RegionIx) (mask : BitVec 12)
  /-- RELOAD_POINT (R278) of a pair; `centre` for the reload at the centre of a CENTRE carrier. -/
  | reloadPoint (p : PairIx) (off : Nat) (centre : Bool)
  /-- SWN_EDGE (R281): the expected edge is registered `tsw` ticks after the turn-off; `rise` for the edge
  after a low-side turn-off. -/
  | swnEdge (p : PairIx) (tsw : Nat) (rise : Bool)
  /-- DT_MAX_EXPIRY (R281); `rise` as for SWN_EDGE. -/
  | dtMaxExpiry (p : PairIx) (rise : Bool)
  /-- COMPARATOR_CHANGE (R293, R295): the bits in the window of the sliding sinc2 sum, the newest first: SDI_D at the rising and
  at the falling edge of each clock. -/
  | comparatorChange (ch : PairIx) (off : Nat) (bits : List (Bool × Bool))
  /-- SDI_MAIN_OUTPUT (R293, R294): the bits in the window of the sinc3 filter at an output instant, the newest first. -/
  | sdiMainOutput (ch : PairIx) (off : Nat) (bits : List (Bool × Bool))
  /-- SDI_FAST_OUTPUT (R293, R294): the bits in the window of the sinc2 filter at an output instant, the newest first. -/
  | sdiFastOutput (ch : PairIx) (off : Nat) (bits : List (Bool × Bool))
  /-- DL_CALIBRATION (R289): the measured SPAN of the shadow line of a region. -/
  | dlCalibration (r : RegionIx) (span : Nat)
  /-- TRIP_FILTER_CHANGE (R291): what the samples of a trip input have read, the last of them at `off`. -/
  | tripFilterChange (t : Fin 48) (off : Nat) (read : TripRead)
  -- clocks, dies, regions
  /-- CLOCK_MONITOR_FAULT (R31) of a domain. -/
  | clockMonitorFault (d : Domain)
  /-- CLK_FAULT_CLEAR (R297) of an SDI clock group. -/
  | clkFaultClear (g : Fin 48)
  /-- LINK_HUNG (R29) of a die. -/
  | linkHung (d : DieIx)
  /-- DIE_SUPPLY_FAULT (R36). -/
  | dieSupplyFault (d : DieIx)
  /-- DIE_OVERTEMP (R36). -/
  | dieOvertemp (d : DieIx)
  /-- DIE_FENCE (R39): the confirmed command applies. -/
  | dieFence (d : DieIx)
  /-- REGION_PORT_FENCE (R30). -/
  | regionPortFence (r : RegionIx)
  -- hedgerow
  /-- HG_RESET (R301) of a term. -/
  | hgReset (t : TermIx)
  /-- HG_RESET_ALL (R301). -/
  | hgResetAll
  /-- HEDGEROW_PATCH (R313, R494): the confirmed entries of HG_PATCH_BUF apply at a boundary; who proposed and who confirmed
  them. -/
  | hedgerowPatch (who : Principal × Principal)
  -- modes, tasks, forces, changes
  /-- KEY_CHANGE (R231): a key code has read stable for 20 ms. -/
  | keyChange (code : BitVec 2)
  /-- PAIR_DIFF (R232): the standby's key has differed from the package mode for 1 s. -/
  | pairDiff
  /-- CTL_STOP (R230). -/
  | ctlStop
  /-- CTL_START (R236). -/
  | ctlStart
  /-- RELOAD (R244) of the image that a bank holds; `partner` says that the partner of a pair reports the same bank
  ACCEPTED with the same image identity (R497). -/
  | reload (bank : Bank) (img : Image) (partner : Bool)
  /-- KILL (R227) of a task. -/
  | kill (r : RegionIx) (t : Fin 256)
  /-- ENABLE (R229) of a task. -/
  | enable (r : RegionIx) (t : Fin 256)
  /-- FORCE_SET (R241) of an entry with the staged values. -/
  | forceSet (i : Fin 4096)
  /-- FORCE_RELEASE (R241) of an entry. -/
  | forceRelease (i : Fin 4096)
  /-- RELEASE_ALL (R241). -/
  | releaseAll
  /-- OLC_APPLY (R242): the group in TK_OLC_BUF is checked and applies at t0. -/
  | olcApply
  /-- WAIT_EXPIRY (R225) of a flow, once its time-out has passed. -/
  | waitExpiry (f : FlowIx)
  /-- HOLD_MAX_EXPIRY (R227) of a flow. -/
  | holdMaxExpiry (f : FlowIx)
  -- capture, recording, trigger bus
  /-- CE_ARM (R336). -/
  | ceArm (r : RegionIx) (off : Nat)
  /-- CE_DISARM (R336). -/
  | ceDisarm (r : RegionIx) (off : Nat)
  /-- CE_FORCE (R336). -/
  | ceForce (r : RegionIx) (off : Nat)
  /-- CAPTURE_ROW (R333) at a row instant. -/
  | captureRow (r : RegionIx) (off : Nat)
  /-- HOLDOFF_END (R342). -/
  | holdoffEnd (r : RegionIx) (off : Nat)
  /-- SPACER_ROW (R346). -/
  | spacerRow (r : RegionIx) (off : Nat)
  /-- PULSE (R347) on a line. -/
  | pulse (line : Fin 8) (off : Nat)
  /-- TB_CAL (R348): the measured branches, and the round trips of the calibrated SHARED lines in ps. -/
  | tbCal (branches : List (RegionIx × Branch)) (shared : List (Fin 8 × Nat))
  /-- TRIG_PIN_EDGE (R348) at a ball, in mode IN or SHARED. -/
  | trigPinEdge (line : Fin 8) (off : Nat)
  /-- BLOCK_AGE_EXPIRY (R324) of a specification's open block. -/
  | blockAgeExpiry (spec : Fin 65535)
  /-- EPOCH (R325): a second boundary of the time base. -/
  | epoch (off : Nat)
  /-- FLUSH (R351). -/
  | flush
  /-- USER_MARK (R331). -/
  | userMark (arg : Word) (off : Nat)
  /-- SPEC_WRITE (R318). -/
  | specWrite
  /-- STREAM_ENABLE (R325) of a stream. -/
  | streamEnable (s : Fin 8) (off : Nat)
  /-- STREAM_RECOVERY (R329) of a stream. -/
  | streamRecovery (s : Fin 8) (off : Nat)
  /-- BUFFER_WRITEBACK (R463) on one of the rings 16 to 31: the buffer's length in bytes. -/
  | bufferWriteback (k : HRingIx) (len : Nat)
  -- field network
  /-- TAIL_WINDOW (R362) of a ring: its tail window opens. -/
  | tailWindow (ring : FRingIx) (off : Nat)
  /-- DISCOVER_RETURN (R374). -/
  | discoverReturn (ring : FRingIx) (entries : List DiscEntry)
  /-- ADMIT_RETURN (R374) of a station's entry. -/
  | admitReturn (s : StnIx) (off : Nat) (acked : Bool)
  /-- MAILBOX_ANSWER (R362) of a station, with its data and ISTAT. -/
  | mailboxAnswer (s : StnIx) (data : List Byte) (istat : Word)
  /-- NO_ANSWER (R451) of a mailbox station. -/
  | noAnswer (s : StnIx)
  /-- STN_HOLD (R377). -/
  | stnHold (s : StnIx)
  /-- STN_FALLOW (R377). -/
  | stnFallow (s : StnIx)
  /-- STN_RESUME (R377). -/
  | stnResume (s : StnIx)
  /-- READMIT (R377). -/
  | readmit (s : StnIx)
  /-- LINK_LOST (R380) of a field port. -/
  | linkLost (p : PortIx)
  -- time
  /-- PTP_OFFSET (R387, R388): the stamps of a measurement, with UTC_OFS and the leap flags as TM_RTC_UTC holds them (R395). -/
  | ptpOffset (m : PtpMeas) (utc : BitVec 18)
  /-- HOLDOVER (R386). -/
  | holdover
  /-- TM_SET (R389). -/
  | tmSet
  /-- TM_OFFSET (R389). -/
  | tmOffset
  /-- RTC_UPDATE (R395). -/
  | rtcUpdate (off : Nat)
  /-- RTC_SEC_WRITE (R395): a write to TM_RTC_SEC_HI. -/
  | rtcSecWrite (v : Word)
  /-- RTC_TRIM_WINDOW (R394). -/
  | rtcTrimWindow
  /-- EDGE_CAPTURE (R392): the pin took `level` at `off` and has held it for `stable` ns. -/
  | edgeCapture (e : Fin 64) (off : Nat) (level : Bool) (stable : Nat)
  -- CAN
  /-- CAN_FRAME_RECEIVE (R404). -/
  | canFrameReceive (p : CanIx) (off : Nat) (f : CanFrame)
  /-- CAN_TX_COMPLETE (R410), with the measured loop delay in CLK_CAN cycles (R400). -/
  | canTxComplete (p : CanIx) (off : Nat) (tdc : Nat)
  /-- ARBITRATION_LOST (R410). -/
  | arbitrationLost (p : CanIx)
  /-- CAN_ERROR (R410, R413): its kind, the port's part in the frame, and the counter step that the standard gives. -/
  | canError (p : CanIx) (kind : CanErr) (side : CanSide) (step : Nat)
  /-- BUS_INTEGRATION (R402). -/
  | busIntegration (p : CanIx)
  /-- BUS_OFF_RECOVERY (R411). -/
  | busOffRecovery (p : CanIx)
  /-- RECOVER (R411). -/
  | recover (p : CanIx)
  /-- CANCEL (R413) of an entry. -/
  | cancel (p : CanIx) (entry : Fin 64)
  /-- ABD_RESTART (R403). -/
  | abdRestart (p : CanIx)
  /-- ABD_WINDOW_EXPIRY (R403). -/
  | abdWindowExpiry (p : CanIx)
  /-- CAN_TIMING_WRITE (R401) of CF_NBT (0), CF_DBT (1) or CF_PRESC (2). -/
  | canTimingWrite (p : CanIx) (reg : Fin 3) (v : Word)
  /-- CAN_MODE_REQUEST (R402). -/
  | canModeRequest (p : CanIx) (req : BitVec 2)
  -- pair
  /-- HELLO_SEND (R422). -/
  | helloSend
  /-- HELLO (R422) received. -/
  | hello (h : Hello)
  /-- HEARTBEAT_SEND (R423). -/
  | heartbeatSend
  /-- HEARTBEAT_RECEIVE (R426) with its lease epoch. -/
  | heartbeatReceive (off : Nat) (epoch : Nat)
  /-- TAKEOVER (R424) at t0, after silence of both paths. -/
  | takeover
  /-- HANDOVER (R427) applies at the assigned cycle. -/
  | handover
  /-- TAKE (R427). -/
  | take
  /-- RESYNC (R428). -/
  | resync
  /-- MUTE (R428). -/
  | mute
  /-- DIGEST_RECEIVE (R433) of a cycle. -/
  | digestReceive (cyc : Word) (d : Word)
  /-- DIG_WAIT_EXPIRY (R433). -/
  | digWaitExpiry
  /-- LOG_ENTRY_RECEIVE (R429). -/
  | logEntryReceive (e : LogEntry)
  /-- OLFOAZ_LINK_DOWN (R421). -/
  | olfoazLinkDown
  /-- LANE_DEG (R421). -/
  | laneDeg
  /-- SEEK_TIMEOUT (R420); `seen` says that frames with ROLE 1 of another unit land on a ring. -/
  | seekTimeout (seen : Bool)
  /-- BULK_DONE (R436), with the journal's size in bytes and the holder's state. -/
  | bulkDone (journal : Nat) (b : Machine.Bulk)
  /-- CATCH_UP_DONE (R436), with the state that the evaluation of the journalled cycles has reached. -/
  | catchUpDone (b : Machine.Bulk)
  /-- SHADOW_DONE (R436), with the milliseconds of the resync. -/
  | shadowDone (ms : Nat)
  /-- RESYNC_RETRY (R436). -/
  | resyncRetry
  -- checkpoint and restart
  /-- CHECKPOINT_DONE (R438). -/
  | checkpointDone
  /-- WARM (R440). -/
  | warm
  /-- WARM_NOCKPT (R440). -/
  | warmNockpt
  /-- WARM_RESTART (R442): warm reset release, with the image that the bank holds. -/
  | warmRestart (img : Image)
  /-- RESTORE_DONE (R442). -/
  | restoreDone
  /-- COLD_RESET (R503): straps, the two directory copies and the headers of both banks. -/
  | coldReset (bootsel : BitVec 2) (unit : Bool) (density : Nat) (dir0 dir1 : DirCopy) (hdrA hdrB : Header)
  /-- DRAM_TRAINED (R513), or its failure (R514). -/
  | dramTrained (ok : Bool)
  /-- SECTIONS_CHECKED (R510): the results of the sections, the image, and the dies that report ACTIVE. -/
  | sectionsChecked (secs : List SecCheck) (img : Image) (active : BitVec 4) (ms : Nat)
  /-- RING_WAIT_EXPIRY (R513). -/
  | ringWaitExpiry
  /-- DRAM_INIT_DONE (R513). -/
  | dramInitDone
  /-- POWER_UP (R444): the outage in ms, and what COLD_RESET and WARM_RESTART need. -/
  | powerUp (outage : Nat) (bootsel : BitVec 2) (unit : Bool) (density : Nat) (dir0 dir1 : DirCopy)
      (hdrA hdrB : Header) (img : Image)
  /-- POWER_LOSS (R444). -/
  | powerLoss
  -- host
  /-- RING_DOORBELL (R457): a write of TAIL, and the descriptors that stand in host memory from HEAD on. -/
  | ringDoorbell (k : HRingIx) (tail : Word) (descs : List Desc)
  /-- RING_REREAD (R457) with the descriptors from HEAD on. -/
  | ringReread (k : HRingIx) (descs : List Desc)
  /-- WRITE (R460). -/
  | write (addr : Nat) (val mask : Word)
  /-- WRITE_BLOCK (R460). -/
  | writeBlock (addr : Nat) (vals : List Word)
  /-- READ_BLOCK (R460) of words. -/
  | readBlock (addr : Nat) (words : Nat)
  /-- ITEM (R460) for a flow, with its data and arrival tag. -/
  | item (f : FlowIx) (src : Nat) (tag : Word) (data : List Byte)
  /-- MAILBOX (R460) to a station: the request of a command ring slot. -/
  | mailbox (s : StnIx) (wr : Bool) (paddr : Nat) (len : Nat) (data : List Byte) (member : CmdMember)
  /-- MARKER (R460). -/
  | marker
  /-- RING_RESET (R458). -/
  | ringReset (k : HRingIx)
  /-- RING_IRQ_TIMER (R458). -/
  | ringIrqTimer (k : HRingIx)
  /-- HOST_LINK_LOSS (R467). -/
  | hostLinkLoss
  /-- HOST_LINK_RETURN (R467). -/
  | hostLinkReturn
  /-- HOST_INPUT_WRITE (R452): a BAR0 write to input word 0xF000 + i. -/
  | hostInputWrite (i : Fin 2048) (v : Word)
  /-- REGISTER_WRITE (R451): a BAR0 or BAR2 write of the given bytes. -/
  | registerWrite (bar2 : Bool) (addr : Nat) (bytes : List Byte) (off : Nat)
  -- integrity
  /-- CORRECTABLE_ERROR (R470) in a memory: 0–3 control die, 4 hub, 5 backup, 6 DRAM. -/
  | correctableError (mem : Fin 7) (off : Nat)
  /-- UNCORRECTABLE_ERROR (R470) at a location, with its word address. -/
  | uncorrectableError (loc : MemLoc) (waddr : Word)
  /-- SCRUB_READ (R469) of a word: correctable or clean, and whether the pass ends. -/
  | scrubRead (mem : Fin 7) (correctable : Bool) (passEnd : Bool)
  /-- SENTINEL_RUN (R473) of a cluster: the run and its repetition pass or fail, and whether it waited. -/
  | sentinelRun (c : ClusterIx) (off : Nat) (pass rerun late : Bool)
  /-- SEN_CLEAR (R474). -/
  | senClear (c : ClusterIx)
  /-- AREA_CHECK (R209) of the next area: the CRC of the first read and of the re-read. -/
  | areaCheck (r : RegionIx) (ok reread : Bool)
  /-- CV_INIT (R476). -/
  | cvInit
  /-- CV_DATA (R477). -/
  | cvData (v : Word)
  /-- CV_DATA_B (R477). -/
  | cvDataB (v : Byte)
  /-- CV_DMA_GO (R477). -/
  | cvDmaGo
  /-- CV_DMA_DONE (R477). -/
  | cvDmaDone
  /-- TEST (R478). -/
  | test
  /-- SERVICE (R478). -/
  | service
  /-- CV_CH_GO (R478). -/
  | cvChGo (c : Fin 8)
  /-- CV_CH_DONE (R478). -/
  | cvChDone (c : Fin 8)
  /-- BIST_GO (R479). -/
  | bistGo (mask : BitVec 16)
  /-- BIST_DONE (R480) of a region. -/
  | bistDone (r : RegionIx) (pass : Bool)
  -- management
  /-- AUTH_NONCE (R486) for a principal class. -/
  | authNonce (cls : Principal)
  /-- AUTH (R485) with a signature. -/
  | auth (cls : Principal) (signature : List Byte)
  /-- LOGOUT (R485). -/
  | logout (cls : Principal)
  /-- PROPOSE (R493) by a principal, with the descriptor and payload bytes. -/
  | propose (by_ : Principal) (item : Item) (bytes : List Byte)
  /-- CONFIRM (R493) of a proposal slot. -/
  | confirm (by_ : Principal) (slot : PropIx) (digest : BitVec 384)
  /-- WITHDRAW (R493). -/
  | withdraw (by_ : Principal) (slot : PropIx)
  /-- UPDATE_BEGIN (R496). -/
  | updateBegin (bank : Bank)
  /-- UPDATE_WRITE (R486). -/
  | updateWrite (bank : Bank) (offset len : Nat)
  /-- UPDATE_END (R496): CRCs and signatures pass, the image's SVN and identity. -/
  | updateEnd (bank : Bank) (crcOk sigOk : Bool) (svn : Nat) (ident : Word)
  /-- ACTIVATE (R497) of a bank at a TAI second, or 0. -/
  | activate (bank : Bank) (sec : Nat)
  /-- ACTIVATE_DUE (R497). -/
  | activateDue
  /-- ACTIVATE_DROP (R497). -/
  | activateDrop
  /-- SVN_COMMIT (R498), with the seconds that the image has been in RUN. -/
  | svnCommit (runSec : Nat)
  /-- RECLAIM (R414) of CAN ports. -/
  | reclaim (mask : BitVec 16)
  /-- SENSORS (R486). -/
  | sensors
  /-- TRACE (R501) on or off, with its CONSOLE confirmation. -/
  | trace (on confirmed : Bool)
  /-- SESSION_TIMEOUT (R485). -/
  | sessionTimeout (cls : Principal)
  /-- AUTH_LOCKOUT_END (R485). -/
  | authLockoutEnd
  /-- PROPOSAL_LAPSE (R493). -/
  | proposalLapse (slot : PropIx)
  /-- ERASE_DONE (R501). -/
  | eraseDone (ok : Bool)
  /-- SENSOR_SAMPLE (R483): the sampled values of the 20 temperatures, 16 voltages and VBAT. `clear` bit i: sensor i has
  stayed inside its limit for 1 s (temperatures 0 to 19, voltages 20 to 35, VBAT 36); `low` bit j: voltage j is outside its
  limit for 1 ms, a comparison finer than VALUE. -/
  | sensorSample (temps volts : List Word) (vbat : Word) (clear : BitVec 37) (low : BitVec 16)
  /-- LOCKSTEP_MISMATCH (R482). -/
  | lockstepMismatch
  /-- MGMT_RESET (R482). -/
  | mgmtReset
  /-- NVM_COPY (R490); `ok` for the read-back. -/
  | nvmCopy (ok : Bool)
  -- further events
  /-- COMMANDED_TRANSITION (R272) of a pair, at a tick after the period start; `end_` says that CMP_HI ended a
  CFT on-time. -/
  | commandedTransition (p : PairIx) (tick : Nat) (rise end_ : Bool)
  /-- HUB_HARDWARE_LIMIT (R483). -/
  | hubHardwareLimit
  /-- CAN_CLOCK_GOOD (R402). -/
  | canClockGood
  /-- FIELD_LINK_UP (R380). -/
  | fieldLinkUp (p : PortIx)
  /-- OLFOAZ_LINK_UP (R421). -/
  | olfoazLinkUp
  /-- CLOSE_ENTRY_SEND (R430) of a cycle. -/
  | closeEntrySend (cyc : Word)
  /-- TM_NOW_READ (R396). -/
  | tmNowRead (off : Nat)
  /-- CONSOLE_DISCONNECT (R485). -/
  | consoleDisconnect
  /-- VBAT_LOSS (R522). -/
  | vbatLoss
  /-- VALIDATION_DONE (R182). -/
  | validationDone
  /-- BUSY_WINDOW_END (R117) of a 1 ms window: cycles used by each cluster and each net engine. -/
  | busyWindowEnd (clusters nets : List Nat)
  deriving DecidableEq, Repr

end Sys2Proof
end

