-- ==== Sys2Proof/Machine/Crc.lean ====
section
/-!
DEFINITION. The check values of R476, bit by bit, and the split of words into bytes (R9).
-/
namespace Sys2Proof.Machine

/-- A polynomial of R476: width, polynomial, initial value, reflection of input and output, final XOR. -/
structure CrcPoly where
  width : Nat
  poly : Nat
  init : Nat
  refl : Bool
  xorOut : Nat
  deriving DecidableEq, Repr

/-- The polynomial that a POLY code selects (R476). -/
def Crc.poly (code : Nat) : CrcPoly :=
  match code % 4 with
  | 0 => ⟨32, 0x04C11DB7, 0xFFFFFFFF, true, 0xFFFFFFFF⟩
  | 1 => ⟨32, 0x1EDC6F41, 0xFFFFFFFF, true, 0xFFFFFFFF⟩
  | 2 => ⟨16, 0x1021, 0xFFFF, false, 0⟩
  | _ => ⟨64, 0x42F0E1EBA9EA3693, 0, false, 0⟩

/-- The low n bits of x, mirrored. -/
def Crc.mirror (n x : Nat) : Nat :=
  match n with
  | 0 => 0
  | m + 1 => (x % 2) * 2 ^ m + Crc.mirror m (x / 2)

/-- One step of the register by one input bit, the highest bit first. -/
def Crc.bit (p : CrcPoly) (r : Nat) (b : Nat) : Nat :=
  let top := (r >>> (p.width - 1)) % 2
  let sh := (r <<< 1) % 2 ^ p.width
  if (top + b) % 2 = 1 then sh ^^^ p.poly else sh

/-- The register after the bits of a byte, highest first; a reflected code takes the lowest bit first. -/
def Crc.byte (p : CrcPoly) (r : Nat) (b : Byte) : Nat :=
  let v := if p.refl then Crc.mirror 8 b.toNat else b.toNat
  (List.range 8).foldl (fun acc i => Crc.bit p acc ((v >>> (7 - i)) % 2)) r

/-- The running register over bytes. -/
def Crc.run (p : CrcPoly) (r : Nat) (bs : List Byte) : Nat :=
  bs.foldl (Crc.byte p) r

/-- The value that a running register gives (R476). -/
def Crc.final (p : CrcPoly) (r : Nat) : Nat :=
  (if p.refl then Crc.mirror p.width r else r) ^^^ p.xorOut

/-- The check value of a list of bytes. -/
def Crc.of (code : Nat) (bs : List Byte) : Nat :=
  Crc.final (Crc.poly code) (Crc.run (Crc.poly code) (Crc.poly code).init bs)

/-- The four bytes of a word, lowest first (R9). -/
def Word.bytes (w : Word) : List Byte :=
  [BitVec.ofNat 8 w.toNat, BitVec.ofNat 8 (w.toNat >>> 8), BitVec.ofNat 8 (w.toNat >>> 16),
    BitVec.ofNat 8 (w.toNat >>> 24)]

/-- The word of up to four bytes, lowest first (R9). -/
def Word.ofBytes (bs : List Byte) : Word :=
  Word.ofN (bs.foldr (fun b acc => acc * 256 + b.toNat) 0)

/-- The bytes of a list of words. -/
def Word.bytesAll (ws : List Word) : List Byte := (ws.map Word.bytes).flatten

/-- The words of a list of bytes; a last word that is short is filled with zeros. -/
def Word.ofBytesAll (bs : List Byte) : List Word :=
  (List.range ((bs.length + 3) / 4)).map (fun i => Word.ofBytes ((bs.drop (4 * i)).take 4))

end Sys2Proof.Machine
end

