-- ==== Sys2Proof/Machine/Regs.lean ====
section
/-!
DEFINITION. The address map of BAR0 (R452) and the register fields of the spec's field tables: for each
register its BAR0 offset, for each field its bits, and for each block the rows of offset, access and reset that
reads, writes and State.reset follow (R12, R13). Names are the manual's.
-/
namespace Sys2Proof.Machine

/-- A field of a register: its lowest bit and its length (R9). -/
structure Fld where
  lsb : Nat
  len : Nat
  deriving DecidableEq, Repr

/-- Region base B (R452). -/
def R.regionBase (n : Nat) : Nat := 0x1000000 + 0x100000 * n
/-- Slot block of a global slot index (R7, R452). -/
def R.slotBase (k : Nat) : Nat := R.regionBase (k / 256) + 0x2000 * (k / 32 % 8) + 0x100 * (k % 32)
/-- Cluster page (R452). -/
def R.clusterBase (c : Nat) : Nat := R.regionBase (c / 8) + 0x10000 + 0x100 * (c % 8)
/-- Axis block (R452). -/
def R.axisBase (a : Nat) : Nat := R.regionBase (a / 8) + 0x20000 + 0x400 * (a % 8)
/-- PWM pair block (R452). -/
def R.pairBase (p : Nat) : Nat := R.regionBase (p / 12) + 0x30000 + 0x100 * (p % 12)
/-- SDI channel block (R452). -/
def R.sdiBase (p : Nat) : Nat := R.regionBase (p / 12) + 0x31000 + 0x40 * (p % 12)
/-- Station block of a global station number (R355, R452). -/
def R.stnBase (s : Nat) : Nat := 0x101000 + 0x20000 * (s / 126) + 0x40 * (s % 126)


-- registers of 02_control_cycle.md
def R.TM_CYC_CFG : Nat := 0x30100
def F.TM_CYC_CFG_PERIOD : Fld := ⟨0, 4⟩
def R.TM_CYC_SEQ : Nat := 0x30104
def F.TM_CYC_SEQ_SEQ : Fld := ⟨0, 32⟩
def R.TM_LAND_CUTOFF : Nat := 0x30108
def F.TM_LAND_CUTOFF_OFFSET : Fld := ⟨0, 23⟩
def R.TM_PH_S_START : Nat := 0x3010C
def F.TM_PH_S_START_OFFSET : Fld := ⟨0, 23⟩
def R.TM_PH_L_START : Nat := 0x30110
def F.TM_PH_L_START_OFFSET : Fld := ⟨0, 23⟩
def R.TM_CLOSE : Nat := 0x30114
def F.TM_CLOSE_OFFSET : Fld := ⟨0, 23⟩
def R.TM_SQ_ALLOW : Nat := 0x30118
def F.TM_SQ_ALLOW_UNITS : Fld := ⟨0, 16⟩
def R.TM_CYC_STAT : Nat := 0x3011C
def F.TM_CYC_STAT_LATE_LAND : Fld := ⟨0, 1⟩
def F.TM_CYC_STAT_N_LATE : Fld := ⟨1, 1⟩
def F.TM_CYC_STAT_S_DEFER : Fld := ⟨2, 1⟩
def F.TM_CYC_STAT_L_LATE : Fld := ⟨3, 1⟩
def F.TM_CYC_STAT_DIE_LATE : Fld := ⟨4, 4⟩
def R.TM_PH_MAX_N : Nat := 0x30120
def F.TM_PH_MAX_N_OFFSET : Fld := ⟨0, 23⟩
def F.TM_PH_MAX_N_CLR : Fld := ⟨31, 1⟩
def R.TM_PH_MAX_S : Nat := 0x30124
def F.TM_PH_MAX_S_OFFSET : Fld := ⟨0, 23⟩
def F.TM_PH_MAX_S_CLR : Fld := ⟨31, 1⟩
def R.TM_PH_MAX_L : Nat := 0x30128
def F.TM_PH_MAX_L_OFFSET : Fld := ⟨0, 23⟩
def F.TM_PH_MAX_L_CLR : Fld := ⟨31, 1⟩
def R.TM_LATE_LAND_CNT : Nat := 0x3012C
def F.TM_LATE_LAND_CNT_COUNT : Fld := ⟨0, 32⟩

-- registers of 03_loop_engine.md
def R.LE_CFG (k : Nat) : Nat := R.slotBase k + 0x0
def F.LE_CFG_TIMING : Fld := ⟨0, 1⟩
def F.LE_CFG_INDEP : Fld := ⟨1, 1⟩
def F.LE_CFG_FLT_ACT : Fld := ⟨2, 2⟩
def F.LE_CFG_SP_TRACK : Fld := ⟨4, 1⟩
def F.LE_CFG_TRK_EN : Fld := ⟨5, 1⟩
def F.LE_CFG_TRK_STAGE : Fld := ⟨6, 3⟩
def F.LE_CFG_NSTG : Fld := ⟨9, 3⟩
def F.LE_CFG_CASC : Fld := ⟨12, 1⟩
def F.LE_CFG_CASC_POS : Fld := ⟨13, 2⟩
def F.LE_CFG_CASC_HEAD : Fld := ⟨15, 5⟩
def F.LE_CFG_NOT_BUMPLESS : Fld := ⟨20, 1⟩
def F.LE_CFG_USED : Fld := ⟨21, 1⟩
def R.LE_PERIOD (k : Nat) : Nat := R.slotBase k + 0x4
def F.LE_PERIOD_NS : Fld := ⟨0, 32⟩
def R.LE_PHASE (k : Nat) : Nat := R.slotBase k + 0x8
def F.LE_PHASE_NS : Fld := ⟨0, 30⟩
def R.LE_FSYNC (k : Nat) : Nat := R.slotBase k + 0xC
def F.LE_FSYNC_DIV_M1 : Fld := ⟨0, 8⟩
def F.LE_FSYNC_PH : Fld := ⟨8, 8⟩
def R.LE_IN_SP (k : Nat) : Nat := R.slotBase k + 0x10
def F.LE_IN_SP_REF : Fld := ⟨0, 20⟩
def F.LE_IN_SP_KIND : Fld := ⟨20, 2⟩
def F.LE_IN_SP_SDI : Fld := ⟨22, 4⟩
def R.LE_IN_PV (k : Nat) : Nat := R.slotBase k + 0x14
def F.LE_IN_PV_REF : Fld := ⟨0, 20⟩
def F.LE_IN_PV_KIND : Fld := ⟨20, 2⟩
def F.LE_IN_PV_SDI : Fld := ⟨22, 4⟩
def R.LE_IN_AUX0 (k : Nat) : Nat := R.slotBase k + 0x18
def F.LE_IN_AUX0_REF : Fld := ⟨0, 20⟩
def F.LE_IN_AUX0_KIND : Fld := ⟨20, 2⟩
def F.LE_IN_AUX0_SDI : Fld := ⟨22, 4⟩
def R.LE_IN_AUX1 (k : Nat) : Nat := R.slotBase k + 0x1C
def F.LE_IN_AUX1_REF : Fld := ⟨0, 20⟩
def F.LE_IN_AUX1_KIND : Fld := ⟨20, 2⟩
def F.LE_IN_AUX1_SDI : Fld := ⟨22, 4⟩
def R.LE_IN_TRK (k : Nat) : Nat := R.slotBase k + 0x20
def F.LE_IN_TRK_REF : Fld := ⟨0, 20⟩
def F.LE_IN_TRK_KIND : Fld := ⟨20, 2⟩
def F.LE_IN_TRK_SDI : Fld := ⟨22, 4⟩
def R.LE_OUT_DST (k : Nat) : Nat := R.slotBase k + 0x24
def F.LE_OUT_DST_REF : Fld := ⟨0, 20⟩
def F.LE_OUT_DST_KIND : Fld := ⟨20, 2⟩
def F.LE_OUT_DST_PAIR : Fld := ⟨22, 4⟩
def R.LE_MODE (k : Nat) : Nat := R.slotBase k + 0x28
def F.LE_MODE_REQ : Fld := ⟨0, 3⟩
def F.LE_MODE_EFF : Fld := ⟨4, 3⟩
def R.LE_CMD (k : Nat) : Nat := R.slotBase k + 0x2C
def F.LE_CMD_CLR_FAULT : Fld := ⟨0, 1⟩
def F.LE_CMD_CLR_MAX : Fld := ⟨1, 1⟩
def R.LE_SP (k : Nat) : Nat := R.slotBase k + 0x30
def F.LE_SP_VALUE : Fld := ⟨0, 32⟩
def R.LE_PV (k : Nat) : Nat := R.slotBase k + 0x34
def F.LE_PV_VALUE : Fld := ⟨0, 32⟩
def R.LE_OUT (k : Nat) : Nat := R.slotBase k + 0x38
def F.LE_OUT_VALUE : Fld := ⟨0, 32⟩
def R.LE_ERR (k : Nat) : Nat := R.slotBase k + 0x3C
def F.LE_ERR_VALUE : Fld := ⟨0, 32⟩
def R.LE_MAN_OUT (k : Nat) : Nat := R.slotBase k + 0x40
def F.LE_MAN_OUT_VALUE : Fld := ⟨0, 32⟩
def R.LE_OUT_HI (k : Nat) : Nat := R.slotBase k + 0x44
def F.LE_OUT_HI_VALUE : Fld := ⟨0, 32⟩
def R.LE_OUT_LO (k : Nat) : Nat := R.slotBase k + 0x48
def F.LE_OUT_LO_VALUE : Fld := ⟨0, 32⟩
def R.LE_OUT_RATE (k : Nat) : Nat := R.slotBase k + 0x4C
def F.LE_OUT_RATE_VALUE : Fld := ⟨0, 32⟩
def R.LE_AUX0 (k : Nat) : Nat := R.slotBase k + 0x50
def F.LE_AUX0_VALUE : Fld := ⟨0, 32⟩
def R.LE_AUX1 (k : Nat) : Nat := R.slotBase k + 0x54
def F.LE_AUX1_VALUE : Fld := ⟨0, 32⟩
def R.LE_TRK_VAL (k : Nat) : Nat := R.slotBase k + 0x58
def F.LE_TRK_VAL_VALUE : Fld := ⟨0, 32⟩
def R.LE_TP (k i : Nat) : Nat := R.slotBase k + 0x5C + 4 * i
def F.LE_TP_VALUE : Fld := ⟨0, 32⟩
def R.LE_TPMAP0 (k : Nat) : Nat := R.slotBase k + 0x7C
def F.LE_TPMAP0_MAP : Fld := ⟨0, 32⟩
def R.LE_TPMAP1 (k : Nat) : Nat := R.slotBase k + 0x80
def F.LE_TPMAP1_MAP : Fld := ⟨0, 32⟩
def R.LE_STAT (k : Nat) : Nat := R.slotBase k + 0x84
def F.LE_STAT_OVF : Fld := ⟨0, 1⟩
def F.LE_STAT_UNF : Fld := ⟨1, 1⟩
def F.LE_STAT_BAD_IN : Fld := ⟨2, 1⟩
def F.LE_STAT_OUT_SAT : Fld := ⟨3, 1⟩
def F.LE_STAT_RES_RETRY : Fld := ⟨4, 1⟩
def F.LE_STAT_RES_FAULT : Fld := ⟨5, 1⟩
def F.LE_STAT_OVR_FAULT : Fld := ⟨6, 1⟩
def F.LE_STAT_LATE : Fld := ⟨7, 1⟩
def F.LE_STAT_FCAUSE : Fld := ⟨8, 5⟩
def R.LE_STG_FLAG (k : Nat) : Nat := R.slotBase k + 0x88
def F.LE_STG_FLAG_OVF : Fld := ⟨0, 8⟩
def F.LE_STG_FLAG_UNF : Fld := ⟨8, 8⟩
def R.LE_SKIP_CNT (k : Nat) : Nat := R.slotBase k + 0x8C
def F.LE_SKIP_CNT_COUNT : Fld := ⟨0, 32⟩
def R.LE_OVR (k : Nat) : Nat := R.slotBase k + 0x90
def F.LE_OVR_LIMIT : Fld := ⟨0, 8⟩
def F.LE_OVR_RUN : Fld := ⟨8, 8⟩
def R.LE_LAST_DELAY (k : Nat) : Nat := R.slotBase k + 0x94
def F.LE_LAST_DELAY_NS : Fld := ⟨0, 32⟩
def R.LE_MAX_DELAY (k : Nat) : Nat := R.slotBase k + 0x98
def F.LE_MAX_DELAY_NS : Fld := ⟨0, 32⟩
def R.LE_SAMPLE_T (k : Nat) : Nat := R.slotBase k + 0x9C
def F.LE_SAMPLE_T_TAG : Fld := ⟨0, 32⟩
def R.LE_SUPERSEDED (k : Nat) : Nat := R.slotBase k + 0xA0
def F.LE_SUPERSEDED_COUNT : Fld := ⟨0, 32⟩
def R.LE_STG (k i : Nat) : Nat := R.slotBase k + 0xA4 + 4 * i
def F.LE_STG_TYPE : Fld := ⟨0, 3⟩
def F.LE_STG_OPT0 : Fld := ⟨3, 1⟩
def F.LE_STG_OPT1 : Fld := ⟨4, 1⟩
def F.LE_STG_IN_A : Fld := ⟨8, 4⟩
def F.LE_STG_IN_B : Fld := ⟨12, 4⟩
def F.LE_STG_IN_C : Fld := ⟨16, 4⟩
def F.LE_STG_EXP : Fld := ⟨24, 8⟩
def R.LC_ID (c : Nat) : Nat := R.clusterBase c + 0x0
def F.LC_ID_CLUSTER : Fld := ⟨0, 3⟩
def F.LC_ID_REGION : Fld := ⟨3, 4⟩
def R.LC_STAT (c : Nat) : Nat := R.clusterBase c + 0x4
def F.LC_STAT_LAW_DENIED : Fld := ⟨1, 1⟩
def F.LC_STAT_RES_RETRY : Fld := ⟨2, 1⟩
def F.LC_STAT_LAW_NONFINITE : Fld := ⟨3, 1⟩
def R.LC_LOAD_CFG (c : Nat) : Nat := R.clusterBase c + 0x8
def F.LC_LOAD_CFG_KCPS : Fld := ⟨0, 32⟩
def R.LC_BUSY (c : Nat) : Nat := R.clusterBase c + 0xC
def F.LC_BUSY_CYCLES : Fld := ⟨0, 20⟩
def R.LC_BUSY_MAX (c : Nat) : Nat := R.clusterBase c + 0x10
def F.LC_BUSY_MAX_CYCLES : Fld := ⟨0, 20⟩
def F.LC_BUSY_MAX_CLR : Fld := ⟨31, 1⟩
def R.LC_RES_RETRY_CNT (c : Nat) : Nat := R.clusterBase c + 0x14
def F.LC_RES_RETRY_CNT_COUNT : Fld := ⟨0, 32⟩
def R.LC_SKIP_CNT (c : Nat) : Nat := R.clusterBase c + 0x18
def F.LC_SKIP_CNT_COUNT : Fld := ⟨0, 32⟩
def R.LC_LAW_ADDR (c : Nat) : Nat := R.clusterBase c + 0x1C
def F.LC_LAW_ADDR_WORD : Fld := ⟨2, 12⟩
def F.LC_LAW_ADDR_AUTOINC : Fld := ⟨31, 1⟩
def R.LC_LAW_DATA (c : Nat) : Nat := R.clusterBase c + 0x20
def F.LC_LAW_DATA_DATA : Fld := ⟨0, 32⟩

-- registers of 04_loop_supervision.md
def R.LE_SUP_CFG (k : Nat) : Nat := R.slotBase k + 0xC4
def F.LE_SUP_CFG_FE_EN : Fld := ⟨0, 1⟩
def F.LE_SUP_CFG_AGE_EN : Fld := ⟨1, 1⟩
def F.LE_SUP_CFG_FRZ_EN : Fld := ⟨2, 1⟩
def F.LE_SUP_CFG_FE_ACTION : Fld := ⟨3, 2⟩
def F.LE_SUP_CFG_FB_ACTION : Fld := ⟨5, 2⟩
def F.LE_SUP_CFG_REENG_AUTO : Fld := ⟨7, 1⟩
def F.LE_SUP_CFG_REENG_N : Fld := ⟨8, 8⟩
def R.LE_FE_LIMIT (k : Nat) : Nat := R.slotBase k + 0xC8
def F.LE_FE_LIMIT_VALUE : Fld := ⟨0, 32⟩
def R.LE_FE_TIME (k : Nat) : Nat := R.slotBase k + 0xCC
def F.LE_FE_TIME_SAMPLES : Fld := ⟨0, 24⟩
def R.LE_FB_AGE (k : Nat) : Nat := R.slotBase k + 0xD0
def F.LE_FB_AGE_MAX : Fld := ⟨0, 8⟩
def F.LE_FB_AGE_AGE : Fld := ⟨8, 8⟩
def F.LE_FB_AGE_BADPV : Fld := ⟨16, 8⟩
def R.LE_FRZ_BAND (k : Nat) : Nat := R.slotBase k + 0xD4
def F.LE_FRZ_BAND_VALUE : Fld := ⟨0, 32⟩
def R.LE_FRZ_N (k : Nat) : Nat := R.slotBase k + 0xD8
def F.LE_FRZ_N_SAMPLES : Fld := ⟨0, 24⟩
def R.LE_MOVE_MIN (k : Nat) : Nat := R.slotBase k + 0xDC
def F.LE_MOVE_MIN_VALUE : Fld := ⟨0, 32⟩
def R.LE_OPEN_OUT (k : Nat) : Nat := R.slotBase k + 0xE0
def F.LE_OPEN_OUT_VALUE : Fld := ⟨0, 32⟩
def R.LE_SUP_STAT (k : Nat) : Nat := R.slotBase k + 0xE4
def F.LE_SUP_STAT_FE_ACT : Fld := ⟨0, 1⟩
def F.LE_SUP_STAT_AGE_ACT : Fld := ⟨1, 1⟩
def F.LE_SUP_STAT_FRZ_ACT : Fld := ⟨2, 1⟩
def F.LE_SUP_STAT_FE_SEEN : Fld := ⟨3, 1⟩
def F.LE_SUP_STAT_AGE_SEEN : Fld := ⟨4, 1⟩
def F.LE_SUP_STAT_FRZ_SEEN : Fld := ⟨5, 1⟩
def F.LE_SUP_STAT_REENG_DENIED : Fld := ⟨6, 1⟩
def F.LE_SUP_STAT_SWATCH : Fld := ⟨7, 1⟩
def R.LE_SUP_CMD (k : Nat) : Nat := R.slotBase k + 0xE8
def F.LE_SUP_CMD_REENGAGE : Fld := ⟨0, 1⟩
def R.LE_FE_CNT (k : Nat) : Nat := R.slotBase k + 0xEC
def F.LE_FE_CNT_COUNT : Fld := ⟨0, 24⟩
def R.LE_FRZ_CNT (k : Nat) : Nat := R.slotBase k + 0xF0
def F.LE_FRZ_CNT_COUNT : Fld := ⟨0, 24⟩
def R.LE_SUP_EVT_CNT (k : Nat) : Nat := R.slotBase k + 0xF4
def F.LE_SUP_EVT_CNT_COUNT : Fld := ⟨0, 32⟩
def R.LE_SUP_T (k : Nat) : Nat := R.slotBase k + 0xF8
def F.LE_SUP_T_TAG : Fld := ⟨0, 32⟩
def R.LC_SW_CTRL (c : Nat) : Nat := R.clusterBase c + 0x40
def F.LC_SW_CTRL_SLOT : Fld := ⟨0, 5⟩
def F.LC_SW_CTRL_START : Fld := ⟨5, 1⟩
def F.LC_SW_CTRL_ABORT : Fld := ⟨6, 1⟩
def R.LC_SW_CFG (c : Nat) : Nat := R.clusterBase c + 0x44
def F.LC_SW_CFG_TYPE : Fld := ⟨0, 2⟩
def F.LC_SW_CFG_POINT : Fld := ⟨2, 1⟩
def F.LC_SW_CFG_ORDER : Fld := ⟨3, 4⟩
def F.LC_SW_CFG_ABORT_ON_LIMIT : Fld := ⟨7, 1⟩
def F.LC_SW_CFG_FE_MASK : Fld := ⟨8, 1⟩
def F.LC_SW_CFG_RING : Fld := ⟨9, 3⟩
def R.LC_SW_AMP (c : Nat) : Nat := R.clusterBase c + 0x48
def F.LC_SW_AMP_VALUE : Fld := ⟨0, 32⟩
def R.LC_SW_OUT_HI (c : Nat) : Nat := R.clusterBase c + 0x4C
def F.LC_SW_OUT_HI_VALUE : Fld := ⟨0, 32⟩
def R.LC_SW_OUT_LO (c : Nat) : Nat := R.clusterBase c + 0x50
def F.LC_SW_OUT_LO_VALUE : Fld := ⟨0, 32⟩
def R.LC_SW_PRE (c : Nat) : Nat := R.clusterBase c + 0x54
def F.LC_SW_PRE_SAMPLES : Fld := ⟨0, 24⟩
def R.LC_SW_LEN (c : Nat) : Nat := R.clusterBase c + 0x58
def F.LC_SW_LEN_SAMPLES : Fld := ⟨0, 24⟩
def R.LC_SW_POST (c : Nat) : Nat := R.clusterBase c + 0x5C
def F.LC_SW_POST_SAMPLES : Fld := ⟨0, 24⟩
def R.LC_SW_HOLD (c : Nat) : Nat := R.clusterBase c + 0x60
def F.LC_SW_HOLD_SAMPLES : Fld := ⟨0, 16⟩
def R.LC_SW_F0 (c : Nat) : Nat := R.clusterBase c + 0x64
def F.LC_SW_F0_HZ : Fld := ⟨0, 32⟩
def R.LC_SW_F1 (c : Nat) : Nat := R.clusterBase c + 0x68
def F.LC_SW_F1_HZ : Fld := ⟨0, 32⟩
def R.LC_SW_SEED (c : Nat) : Nat := R.clusterBase c + 0x6C
def F.LC_SW_SEED_SEED : Fld := ⟨0, 15⟩
def R.LC_SW_STAT (c : Nat) : Nat := R.clusterBase c + 0x70
def F.LC_SW_STAT_STATE : Fld := ⟨0, 3⟩
def F.LC_SW_STAT_LIMITED : Fld := ⟨3, 1⟩
def F.LC_SW_STAT_CAUSE : Fld := ⟨4, 4⟩
def R.LC_SW_CNT (c : Nat) : Nat := R.clusterBase c + 0x74
def F.LC_SW_CNT_SAMPLES : Fld := ⟨0, 24⟩
def R.LC_SW_T0 (c : Nat) : Nat := R.clusterBase c + 0x78
def F.LC_SW_T0_TAG : Fld := ⟨0, 32⟩

-- registers of 05_step_sequencer.md
def R.SQ_CFG (l : Nat) : Nat := (0x10000 + 0x1000 * l) + 0x0
def F.SQ_CFG_CHAMBER : Fld := ⟨0, 4⟩
def F.SQ_CFG_USED : Fld := ⟨4, 1⟩
def F.SQ_CFG_HG_ABORT : Fld := ⟨5, 1⟩
def R.SQ_STATE (l : Nat) : Nat := (0x10000 + 0x1000 * l) + 0x4
def F.SQ_STATE_STATE : Fld := ⟨0, 3⟩
def F.SQ_STATE_IN_ABORT : Fld := ⟨3, 1⟩
def F.SQ_STATE_PEND : Fld := ⟨4, 1⟩
def F.SQ_STATE_ABORTED : Fld := ⟨5, 1⟩
def F.SQ_STATE_HOLD_CAUSE : Fld := ⟨8, 5⟩
def R.SQ_POS (l : Nat) : Nat := (0x10000 + 0x1000 * l) + 0x8
def F.SQ_POS_RECIPE : Fld := ⟨0, 8⟩
def F.SQ_POS_STEP : Fld := ⟨8, 12⟩
def F.SQ_POS_LAST_EXIT : Fld := ⟨20, 2⟩
def R.SQ_TIMER (l : Nat) : Nat := (0x10000 + 0x1000 * l) + 0xC
def F.SQ_TIMER_CYCLES : Fld := ⟨0, 32⟩
def R.SQ_SEQ (l : Nat) : Nat := (0x10000 + 0x1000 * l) + 0x10
def F.SQ_SEQ_COUNT : Fld := ⟨0, 32⟩
def R.SQ_CMD (l : Nat) : Nat := (0x10000 + 0x1000 * l) + 0x14
def F.SQ_CMD_CODE : Fld := ⟨0, 3⟩
def R.SQ_CMD_ARG (l : Nat) : Nat := (0x10000 + 0x1000 * l) + 0x18
def F.SQ_CMD_ARG_ARG : Fld := ⟨0, 32⟩
def R.SQ_STAT (l : Nat) : Nat := (0x10000 + 0x1000 * l) + 0x1C
def F.SQ_STAT_MISS : Fld := ⟨0, 1⟩
def F.SQ_STAT_CMD_REJ : Fld := ⟨1, 1⟩
def F.SQ_STAT_DEFER : Fld := ⟨2, 1⟩
def F.SQ_STAT_ACT_SUPP : Fld := ⟨3, 1⟩
def F.SQ_STAT_BAD_VALUE : Fld := ⟨4, 1⟩
def F.SQ_STAT_EDIT_FROG : Fld := ⟨5, 1⟩
def R.SQ_REJ (l : Nat) : Nat := (0x10000 + 0x1000 * l) + 0x20
def F.SQ_REJ_CODE : Fld := ⟨0, 3⟩
def F.SQ_REJ_WHY : Fld := ⟨4, 3⟩
def R.SQ_RC (l i : Nat) : Nat := (0x10000 + 0x1000 * l) + 0x24 + 4 * i
def F.SQ_RC_COUNT : Fld := ⟨0, 32⟩
def R.SQ_MISS_CNT (l : Nat) : Nat := (0x10000 + 0x1000 * l) + 0x34
def F.SQ_MISS_CNT_COUNT : Fld := ⟨0, 32⟩
def R.SQ_FROG_CNT (l : Nat) : Nat := (0x10000 + 0x1000 * l) + 0x38
def F.SQ_FROG_CNT_COUNT : Fld := ⟨0, 32⟩
def R.SQ_ACT_JRNL (l : Nat) : Nat := (0x10000 + 0x1000 * l) + 0x3C
def F.SQ_ACT_JRNL_SEQ : Fld := ⟨0, 32⟩
def R.SQ_STG (l i : Nat) : Nat := (0x10000 + 0x1000 * l) + 0x40 + 4 * i
def F.SQ_STG_STEP : Fld := ⟨0, 12⟩
def F.SQ_STG_PARENT : Fld := ⟨12, 4⟩
def F.SQ_STG_EXIT : Fld := ⟨16, 2⟩
def F.SQ_STG_STATE : Fld := ⟨18, 2⟩
def F.SQ_STG_DEPTH : Fld := ⟨20, 4⟩
def R.SQ_EXV (l i : Nat) : Nat := (0x10000 + 0x1000 * l) + 0x60 + 4 * i
def F.SQ_EXV_VALUE : Fld := ⟨0, 32⟩
def R.SQ_DWL (l i : Nat) : Nat := (0x10000 + 0x1000 * l) + 0x70 + 4 * i
def F.SQ_DWL_COUNT : Fld := ⟨0, 24⟩
def R.SQ_LT (l i : Nat) : Nat := (0x10000 + 0x1000 * l) + 0x80 + 4 * i
def F.SQ_LT_CYCLES : Fld := ⟨0, 32⟩
def R.SQ_ABORT_ENT (l : Nat) : Nat := (0x10000 + 0x1000 * l) + 0xA0
def F.SQ_ABORT_ENT_STEP : Fld := ⟨0, 12⟩
def F.SQ_ABORT_ENT_READY : Fld := ⟨12, 1⟩
def F.SQ_ABORT_ENT_HELD : Fld := ⟨13, 1⟩

-- registers of 06_net_engine.md
def R.NE_ID (r : Nat) : Nat := (R.regionBase r + 0x40000) + 0x0
def F.NE_ID_ENGINE : Fld := ⟨0, 4⟩
def R.NE_CFG (r : Nat) : Nat := (R.regionBase r + 0x40000) + 0x4
def F.NE_CFG_NNODES : Fld := ⟨0, 14⟩
def R.NE_STAT (r : Nat) : Nat := (R.regionBase r + 0x40000) + 0x8
def F.NE_STAT_SAT : Fld := ⟨0, 1⟩
def F.NE_STAT_DIVZ : Fld := ⟨1, 1⟩
def F.NE_STAT_INVALID : Fld := ⟨2, 1⟩
def F.NE_STAT_RES_RETRY : Fld := ⟨3, 1⟩
def F.NE_STAT_BUSY : Fld := ⟨4, 1⟩
def R.NE_LAST_NODE (r : Nat) : Nat := (R.regionBase r + 0x40000) + 0xC
def F.NE_LAST_NODE_NODE : Fld := ⟨0, 13⟩
def F.NE_LAST_NODE_TASK : Fld := ⟨16, 8⟩
def R.NE_RES_RETRY_CNT (r : Nat) : Nat := (R.regionBase r + 0x40000) + 0x10
def F.NE_RES_RETRY_CNT_COUNT : Fld := ⟨0, 32⟩
def R.NE_STALL_CNT (r : Nat) : Nat := (R.regionBase r + 0x40000) + 0x14
def F.NE_STALL_CNT_COUNT : Fld := ⟨0, 32⟩
def R.NE_BUSY (r : Nat) : Nat := (R.regionBase r + 0x40000) + 0x18
def F.NE_BUSY_CYCLES : Fld := ⟨0, 20⟩
def R.NE_BUSY_MAX (r : Nat) : Nat := (R.regionBase r + 0x40000) + 0x1C
def F.NE_BUSY_MAX_CYCLES : Fld := ⟨0, 20⟩
def F.NE_BUSY_MAX_CLR : Fld := ⟨31, 1⟩
def R.NE_CHK_POS (r : Nat) : Nat := (R.regionBase r + 0x40000) + 0x20
def F.NE_CHK_POS_AREA : Fld := ⟨0, 7⟩
def F.NE_CHK_POS_PASSES : Fld := ⟨8, 24⟩
def R.NE_CONST_CRC (r : Nat) : Nat := (R.regionBase r + 0x40000) + 0x24
def F.NE_CONST_CRC_CRC : Fld := ⟨0, 32⟩
def R.NE_CHK_RETRY_CNT (r : Nat) : Nat := (R.regionBase r + 0x40000) + 0x28
def F.NE_CHK_RETRY_CNT_COUNT : Fld := ⟨0, 32⟩
def R.NE_BLK_CRC (r i : Nat) : Nat := (R.regionBase r + 0x40000) + 0x100 + 4 * i
def F.NE_BLK_CRC_CRC : Fld := ⟨0, 32⟩

-- registers of 07_tasks_modes.md
def R.TK_RS_STAT (r : Nat) : Nat := R.regionBase r + 0x60000
def F.TK_RS_STAT_WDOG : Fld := ⟨0, 1⟩
def F.TK_RS_STAT_LOST : Fld := ⟨1, 1⟩
def F.TK_RS_STAT_LAST_TASK : Fld := ⟨8, 8⟩
def R.TK_FLAGS_LO (r : Nat) : Nat := R.regionBase r + 0x60004
def F.TK_FLAGS_LO_FLAGS : Fld := ⟨0, 32⟩
def R.TK_FLAGS_HI (r : Nat) : Nat := R.regionBase r + 0x60008
def F.TK_FLAGS_HI_FLAGS : Fld := ⟨0, 32⟩
def R.TK_CONSUME_LO (r : Nat) : Nat := R.regionBase r + 0x6000C
def F.TK_CONSUME_LO_CONSUME : Fld := ⟨0, 32⟩
def R.TK_CONSUME_HI (r : Nat) : Nat := R.regionBase r + 0x60010
def F.TK_CONSUME_HI_CONSUME : Fld := ⟨0, 32⟩
def R.TK_CFG (r t : Nat) : Nat := (R.regionBase r + 0x61000 + 32 * t) + 0x0
def F.TK_CFG_USED : Fld := ⟨0, 1⟩
def F.TK_CFG_KIND : Fld := ⟨1, 1⟩
def F.TK_CFG_INPHASE : Fld := ⟨2, 1⟩
def F.TK_CFG_ALL : Fld := ⟨3, 1⟩
def F.TK_CFG_PRIO : Fld := ⟨4, 4⟩
def F.TK_CFG_ENTRY : Fld := ⟨8, 13⟩
def F.TK_CFG_OFFS : Fld := ⟨21, 8⟩
def R.TK_TIME (r t : Nat) : Nat := (R.regionBase r + 0x61000 + 32 * t) + 0x4
def F.TK_TIME_K : Fld := ⟨0, 16⟩
def F.TK_TIME_PH : Fld := ⟨16, 16⟩
def R.TK_MASK_LO (r t : Nat) : Nat := (R.regionBase r + 0x61000 + 32 * t) + 0x8
def F.TK_MASK_LO_MASK : Fld := ⟨0, 32⟩
def R.TK_MASK_HI (r t : Nat) : Nat := (R.regionBase r + 0x61000 + 32 * t) + 0xC
def F.TK_MASK_HI_MASK : Fld := ⟨0, 32⟩
def R.TK_STATE (r t : Nat) : Nat := (R.regionBase r + 0x61000 + 32 * t) + 0x10
def F.TK_STATE_STATE : Fld := ⟨0, 3⟩
def F.TK_STATE_PEND : Fld := ⟨3, 1⟩
def R.TK_RUNS (r t : Nat) : Nat := (R.regionBase r + 0x61000 + 32 * t) + 0x14
def F.TK_RUNS_COUNT : Fld := ⟨0, 32⟩
def R.TK_LOST (r t : Nat) : Nat := (R.regionBase r + 0x61000 + 32 * t) + 0x18
def F.TK_LOST_COUNT : Fld := ⟨0, 32⟩
def R.TK_EXEC_MAX (r t : Nat) : Nat := (R.regionBase r + 0x61000 + 32 * t) + 0x1C
def F.TK_EXEC_MAX_NS : Fld := ⟨0, 31⟩
def F.TK_EXEC_MAX_CLR : Fld := ⟨31, 1⟩
def R.TK_CTL : Nat := 0x40000
def F.TK_CTL_MODE : Fld := ⟨0, 2⟩
def F.TK_CTL_STOPPED : Fld := ⟨2, 1⟩
def F.TK_CTL_CAUSE : Fld := ⟨4, 5⟩
def F.TK_CTL_RLD_CAUSE : Fld := ⟨12, 4⟩
def R.TK_CTL_CMD : Nat := 0x40004
def F.TK_CTL_CMD_CODE : Fld := ⟨0, 2⟩
def F.TK_CTL_CMD_BANK : Fld := ⟨2, 1⟩
def R.TK_KEY : Nat := 0x40008
def F.TK_KEY_PINS : Fld := ⟨0, 2⟩
def F.TK_KEY_KEY : Fld := ⟨2, 2⟩
def F.TK_KEY_PAIR_DIFF : Fld := ⟨4, 1⟩
def R.TK_WDOG : Nat := 0x4000C
def F.TK_WDOG_TASK : Fld := ⟨0, 8⟩
def F.TK_WDOG_REGION : Fld := ⟨8, 4⟩
def F.TK_WDOG_BACKGROUND : Fld := ⟨12, 1⟩
def R.TK_WDOG_SEQ : Nat := 0x40010
def F.TK_WDOG_SEQ_SEQ : Fld := ⟨0, 32⟩
def R.TK_TASK_CMD : Nat := 0x40014
def F.TK_TASK_CMD_TASK : Fld := ⟨0, 8⟩
def F.TK_TASK_CMD_REGION : Fld := ⟨8, 4⟩
def F.TK_TASK_CMD_CODE : Fld := ⟨12, 2⟩
def R.TK_HUB_STAT : Nat := 0x40018
def F.TK_HUB_STAT_QFULL : Fld := ⟨0, 1⟩
def F.TK_HUB_STAT_KILL : Fld := ⟨1, 1⟩
def F.TK_HUB_STAT_QLEN : Fld := ⟨16, 13⟩
def R.TK_HUB_DROP : Nat := 0x4001C
def F.TK_HUB_DROP_COUNT : Fld := ⟨0, 32⟩
def R.FL_CFG (f : Nat) : Nat := (0x44000 + 16 * f) + 0x0
def F.FL_CFG_USED : Fld := ⟨0, 1⟩
def F.FL_CFG_REGION : Fld := ⟨1, 4⟩
def F.FL_CFG_FLAG : Fld := ⟨5, 6⟩
def F.FL_CFG_MBOX : Fld := ⟨11, 13⟩
def F.FL_CFG_WAIT_EN : Fld := ⟨24, 1⟩
def F.FL_CFG_WAIT_FLAG : Fld := ⟨25, 6⟩
def R.FL_TO (f : Nat) : Nat := (0x44000 + 16 * f) + 0x4
def F.FL_TO_NS : Fld := ⟨0, 32⟩
def R.FL_HOLD (f : Nat) : Nat := (0x44000 + 16 * f) + 0x8
def F.FL_HOLD_HOLD_MAX : Fld := ⟨0, 16⟩
def R.FL_STAT (f : Nat) : Nat := (0x44000 + 16 * f) + 0xC
def F.FL_STAT_STATE : Fld := ⟨0, 2⟩
def F.FL_STAT_HOLDER : Fld := ⟨2, 8⟩
def F.FL_STAT_QUEUED : Fld := ⟨10, 13⟩
def R.TK_FRC_CMD : Nat := 0x40100
def F.TK_FRC_CMD_CODE : Fld := ⟨0, 2⟩
def F.TK_FRC_CMD_INDEX : Fld := ⟨4, 12⟩
def R.TK_FRC_REF : Nat := 0x40104
def F.TK_FRC_REF_REF : Fld := ⟨0, 20⟩
def R.TK_FRC_MASK : Nat := 0x40108
def F.TK_FRC_MASK_MASK : Fld := ⟨0, 32⟩
def R.TK_FRC_VAL : Nat := 0x4010C
def F.TK_FRC_VAL_VALUE : Fld := ⟨0, 32⟩
def R.TK_FRC_STAT : Nat := 0x40110
def F.TK_FRC_STAT_BUSY : Fld := ⟨0, 1⟩
def F.TK_FRC_STAT_CAUSE : Fld := ⟨1, 3⟩
def F.TK_FRC_STAT_COUNT : Fld := ⟨4, 13⟩
def R.TK_FRC_PERM_LO (i : Nat) : Nat := 0x40400 + 8 * i
def F.TK_FRC_PERM_LO_REF : Fld := ⟨0, 20⟩
def R.TK_FRC_PERM_HI (i : Nat) : Nat := 0x40404 + 8 * i
def F.TK_FRC_PERM_HI_REF : Fld := ⟨0, 20⟩
def R.TK_OLC_CTRL : Nat := 0x40200
def F.TK_OLC_CTRL_COUNT : Fld := ⟨0, 9⟩
def F.TK_OLC_CTRL_APPLY : Fld := ⟨9, 1⟩
def R.TK_OLC_STAT : Nat := 0x40204
def F.TK_OLC_STAT_BUSY : Fld := ⟨0, 1⟩
def F.TK_OLC_STAT_DONE : Fld := ⟨1, 1⟩
def F.TK_OLC_STAT_CAUSE : Fld := ⟨4, 4⟩
def F.TK_OLC_STAT_INDEX : Fld := ⟨8, 8⟩
def R.TK_OLC_SEQ : Nat := 0x40208
def F.TK_OLC_SEQ_SEQ : Fld := ⟨0, 32⟩
def R.TK_OLC_BUF (i : Nat) : Nat := 0x41000 + 4 * i
def F.TK_OLC_BUF_DATA : Fld := ⟨0, 32⟩

-- registers of 08_motion.md
def R.AX_CFG (a : Nat) : Nat := R.axisBase a + 0x0
def F.AX_CFG_USED : Fld := ⟨0, 1⟩
def F.AX_CFG_OUT : Fld := ⟨1, 2⟩
def F.AX_CFG_FMT : Fld := ⟨3, 2⟩
def F.AX_CFG_HG_ACT : Fld := ⟨5, 1⟩
def F.AX_CFG_STALL_ACT : Fld := ⟨6, 2⟩
def F.AX_CFG_GROUP : Fld := ⟨8, 2⟩
def F.AX_CFG_OWNER : Fld := ⟨10, 1⟩
def R.AX_OUT_REF (a : Nat) : Nat := R.axisBase a + 0x4
def F.AX_OUT_REF_REF : Fld := ⟨0, 20⟩
def R.AX_LIM_NEG_LO (a : Nat) : Nat := R.axisBase a + 0x8
def F.AX_LIM_NEG_LO_VALUE : Fld := ⟨0, 32⟩
def R.AX_LIM_NEG_HI (a : Nat) : Nat := R.axisBase a + 0xC
def F.AX_LIM_NEG_HI_VALUE : Fld := ⟨0, 32⟩
def R.AX_LIM_POS_LO (a : Nat) : Nat := R.axisBase a + 0x10
def F.AX_LIM_POS_LO_VALUE : Fld := ⟨0, 32⟩
def R.AX_LIM_POS_HI (a : Nat) : Nat := R.axisBase a + 0x14
def F.AX_LIM_POS_HI_VALUE : Fld := ⟨0, 32⟩
def R.AX_TGT_LO (a : Nat) : Nat := R.axisBase a + 0x18
def F.AX_TGT_LO_VALUE : Fld := ⟨0, 32⟩
def R.AX_TGT_HI (a : Nat) : Nat := R.axisBase a + 0x1C
def F.AX_TGT_HI_VALUE : Fld := ⟨0, 32⟩
def R.AX_VMAX (a : Nat) : Nat := R.axisBase a + 0x20
def F.AX_VMAX_VALUE : Fld := ⟨0, 32⟩
def R.AX_AMAX (a : Nat) : Nat := R.axisBase a + 0x24
def F.AX_AMAX_VALUE : Fld := ⟨0, 32⟩
def R.AX_DMAX (a : Nat) : Nat := R.axisBase a + 0x28
def F.AX_DMAX_VALUE : Fld := ⟨0, 32⟩
def R.AX_JMAX (a : Nat) : Nat := R.axisBase a + 0x2C
def F.AX_JMAX_VALUE : Fld := ⟨0, 32⟩
def R.AX_DSTOP (a : Nat) : Nat := R.axisBase a + 0x30
def F.AX_DSTOP_VALUE : Fld := ⟨0, 32⟩
def R.AX_MOVE_REQ (a : Nat) : Nat := R.axisBase a + 0x34
def F.AX_MOVE_REQ_ID : Fld := ⟨0, 16⟩
def F.AX_MOVE_REQ_REL : Fld := ⟨16, 1⟩
def R.AX_CMD (a : Nat) : Nat := R.axisBase a + 0x38
def F.AX_CMD_CODE : Fld := ⟨0, 3⟩
def R.AX_CMD_ARG_LO (a : Nat) : Nat := R.axisBase a + 0x3C
def F.AX_CMD_ARG_LO_VALUE : Fld := ⟨0, 32⟩
def R.AX_CMD_ARG_HI (a : Nat) : Nat := R.axisBase a + 0x40
def F.AX_CMD_ARG_HI_VALUE : Fld := ⟨0, 32⟩
def R.AX_STATE (a : Nat) : Nat := R.axisBase a + 0x44
def F.AX_STATE_STATE : Fld := ⟨0, 3⟩
def F.AX_STATE_DONE : Fld := ⟨3, 1⟩
def F.AX_STATE_REMAIN : Fld := ⟨4, 1⟩
def F.AX_STATE_CAUSE : Fld := ⟨8, 4⟩
def R.AX_POS_LO (a : Nat) : Nat := R.axisBase a + 0x48
def F.AX_POS_LO_VALUE : Fld := ⟨0, 32⟩
def R.AX_POS_HI (a : Nat) : Nat := R.axisBase a + 0x4C
def F.AX_POS_HI_VALUE : Fld := ⟨0, 32⟩
def R.AX_VEL (a : Nat) : Nat := R.axisBase a + 0x50
def F.AX_VEL_VALUE : Fld := ⟨0, 32⟩
def R.AX_ACC (a : Nat) : Nat := R.axisBase a + 0x54
def F.AX_ACC_VALUE : Fld := ⟨0, 32⟩
def R.AX_MOVE_CNT (a : Nat) : Nat := R.axisBase a + 0x58
def F.AX_MOVE_CNT_COUNT : Fld := ⟨0, 32⟩
def R.AX_REMAIN_LO (a : Nat) : Nat := R.axisBase a + 0x5C
def F.AX_REMAIN_LO_VALUE : Fld := ⟨0, 32⟩
def R.AX_REMAIN_HI (a : Nat) : Nat := R.axisBase a + 0x60
def F.AX_REMAIN_HI_VALUE : Fld := ⟨0, 32⟩
def R.AX_OVERSHOOT_LO (a : Nat) : Nat := R.axisBase a + 0x64
def F.AX_OVERSHOOT_LO_VALUE : Fld := ⟨0, 32⟩
def R.AX_OVERSHOOT_HI (a : Nat) : Nat := R.axisBase a + 0x68
def F.AX_OVERSHOOT_HI_VALUE : Fld := ⟨0, 32⟩
def R.AX_STAT (a : Nat) : Nat := R.axisBase a + 0x6C
def F.AX_STAT_REJ_LIMIT : Fld := ⟨0, 1⟩
def F.AX_STAT_REJ_CAUSE : Fld := ⟨1, 1⟩
def F.AX_STAT_REJ_PARAM : Fld := ⟨2, 1⟩
def F.AX_STAT_LATCHED : Fld := ⟨3, 1⟩
def F.AX_STAT_CMD_REJ : Fld := ⟨4, 1⟩
def F.AX_STAT_STALL : Fld := ⟨5, 1⟩
def F.AX_STAT_POS_LOST : Fld := ⟨6, 1⟩
def R.AX_USE_VMAX (a : Nat) : Nat := R.axisBase a + 0x70
def F.AX_USE_VMAX_VALUE : Fld := ⟨0, 32⟩
def R.AX_USE_AMAX (a : Nat) : Nat := R.axisBase a + 0x74
def F.AX_USE_AMAX_VALUE : Fld := ⟨0, 32⟩
def R.AX_USE_DMAX (a : Nat) : Nat := R.axisBase a + 0x78
def F.AX_USE_DMAX_VALUE : Fld := ⟨0, 32⟩
def R.AX_USE_JMAX (a : Nat) : Nat := R.axisBase a + 0x7C
def F.AX_USE_JMAX_VALUE : Fld := ⟨0, 32⟩
def R.AX_ST_CFG (a : Nat) : Nat := R.axisBase a + 0x80
def F.AX_ST_CFG_DECAY : Fld := ⟨0, 2⟩
def F.AX_ST_CFG_MIX : Fld := ⟨8, 8⟩
def R.AX_ST_TOFF (a : Nat) : Nat := R.axisBase a + 0x84
def F.AX_ST_TOFF_NS : Fld := ⟨0, 16⟩
def R.AX_ST_IBASE (a : Nat) : Nat := R.axisBase a + 0x88
def F.AX_ST_IBASE_VALUE : Fld := ⟨0, 32⟩
def R.AX_ST_IBOOST (a : Nat) : Nat := R.axisBase a + 0x8C
def F.AX_ST_IBOOST_VALUE : Fld := ⟨0, 32⟩
def R.AX_ST_IHOLD (a : Nat) : Nat := R.axisBase a + 0x90
def F.AX_ST_IHOLD_VALUE : Fld := ⟨0, 32⟩
def R.AX_ST_FSGAIN (a : Nat) : Nat := R.axisBase a + 0x94
def F.AX_ST_FSGAIN_GAIN : Fld := ⟨0, 16⟩
def R.AX_ST_LA_MIN (a : Nat) : Nat := R.axisBase a + 0x98
def F.AX_ST_LA_MIN_VALUE : Fld := ⟨0, 32⟩
def R.AX_ST_LA_MAX (a : Nat) : Nat := R.axisBase a + 0x9C
def F.AX_ST_LA_MAX_VALUE : Fld := ⟨0, 32⟩
def R.AX_ST_LA_ALPHA (a : Nat) : Nat := R.axisBase a + 0xA0
def F.AX_ST_LA_ALPHA_VALUE : Fld := ⟨0, 32⟩
def R.AX_ST_STALL_ANGLE (a : Nat) : Nat := R.axisBase a + 0xA4
def F.AX_ST_STALL_ANGLE_VALUE : Fld := ⟨0, 32⟩
def R.AX_ST_STALL_TIME (a : Nat) : Nat := R.axisBase a + 0xA8
def F.AX_ST_STALL_TIME_US : Fld := ⟨0, 24⟩
def R.AX_ST_IRATE (a : Nat) : Nat := R.axisBase a + 0xAC
def F.AX_ST_IRATE_VALUE : Fld := ⟨0, 32⟩
def R.AX_ST_HOLD_DELAY (a : Nat) : Nat := R.axisBase a + 0xB0
def F.AX_ST_HOLD_DELAY_MS : Fld := ⟨0, 16⟩
def R.AX_ST_ASCALE (a : Nat) : Nat := R.axisBase a + 0xB4
def F.AX_ST_ASCALE_VALUE : Fld := ⟨0, 32⟩
def R.AX_ST_VTH (a i : Nat) : Nat := R.axisBase a + 0xC0 + 4 * i
def F.AX_ST_VTH_VALUE : Fld := ⟨0, 32⟩
def R.AX_ST_STAT (a : Nat) : Nat := R.axisBase a + 0xE0
def F.AX_ST_STAT_LEVEL : Fld := ⟨0, 4⟩
def F.AX_ST_STAT_TARGET : Fld := ⟨4, 4⟩
def F.AX_ST_STAT_BOOST_MAX : Fld := ⟨8, 1⟩
def F.AX_ST_STAT_STALL_RUN : Fld := ⟨9, 1⟩
def F.AX_ST_STAT_ACTIVE : Fld := ⟨10, 1⟩
def R.AX_ST_ICMD (a : Nat) : Nat := R.axisBase a + 0xE4
def F.AX_ST_ICMD_VALUE : Fld := ⟨0, 32⟩
def R.AX_ST_LOAD (a : Nat) : Nat := R.axisBase a + 0xE8
def F.AX_ST_LOAD_VALUE : Fld := ⟨0, 32⟩
def R.AX_ST_ANGLE (a : Nat) : Nat := R.axisBase a + 0xEC
def F.AX_ST_ANGLE_ANGLE : Fld := ⟨0, 10⟩

-- registers of 09_pwm.md
def R.PW_CFG (p : Nat) : Nat := R.pairBase p + 0x0
def F.PW_CFG_USED : Fld := ⟨0, 1⟩
def F.PW_CFG_MODE : Fld := ⟨1, 2⟩
def F.PW_CFG_RELOAD : Fld := ⟨3, 2⟩
def F.PW_CFG_AUTO_COMMIT : Fld := ⟨5, 1⟩
def F.PW_CFG_DUTY_FRAC : Fld := ⟨6, 1⟩
def F.PW_CFG_MINPULSE : Fld := ⟨7, 1⟩
def F.PW_CFG_SYNC : Fld := ⟨8, 2⟩
def F.PW_CFG_SYNC_SRC : Fld := ⟨10, 4⟩
def F.PW_CFG_TERM_EN : Fld := ⟨14, 1⟩
def F.PW_CFG_POL_H : Fld := ⟨15, 1⟩
def F.PW_CFG_POL_L : Fld := ⟨16, 1⟩
def F.PW_CFG_FALLOW : Fld := ⟨17, 2⟩
def F.PW_CFG_OWNER : Fld := ⟨19, 1⟩
def R.PW_PER (p : Nat) : Nat := R.pairBase p + 0x4
def F.PW_PER_TICKS : Fld := ⟨0, 29⟩
def R.PW_DUTY (p : Nat) : Nat := R.pairBase p + 0x8
def F.PW_DUTY_VALUE : Fld := ⟨0, 32⟩
def R.PW_TOFF (p : Nat) : Nat := R.pairBase p + 0xC
def F.PW_TOFF_TICKS : Fld := ⟨0, 29⟩
def R.PW_PHASE (p : Nat) : Nat := R.pairBase p + 0x10
def F.PW_PHASE_TICKS : Fld := ⟨0, 29⟩
def R.PW_COMMIT (p : Nat) : Nat := R.pairBase p + 0x14
def F.PW_COMMIT_COMMIT : Fld := ⟨0, 1⟩
def R.PW_DT (p : Nat) : Nat := R.pairBase p + 0x18
def F.PW_DT_DT_MIN : Fld := ⟨0, 16⟩
def F.PW_DT_DT_MAX : Fld := ⟨16, 16⟩
def R.PW_GUARD (p : Nat) : Nat := R.pairBase p + 0x1C
def F.PW_GUARD_GUARD : Fld := ⟨0, 6⟩
def R.PW_PWMIN (p : Nat) : Nat := R.pairBase p + 0x20
def F.PW_PWMIN_TICKS : Fld := ⟨0, 16⟩
def R.PW_ACT_PER (p : Nat) : Nat := R.pairBase p + 0x24
def F.PW_ACT_PER_TICKS : Fld := ⟨0, 29⟩
def R.PW_ACT_DUTY (p : Nat) : Nat := R.pairBase p + 0x28
def F.PW_ACT_DUTY_TICKS : Fld := ⟨0, 29⟩
def R.PW_DT_RISE (p : Nat) : Nat := R.pairBase p + 0x2C
def F.PW_DT_RISE_TICKS : Fld := ⟨0, 16⟩
def R.PW_DT_FALL (p : Nat) : Nat := R.pairBase p + 0x30
def F.PW_DT_FALL_TICKS : Fld := ⟨0, 16⟩
def R.PW_STAT (p : Nat) : Nat := R.pairBase p + 0x34
def F.PW_STAT_NOCOMM : Fld := ⟨0, 1⟩
def F.PW_STAT_DUTY_CLAMP : Fld := ⟨1, 1⟩
def F.PW_STAT_COMMIT_REJ : Fld := ⟨2, 1⟩
def F.PW_STAT_REJ_CAUSE : Fld := ⟨3, 3⟩
def F.PW_STAT_MINPULSE : Fld := ⟨6, 1⟩
def F.PW_STAT_PENDING : Fld := ⟨7, 1⟩
def F.PW_STAT_FORCED : Fld := ⟨8, 1⟩
def F.PW_STAT_NOT_OWNER : Fld := ⟨9, 1⟩
def F.PW_STAT_STEPPER : Fld := ⟨10, 1⟩
def R.PW_MINPULSE_CNT (p : Nat) : Nat := R.pairBase p + 0x38
def F.PW_MINPULSE_CNT_COUNT : Fld := ⟨0, 32⟩
def R.PW_NOCOMM_CNT (p : Nat) : Nat := R.pairBase p + 0x3C
def F.PW_NOCOMM_CNT_COUNT : Fld := ⟨0, 32⟩
def R.PW_RELOAD_T (p : Nat) : Nat := R.pairBase p + 0x40
def F.PW_RELOAD_T_TAG : Fld := ⟨0, 32⟩
def R.PW_GCOMMIT (r : Nat) : Nat := R.regionBase r + 0x30C00
def F.PW_GCOMMIT_MASK : Fld := ⟨0, 12⟩
def R.PW_DL_STAT (r : Nat) : Nat := R.regionBase r + 0x30C04
def F.PW_DL_STAT_SPAN : Fld := ⟨0, 6⟩
def F.PW_DL_STAT_CAL_FAIL : Fld := ⟨6, 1⟩
def F.PW_DL_STAT_DL_JUMP : Fld := ⟨7, 1⟩
def F.PW_DL_STAT_RETIRED : Fld := ⟨8, 4⟩
def R.PW_DL_SWAPS (r : Nat) : Nat := R.regionBase r + 0x30C08
def F.PW_DL_SWAPS_COUNT : Fld := ⟨0, 32⟩
def R.PW_TRIP_CFG (r i : Nat) : Nat := R.regionBase r + 0x30C10 + 4 * i
def F.PW_TRIP_CFG_N : Fld := ⟨0, 8⟩
def F.PW_TRIP_CFG_RATE : Fld := ⟨8, 2⟩
def F.PW_TRIP_CFG_POL : Fld := ⟨10, 1⟩
def R.PW_TRIP_STAT (r : Nat) : Nat := R.regionBase r + 0x30C1C
def F.PW_TRIP_STAT_RAW : Fld := ⟨0, 3⟩
def F.PW_TRIP_STAT_FILT : Fld := ⟨4, 3⟩
def F.PW_TRIP_STAT_SEEN : Fld := ⟨8, 3⟩
def R.SD_CFG (p : Nat) : Nat := R.sdiBase p + 0x0
def F.SD_CFG_USED : Fld := ⟨0, 1⟩
def F.SD_CFG_EDGE : Fld := ⟨1, 1⟩
def F.SD_CFG_MAIN_OSR : Fld := ⟨2, 9⟩
def F.SD_CFG_FAST_OSR : Fld := ⟨11, 6⟩
def F.SD_CFG_ABS : Fld := ⟨17, 1⟩
def R.SD_MAIN (p : Nat) : Nat := R.sdiBase p + 0x4
def F.SD_MAIN_VALUE : Fld := ⟨0, 32⟩
def R.SD_FAST (p : Nat) : Nat := R.sdiBase p + 0x8
def F.SD_FAST_VALUE : Fld := ⟨0, 32⟩
def R.SD_THR_HI (p : Nat) : Nat := R.sdiBase p + 0xC
def F.SD_THR_HI_VALUE : Fld := ⟨0, 16⟩
def R.SD_THR_LO (p : Nat) : Nat := R.sdiBase p + 0x10
def F.SD_THR_LO_VALUE : Fld := ⟨0, 16⟩
def R.SD_HYST (p : Nat) : Nat := R.sdiBase p + 0x14
def F.SD_HYST_VALUE : Fld := ⟨0, 16⟩
def R.SD_STAT (p : Nat) : Nat := R.sdiBase p + 0x18
def F.SD_STAT_CMP_HI : Fld := ⟨0, 1⟩
def F.SD_STAT_CMP_LO : Fld := ⟨1, 1⟩
def F.SD_STAT_CLK_FAULT : Fld := ⟨2, 1⟩
def F.SD_STAT_SAT : Fld := ⟨3, 1⟩
def F.SD_STAT_HI_SEEN : Fld := ⟨4, 1⟩
def F.SD_STAT_LO_SEEN : Fld := ⟨5, 1⟩
def F.SD_STAT_AGE_MAIN : Fld := ⟨8, 8⟩
def F.SD_STAT_AGE_FAST : Fld := ⟨16, 8⟩
def R.SD_MAIN_T (p : Nat) : Nat := R.sdiBase p + 0x1C
def F.SD_MAIN_T_TAG : Fld := ⟨0, 32⟩
def R.SD_CNT (p : Nat) : Nat := R.sdiBase p + 0x20
def F.SD_CNT_COUNT : Fld := ⟨0, 32⟩
def R.SD_GRP_CFG (g : Nat) : Nat := (R.regionBase (g / 3) + 8 * (g % 3)) + 0x31400
def F.SD_GRP_CFG_FNOM : Fld := ⟨0, 15⟩
def R.SD_GRP_STAT (g : Nat) : Nat := (R.regionBase (g / 3) + 8 * (g % 3)) + 0x31404
def F.SD_GRP_STAT_CLK_OK : Fld := ⟨0, 1⟩
def F.SD_GRP_STAT_CLK_FAULT : Fld := ⟨1, 1⟩

-- registers of 10_hedgerow.md
def R.HG_CFG : Nat := 0x80000
def F.HG_CFG_NTERM : Fld := ⟨0, 12⟩
def R.HG_CMD : Nat := 0x80004
def F.HG_CMD_TERM : Fld := ⟨0, 11⟩
def F.HG_CMD_CODE : Fld := ⟨11, 2⟩
def R.HG_TRUE_CNT : Nat := 0x80008
def F.HG_TRUE_CNT_COUNT : Fld := ⟨0, 12⟩
def R.HG_LAST : Nat := 0x8000C
def F.HG_LAST_TERM : Fld := ⟨0, 11⟩
def R.HG_LAST_T : Nat := 0x80010
def F.HG_LAST_T_TAG : Fld := ⟨0, 32⟩
def R.HG_PATCH_CTRL : Nat := 0x80014
def F.HG_PATCH_CTRL_COUNT : Fld := ⟨0, 7⟩
def R.HG_PATCH_STAT : Nat := 0x80018
def F.HG_PATCH_STAT_PENDING : Fld := ⟨0, 1⟩
def F.HG_PATCH_STAT_DONE : Fld := ⟨1, 1⟩
def F.HG_PATCH_STAT_CAUSE : Fld := ⟨4, 3⟩
def F.HG_PATCH_STAT_INDEX : Fld := ⟨8, 6⟩
def R.HG_STATE (i : Nat) : Nat := 0x80100 + 4 * i
def F.HG_STATE_STATE : Fld := ⟨0, 32⟩
def R.HG_SEEN (i : Nat) : Nat := 0x80200 + 4 * i
def F.HG_SEEN_SEEN : Fld := ⟨0, 32⟩
def R.HG_PATCH_BUF (i : Nat) : Nat := 0x81000 + 4 * i
def F.HG_PATCH_BUF_DATA : Fld := ⟨0, 32⟩

-- registers of 11_recording.md
def R.RS_CFG : Nat := 0x60000
def F.RS_CFG_NSPEC : Fld := ⟨0, 16⟩
def R.RS_CTRL : Nat := 0x60004
def F.RS_CTRL_ENABLE : Fld := ⟨0, 8⟩
def F.RS_CTRL_FLUSH : Fld := ⟨8, 1⟩
def R.RS_FLUSH : Nat := 0x60008
def F.RS_FLUSH_MS : Fld := ⟨0, 10⟩
def R.RS_STAT : Nat := 0x6000C
def F.RS_STAT_GAP : Fld := ⟨0, 1⟩
def F.RS_STAT_RATE : Fld := ⟨1, 1⟩
def F.RS_STAT_SPEC_REJ : Fld := ⟨2, 1⟩
def R.RS_RATE : Nat := 0x60010
def F.RS_RATE_KBPS : Fld := ⟨0, 32⟩
def R.RS_RATE_MAX : Nat := 0x60014
def F.RS_RATE_MAX_KBPS : Fld := ⟨0, 31⟩
def F.RS_RATE_MAX_CLR : Fld := ⟨31, 1⟩
def R.RS_STAGE_MAX : Nat := 0x60018
def F.RS_STAGE_MAX_BYTES : Fld := ⟨0, 21⟩
def F.RS_STAGE_MAX_CLR : Fld := ⟨31, 1⟩
def R.RS_USER_MARK : Nat := 0x6001C
def F.RS_USER_MARK_ARG : Fld := ⟨0, 32⟩
def R.RS_SPEC_IDX : Nat := 0x60020
def F.RS_SPEC_IDX_INDEX : Fld := ⟨0, 16⟩
def R.RS_SPEC_D (i : Nat) : Nat := 0x60024 + 4 * i
def F.RS_SPEC_D_DATA : Fld := ⟨0, 32⟩
def R.RS_SPEC_CMD : Nat := 0x60034
def F.RS_SPEC_CMD_WRITE : Fld := ⟨0, 1⟩
def R.RS_S_CFG (s : Nat) : Nat := (0x60100 + 32 * s) + 0x0
def F.RS_S_CFG_SIZE_MIB : Fld := ⟨0, 13⟩
def F.RS_S_CFG_BASE_MIB : Fld := ⟨16, 13⟩
def R.RS_S_FILL (s : Nat) : Nat := (0x60100 + 32 * s) + 0x4
def F.RS_S_FILL_BLOCKS : Fld := ⟨0, 27⟩
def R.RS_S_FILL_MAX (s : Nat) : Nat := (0x60100 + 32 * s) + 0x8
def F.RS_S_FILL_MAX_BLOCKS : Fld := ⟨0, 27⟩
def F.RS_S_FILL_MAX_CLR : Fld := ⟨31, 1⟩
def R.RS_S_BSEQ (s : Nat) : Nat := (0x60100 + 32 * s) + 0xC
def F.RS_S_BSEQ_SEQ : Fld := ⟨0, 32⟩
def R.RS_S_LOST (s : Nat) : Nat := (0x60100 + 32 * s) + 0x10
def F.RS_S_LOST_COUNT : Fld := ⟨0, 32⟩
def R.RS_S_GAPS (s : Nat) : Nat := (0x60100 + 32 * s) + 0x14
def F.RS_S_GAPS_COUNT : Fld := ⟨0, 32⟩
def R.RS_S_STAT (s : Nat) : Nat := (0x60100 + 32 * s) + 0x18
def F.RS_S_STAT_FULL : Fld := ⟨0, 1⟩
def F.RS_S_STAT_GAP_OPEN : Fld := ⟨1, 1⟩
def R.CE_CFG (r : Nat) : Nat := R.regionBase r + 0x80000
def F.CE_CFG_SYNC : Fld := ⟨0, 2⟩
def F.CE_CFG_SLOT : Fld := ⟨2, 8⟩
def F.CE_CFG_NPROBE : Fld := ⟨10, 7⟩
def F.CE_CFG_RING : Fld := ⟨17, 3⟩
def F.CE_CFG_MARK_MASK : Fld := ⟨20, 8⟩
def F.CE_CFG_AUTO : Fld := ⟨28, 1⟩
def F.CE_CFG_HO_MODE : Fld := ⟨29, 1⟩
def F.CE_CFG_START_ARM : Fld := ⟨30, 1⟩
def R.CE_PERIOD (r : Nat) : Nat := R.regionBase r + 0x80004
def F.CE_PERIOD_NS : Fld := ⟨0, 20⟩
def R.CE_PHASE (r : Nat) : Nat := R.regionBase r + 0x80008
def F.CE_PHASE_NS : Fld := ⟨0, 20⟩
def R.CE_PRE (r : Nat) : Nat := R.regionBase r + 0x8000C
def F.CE_PRE_ROWS : Fld := ⟨0, 24⟩
def R.CE_POST (r : Nat) : Nat := R.regionBase r + 0x80010
def F.CE_POST_ROWS : Fld := ⟨0, 32⟩
def R.CE_TRG (r : Nat) : Nat := R.regionBase r + 0x80014
def F.CE_TRG_SRC : Fld := ⟨0, 2⟩
def F.CE_TRG_INDEX : Fld := ⟨2, 11⟩
def F.CE_TRG_DIR : Fld := ⟨13, 2⟩
def F.CE_TRG_OUT_LINE : Fld := ⟨15, 3⟩
def F.CE_TRG_OUT_EN : Fld := ⟨18, 1⟩
def R.CE_LEVEL (r : Nat) : Nat := R.regionBase r + 0x80018
def F.CE_LEVEL_VALUE : Fld := ⟨0, 32⟩
def R.CE_HYST (r : Nat) : Nat := R.regionBase r + 0x8001C
def F.CE_HYST_VALUE : Fld := ⟨0, 32⟩
def R.CE_HOLDOFF (r : Nat) : Nat := R.regionBase r + 0x80020
def F.CE_HOLDOFF_VALUE : Fld := ⟨0, 32⟩
def R.CE_CTRL (r : Nat) : Nat := R.regionBase r + 0x80024
def F.CE_CTRL_ARM : Fld := ⟨0, 1⟩
def F.CE_CTRL_DISARM : Fld := ⟨1, 1⟩
def F.CE_CTRL_FORCE : Fld := ⟨2, 1⟩
def R.CE_STAT (r : Nat) : Nat := R.regionBase r + 0x80028
def F.CE_STAT_STATE : Fld := ⟨0, 3⟩
def F.CE_STAT_SHORT_PRE : Fld := ⟨3, 1⟩
def F.CE_STAT_STREAMING : Fld := ⟨4, 1⟩
def F.CE_STAT_TRUNC : Fld := ⟨5, 1⟩
def F.CE_STAT_REFUSED : Fld := ⟨6, 1⟩
def F.CE_STAT_FENCED : Fld := ⟨7, 1⟩
def F.CE_STAT_BAD_CFG : Fld := ⟨8, 1⟩
def R.CE_TRG_CNT (r : Nat) : Nat := R.regionBase r + 0x8002C
def F.CE_TRG_CNT_COUNT : Fld := ⟨0, 32⟩
def R.CE_SUPP_CNT (r : Nat) : Nat := R.regionBase r + 0x80030
def F.CE_SUPP_CNT_COUNT : Fld := ⟨0, 32⟩
def R.CE_WIN_ID (r : Nat) : Nat := R.regionBase r + 0x80034
def F.CE_WIN_ID_ID : Fld := ⟨0, 32⟩
def R.CE_TRG_T (r : Nat) : Nat := R.regionBase r + 0x80038
def F.CE_TRG_T_TAG : Fld := ⟨0, 32⟩
def R.CE_PRE_ACT (r : Nat) : Nat := R.regionBase r + 0x8003C
def F.CE_PRE_ACT_ROWS : Fld := ⟨0, 24⟩
def R.CE_POOL_CFG (r : Nat) : Nat := R.regionBase r + 0x80040
def F.CE_POOL_CFG_SIZE_MIB : Fld := ⟨0, 10⟩
def F.CE_POOL_CFG_BASE_MIB : Fld := ⟨16, 10⟩
def R.CE_POOL_FREE (r : Nat) : Nat := R.regionBase r + 0x80044
def F.CE_POOL_FREE_KIB : Fld := ⟨0, 32⟩
def R.CE_PROBE (r i : Nat) : Nat := R.regionBase r + 0x80100 + 4 * i
def F.CE_PROBE_SOURCE : Fld := ⟨0, 20⟩
def F.CE_PROBE_KIND : Fld := ⟨20, 2⟩
def R.TB_CFG (i : Nat) : Nat := 0x70000 + 4 * i
def F.TB_CFG_PIN : Fld := ⟨0, 2⟩
def F.TB_CFG_MARK_MASK : Fld := ⟨2, 8⟩
def R.TB_CMD : Nat := 0x70020
def F.TB_CMD_LINE : Fld := ⟨0, 3⟩
def F.TB_CMD_PULSE : Fld := ⟨3, 1⟩
def F.TB_CMD_CAL : Fld := ⟨4, 1⟩
def R.TB_STAT : Nat := 0x70024
def F.TB_STAT_CAL_DONE : Fld := ⟨0, 1⟩
def F.TB_STAT_CAL_FAIL : Fld := ⟨1, 1⟩
def F.TB_STAT_EVT : Fld := ⟨8, 8⟩
def F.TB_STAT_SH_CAL : Fld := ⟨16, 8⟩
def R.TB_LAST_T (i : Nat) : Nat := 0x70040 + 4 * i
def F.TB_LAST_T_TAG : Fld := ⟨0, 32⟩
def R.TB_CNT (i : Nat) : Nat := 0x70060 + 4 * i
def F.TB_CNT_COUNT : Fld := ⟨0, 32⟩
def R.TB_RTT (i : Nat) : Nat := 0x70080 + 4 * i
def F.TB_RTT_PS : Fld := ⟨0, 16⟩
def F.TB_RTT_TAP : Fld := ⟨16, 8⟩
def R.TB_PIN_DLY (i : Nat) : Nat := 0x700C0 + 4 * i
def F.TB_PIN_DLY_PS : Fld := ⟨0, 16⟩

-- registers of 12_field_network.md
def R.FP_CFG (p : Nat) : Nat := (0x100000 + 0x10000 * p) + 0x0
def F.FP_CFG_USED : Fld := ⟨0, 1⟩
def F.FP_CFG_SPEED : Fld := ⟨1, 2⟩
def R.FP_STAT (p : Nat) : Nat := (0x100000 + 0x10000 * p) + 0x4
def F.FP_STAT_LINK : Fld := ⟨0, 1⟩
def F.FP_STAT_LINK_LOST : Fld := ⟨1, 1⟩
def F.FP_STAT_FCS_ERR : Fld := ⟨2, 1⟩
def F.FP_STAT_DROPPED : Fld := ⟨3, 1⟩
def F.FP_STAT_LOOPED : Fld := ⟨4, 1⟩
def R.FP_TX_CNT (p : Nat) : Nat := (0x100000 + 0x10000 * p) + 0x8
def F.FP_TX_CNT_COUNT : Fld := ⟨0, 32⟩
def R.FP_RX_CNT (p : Nat) : Nat := (0x100000 + 0x10000 * p) + 0xC
def F.FP_RX_CNT_COUNT : Fld := ⟨0, 32⟩
def R.FP_FCS_CNT (p : Nat) : Nat := (0x100000 + 0x10000 * p) + 0x10
def F.FP_FCS_CNT_COUNT : Fld := ⟨0, 32⟩
def R.FP_DROP_CNT (p : Nat) : Nat := (0x100000 + 0x10000 * p) + 0x14
def F.FP_DROP_CNT_COUNT : Fld := ⟨0, 32⟩
def R.FP_REW_CNT (p : Nat) : Nat := (0x100000 + 0x10000 * p) + 0x18
def F.FP_REW_CNT_COUNT : Fld := ⟨0, 32⟩
def R.FP_RING_CFG (r : Nat) : Nat := (0x100000 + 0x20000 * r) + 0x100
def F.FP_RING_CFG_USED : Fld := ⟨0, 1⟩
def F.FP_RING_CFG_PAIR : Fld := ⟨1, 1⟩
def F.FP_RING_CFG_NO_BREAK : Fld := ⟨2, 1⟩
def F.FP_RING_CFG_NFRM : Fld := ⟨8, 4⟩
def F.FP_RING_CFG_NSTN : Fld := ⟨12, 7⟩
def F.FP_RING_CFG_DISC_PERIOD : Fld := ⟨19, 8⟩
def R.FP_ETYPE (r : Nat) : Nat := (0x100000 + 0x20000 * r) + 0x104
def F.FP_ETYPE_ETYPE : Fld := ⟨0, 16⟩
def R.FP_TAIL_START (r : Nat) : Nat := (0x100000 + 0x20000 * r) + 0x108
def F.FP_TAIL_START_OFFSET : Fld := ⟨0, 23⟩
def R.FP_RING_STAT (r : Nat) : Nat := (0x100000 + 0x20000 * r) + 0x10C
def F.FP_RING_STAT_BREAK : Fld := ⟨0, 1⟩
def F.FP_RING_STAT_BREAK_SEEN : Fld := ⟨1, 1⟩
def F.FP_RING_STAT_UNKNOWN : Fld := ⟨2, 1⟩
def F.FP_RING_STAT_IN_MIS : Fld := ⟨3, 1⟩
def F.FP_RING_STAT_TAIL_FULL : Fld := ⟨4, 1⟩
def R.FP_UNKNOWN_EUI_LO (r : Nat) : Nat := (0x100000 + 0x20000 * r) + 0x110
def F.FP_UNKNOWN_EUI_LO_EUI : Fld := ⟨0, 32⟩
def R.FP_UNKNOWN_EUI_HI (r : Nat) : Nat := (0x100000 + 0x20000 * r) + 0x114
def F.FP_UNKNOWN_EUI_HI_EUI : Fld := ⟨0, 32⟩
def R.FP_STN_CMD (r : Nat) : Nat := (0x100000 + 0x20000 * r) + 0x118
def F.FP_STN_CMD_STN : Fld := ⟨0, 7⟩
def F.FP_STN_CMD_CODE : Fld := ⟨7, 3⟩
def R.FP_STN_CMD_STAT (r : Nat) : Nat := (0x100000 + 0x20000 * r) + 0x11C
def F.FP_STN_CMD_STAT_BUSY : Fld := ⟨0, 1⟩
def F.FP_STN_CMD_STAT_CAUSE : Fld := ⟨1, 2⟩
def R.FP_LAND_MAX (r : Nat) : Nat := (0x100000 + 0x20000 * r) + 0x120
def F.FP_LAND_MAX_OFFSET : Fld := ⟨0, 23⟩
def F.FP_LAND_MAX_CLR : Fld := ⟨31, 1⟩
def R.FP_MODEL_LAND (r : Nat) : Nat := (0x100000 + 0x20000 * r) + 0x124
def F.FP_MODEL_LAND_OFFSET : Fld := ⟨0, 23⟩
def R.FP_S_EUI_LO (s : Nat) : Nat := R.stnBase s + 0x0
def F.FP_S_EUI_LO_EUI : Fld := ⟨0, 32⟩
def R.FP_S_EUI_HI (s : Nat) : Nat := R.stnBase s + 0x4
def F.FP_S_EUI_HI_EUI : Fld := ⟨0, 32⟩
def R.FP_S_TYPE (s : Nat) : Nat := R.stnBase s + 0x8
def F.FP_S_TYPE_TYPE : Fld := ⟨0, 32⟩
def R.FP_S_CRC (s : Nat) : Nat := R.stnBase s + 0xC
def F.FP_S_CRC_CRC : Fld := ⟨0, 32⟩
def R.FP_S_MAP (s : Nat) : Nat := R.stnBase s + 0x10
def F.FP_S_MAP_OUT_BASE : Fld := ⟨0, 16⟩
def F.FP_S_MAP_IN_BASE : Fld := ⟨16, 16⟩
def R.FP_S_LEN (s : Nat) : Nat := R.stnBase s + 0x14
def F.FP_S_LEN_OLEN : Fld := ⟨0, 11⟩
def F.FP_S_LEN_ILEN : Fld := ⟨11, 11⟩
def F.FP_S_LEN_MISS_TOL : Fld := ⟨22, 3⟩
def F.FP_S_LEN_USED : Fld := ⟨25, 1⟩
def R.FP_S_HOLD (s : Nat) : Nat := R.stnBase s + 0x18
def F.FP_S_HOLD_MS : Fld := ⟨0, 14⟩
def R.FP_S_STAT (s : Nat) : Nat := R.stnBase s + 0x1C
def F.FP_S_STAT_STATE : Fld := ⟨0, 3⟩
def F.FP_S_STAT_MISS : Fld := ⟨3, 3⟩
def F.FP_S_STAT_CAUSE : Fld := ⟨8, 3⟩
def F.FP_S_STAT_SESSION : Fld := ⟨16, 16⟩
def R.FP_S_ISTAT (s : Nat) : Nat := R.stnBase s + 0x20
def F.FP_S_ISTAT_ISTAT : Fld := ⟨0, 32⟩
def R.FP_S_MISS_CNT (s : Nat) : Nat := R.stnBase s + 0x24
def F.FP_S_MISS_CNT_COUNT : Fld := ⟨0, 32⟩
def R.FP_S_WKC_ERR_CNT (s : Nat) : Nat := R.stnBase s + 0x28
def F.FP_S_WKC_ERR_CNT_COUNT : Fld := ⟨0, 32⟩
def R.FP_S_DUP_CNT (s : Nat) : Nat := R.stnBase s + 0x2C
def F.FP_S_DUP_CNT_COUNT : Fld := ⟨0, 32⟩
def R.FP_S_ADMIT_CNT (s : Nat) : Nat := R.stnBase s + 0x30
def F.FP_S_ADMIT_CNT_COUNT : Fld := ⟨0, 32⟩
def R.FP_S_LAND_T (s : Nat) : Nat := R.stnBase s + 0x34
def F.FP_S_LAND_T_OFFSET : Fld := ⟨0, 23⟩

-- registers of 13_time.md
def R.TM_NOW_NS : Nat := 0x30000
def F.TM_NOW_NS_NS : Fld := ⟨0, 30⟩
def R.TM_NOW_SEC_LO : Nat := 0x30004
def F.TM_NOW_SEC_LO_SEC : Fld := ⟨0, 32⟩
def R.TM_NOW_SEC_HI : Nat := 0x30008
def F.TM_NOW_SEC_HI_SEC : Fld := ⟨0, 16⟩
def R.TM_STATE : Nat := 0x3000C
def F.TM_STATE_STATE : Fld := ⟨0, 3⟩
def F.TM_STATE_STEPPED : Fld := ⟨3, 1⟩
def R.TM_ADDEND : Nat := 0x30010
def F.TM_ADDEND_VALUE : Fld := ⟨0, 32⟩
def R.TM_SRV_OFS : Nat := 0x30014
def F.TM_SRV_OFS_NS : Fld := ⟨0, 32⟩
def R.TM_SRV_KP : Nat := 0x30018
def F.TM_SRV_KP_VALUE : Fld := ⟨0, 32⟩
def R.TM_SRV_KI : Nat := 0x3001C
def F.TM_SRV_KI_VALUE : Fld := ⟨0, 32⟩
def R.TM_SRV_LOCK : Nat := 0x30020
def F.TM_SRV_LOCK_LOCK_THR : Fld := ⟨0, 16⟩
def F.TM_SRV_LOCK_LOCK_N : Fld := ⟨16, 8⟩
def R.TM_SRV_STEP_THR : Nat := 0x30024
def F.TM_SRV_STEP_THR_NS : Fld := ⟨0, 32⟩
def R.TM_SRV_FREQ : Nat := 0x30028
def F.TM_SRV_FREQ_PPB : Fld := ⟨0, 32⟩
def R.TM_SET_NS : Nat := 0x3002C
def F.TM_SET_NS_NS : Fld := ⟨0, 32⟩
def R.TM_SET_SEC_LO : Nat := 0x30030
def F.TM_SET_SEC_LO_SEC : Fld := ⟨0, 32⟩
def R.TM_SET_SEC_HI : Nat := 0x30034
def F.TM_SET_SEC_HI_SEC : Fld := ⟨0, 16⟩
def R.TM_SET_CMD : Nat := 0x30038
def F.TM_SET_CMD_CODE : Fld := ⟨0, 2⟩
def F.TM_SET_CMD_CAUSE : Fld := ⟨2, 2⟩
def R.TM_MG_LAT : Nat := 0x3003C
def F.TM_MG_LAT_RX : Fld := ⟨0, 16⟩
def F.TM_MG_LAT_TX : Fld := ⟨16, 16⟩
def R.TM_RTC_SEC_LO : Nat := 0x30080
def F.TM_RTC_SEC_LO_SEC : Fld := ⟨0, 32⟩
def R.TM_RTC_SEC_HI : Nat := 0x30084
def F.TM_RTC_SEC_HI_SEC : Fld := ⟨0, 16⟩
def R.TM_RTC_SUB : Nat := 0x30088
def F.TM_RTC_SUB_COUNT : Fld := ⟨0, 15⟩
def R.TM_RTC_TRIM : Nat := 0x3008C
def F.TM_RTC_TRIM_TRIM : Fld := ⟨0, 8⟩
def R.TM_RTC_UTC : Nat := 0x30090
def F.TM_RTC_UTC_UTC_OFS : Fld := ⟨0, 16⟩
def F.TM_RTC_UTC_LEAP61 : Fld := ⟨16, 1⟩
def F.TM_RTC_UTC_LEAP59 : Fld := ⟨17, 1⟩
def R.TM_RTC_STAT : Nat := 0x30094
def F.TM_RTC_STAT_RTC_VALID : Fld := ⟨0, 1⟩
def F.TM_RTC_STAT_CLK_FAULT : Fld := ⟨1, 1⟩
def R.TM_EDGE_CFG (i : Nat) : Nat := 0x30200 + 4 * i
def F.TM_EDGE_CFG_USED : Fld := ⟨0, 1⟩
def F.TM_EDGE_CFG_EDGE : Fld := ⟨1, 2⟩
def F.TM_EDGE_CFG_IMAGE : Fld := ⟨3, 1⟩
def F.TM_EDGE_CFG_FLOW_EN : Fld := ⟨4, 1⟩
def F.TM_EDGE_CFG_FILT : Fld := ⟨5, 10⟩
def F.TM_EDGE_CFG_FLOW : Fld := ⟨15, 10⟩

-- registers of 14_can.md
def R.CF_CFG (p : Nat) : Nat := (0x180000 + 0x1000 * p) + 0x0
def F.CF_CFG_USED : Fld := ⟨0, 1⟩
def F.CF_CFG_DEFAULT : Fld := ⟨1, 1⟩
def F.CF_CFG_NMAP : Fld := ⟨2, 8⟩
def R.CF_MODE (p : Nat) : Nat := (0x180000 + 0x1000 * p) + 0x4
def F.CF_MODE_REQ : Fld := ⟨0, 2⟩
def F.CF_MODE_EFF : Fld := ⟨2, 2⟩
def R.CF_NBT (p : Nat) : Nat := (0x180000 + 0x1000 * p) + 0x8
def F.CF_NBT_NTSEG1_M1 : Fld := ⟨0, 8⟩
def F.CF_NBT_NTSEG2_M1 : Fld := ⟨8, 7⟩
def F.CF_NBT_NSJW_M1 : Fld := ⟨15, 7⟩
def R.CF_DBT (p : Nat) : Nat := (0x180000 + 0x1000 * p) + 0xC
def F.CF_DBT_DTSEG1_M1 : Fld := ⟨0, 5⟩
def F.CF_DBT_DTSEG2_M1 : Fld := ⟨5, 4⟩
def F.CF_DBT_DSJW_M1 : Fld := ⟨9, 4⟩
def F.CF_DBT_TDC_EN : Fld := ⟨13, 1⟩
def F.CF_DBT_TDCO : Fld := ⟨14, 7⟩
def R.CF_PRESC (p : Nat) : Nat := (0x180000 + 0x1000 * p) + 0x10
def F.CF_PRESC_BRP_M1 : Fld := ⟨0, 5⟩
def R.CF_STAT (p : Nat) : Nat := (0x180000 + 0x1000 * p) + 0x14
def F.CF_STAT_STATE : Fld := ⟨0, 2⟩
def F.CF_STAT_LEC : Fld := ⟨2, 3⟩
def F.CF_STAT_ID_COLLISION : Fld := ⟨5, 1⟩
def F.CF_STAT_RX_OVF : Fld := ⟨6, 1⟩
def F.CF_STAT_TDC_SAT : Fld := ⟨7, 1⟩
def F.CF_STAT_CFG_REJ : Fld := ⟨8, 1⟩
def F.CF_STAT_ABD_DONE : Fld := ⟨9, 1⟩
def F.CF_STAT_ABD_FAIL : Fld := ⟨10, 1⟩
def F.CF_STAT_TKO_UNMATCHED : Fld := ⟨11, 1⟩
def F.CF_STAT_TKO_RESENT : Fld := ⟨12, 1⟩
def R.CF_ERRCNT (p : Nat) : Nat := (0x180000 + 0x1000 * p) + 0x18
def F.CF_ERRCNT_TEC : Fld := ⟨0, 8⟩
def F.CF_ERRCNT_REC : Fld := ⟨8, 7⟩
def F.CF_ERRCNT_RP : Fld := ⟨15, 1⟩
def R.CF_CMD (p : Nat) : Nat := (0x180000 + 0x1000 * p) + 0x1C
def F.CF_CMD_CODE : Fld := ⟨0, 2⟩
def F.CF_CMD_ENTRY : Fld := ⟨8, 6⟩
def R.CF_TDC_MEAS (p : Nat) : Nat := (0x180000 + 0x1000 * p) + 0x20
def F.CF_TDC_MEAS_CYCLES : Fld := ⟨0, 7⟩
def R.CF_COLL_ID (p : Nat) : Nat := (0x180000 + 0x1000 * p) + 0x24
def F.CF_COLL_ID_ID : Fld := ⟨0, 29⟩
def F.CF_COLL_ID_IDE : Fld := ⟨29, 1⟩
def R.CF_ABD (p : Nat) : Nat := (0x180000 + 0x1000 * p) + 0x28
def F.CF_ABD_RESULT : Fld := ⟨0, 3⟩
def F.CF_ABD_USED : Fld := ⟨3, 8⟩
def F.CF_ABD_ABD_WIN : Fld := ⟨11, 10⟩
def R.CF_ABD_RATE (p i : Nat) : Nat := (0x180000 + 0x1000 * p) + 0x2C + 4 * i
def F.CF_ABD_RATE_TIMING : Fld := ⟨0, 22⟩
def R.CF_TX_CNT (p : Nat) : Nat := (0x180000 + 0x1000 * p) + 0x4C
def F.CF_TX_CNT_COUNT : Fld := ⟨0, 32⟩
def R.CF_RX_CNT (p : Nat) : Nat := (0x180000 + 0x1000 * p) + 0x50
def F.CF_RX_CNT_COUNT : Fld := ⟨0, 32⟩
def R.CF_ERR_CNT (p : Nat) : Nat := (0x180000 + 0x1000 * p) + 0x54
def F.CF_ERR_CNT_COUNT : Fld := ⟨0, 32⟩
def R.CF_ARB_LOST_CNT (p : Nat) : Nat := (0x180000 + 0x1000 * p) + 0x58
def F.CF_ARB_LOST_CNT_COUNT : Fld := ⟨0, 32⟩
def R.CF_RX_LOST_CNT (p : Nat) : Nat := (0x180000 + 0x1000 * p) + 0x5C
def F.CF_RX_LOST_CNT_COUNT : Fld := ⟨0, 32⟩
def R.CF_TX_REPL (p : Nat) : Nat := (0x180000 + 0x1000 * p) + 0x60
def F.CF_TX_REPL_COUNT : Fld := ⟨0, 32⟩
def R.CF_BUSOFF_CNT (p : Nat) : Nat := (0x180000 + 0x1000 * p) + 0x64
def F.CF_BUSOFF_CNT_COUNT : Fld := ⟨0, 32⟩
def R.CF_TXE (p i : Nat) : Nat := (0x180000 + 0x1000 * p) + 0x100 + 4 * i
def F.CF_TXE_USED : Fld := ⟨0, 1⟩
def F.CF_TXE_KIND : Fld := ⟨1, 1⟩
def F.CF_TXE_STATE : Fld := ⟨2, 2⟩
def F.CF_TXE_STATUS : Fld := ⟨4, 4⟩

-- registers of 15_redundancy.md
def R.XL_CFG : Nat := 0x24000
def F.XL_CFG_PAIR_EN : Fld := ⟨0, 1⟩
def F.XL_CFG_UNIT : Fld := ⟨1, 1⟩
def F.XL_CFG_AUTO_RESYNC : Fld := ⟨2, 1⟩
def F.XL_CFG_SEEK_MS : Fld := ⟨8, 8⟩
def R.XL_TIMING : Nat := 0x24004
def F.XL_TIMING_HB_US : Fld := ⟨0, 16⟩
def F.XL_TIMING_LEASE_US : Fld := ⟨16, 16⟩
def R.XL_DIG_WAIT : Nat := 0x24008
def F.XL_DIG_WAIT_NS : Fld := ⟨0, 14⟩
def R.XL_STATE : Nat := 0x2400C
def F.XL_STATE_STATE : Fld := ⟨0, 3⟩
def F.XL_STATE_LINK : Fld := ⟨3, 1⟩
def F.XL_STATE_LANE_DEG : Fld := ⟨4, 1⟩
def F.XL_STATE_PEER : Fld := ⟨5, 1⟩
def F.XL_STATE_HOLDER_ID : Fld := ⟨6, 1⟩
def R.XL_EPOCH : Nat := 0x24010
def F.XL_EPOCH_EPOCH : Fld := ⟨0, 32⟩
def R.XL_STAT : Nat := 0x24014
def F.XL_STAT_DIVERGED : Fld := ⟨0, 1⟩
def F.XL_STAT_TAKEOVER : Fld := ⟨1, 1⟩
def F.XL_STAT_LINK_LOST : Fld := ⟨2, 1⟩
def F.XL_STAT_ID_CONFLICT : Fld := ⟨3, 1⟩
def F.XL_STAT_INCOMPAT : Fld := ⟨4, 1⟩
def F.XL_STAT_DUAL_HOLDER : Fld := ⟨5, 1⟩
def F.XL_STAT_LOG_GAP : Fld := ⟨6, 1⟩
def F.XL_STAT_RESYNC_FAIL : Fld := ⟨7, 1⟩
def F.XL_STAT_RS_CAUSE : Fld := ⟨8, 4⟩
def R.XL_CMD : Nat := 0x24018
def F.XL_CMD_CODE : Fld := ⟨0, 3⟩
def R.XL_CMD_STAT : Nat := 0x2401C
def F.XL_CMD_STAT_BUSY : Fld := ⟨0, 1⟩
def F.XL_CMD_STAT_CAUSE : Fld := ⟨1, 3⟩
def R.XL_DIG_MIS_CNT : Nat := 0x24020
def F.XL_DIG_MIS_CNT_COUNT : Fld := ⟨0, 32⟩
def R.XL_DIG_MISS_CNT : Nat := 0x24024
def F.XL_DIG_MISS_CNT_COUNT : Fld := ⟨0, 32⟩
def R.XL_LOG_POS : Nat := 0x24028
def F.XL_LOG_POS_LSEQ : Fld := ⟨0, 32⟩
def R.XL_RESYNC_MS : Nat := 0x2402C
def F.XL_RESYNC_MS_MS : Fld := ⟨0, 16⟩
def R.XL_TKO_CNT : Nat := 0x24030
def F.XL_TKO_CNT_COUNT : Fld := ⟨0, 32⟩
def R.XL_LAST_HB_T : Nat := 0x24034
def F.XL_LAST_HB_T_TAG : Fld := ⟨0, 32⟩
def R.KA_CFG : Nat := 0x28000
def F.KA_CFG_CKPT_RETAIN : Fld := ⟨0, 1⟩
def F.KA_CFG_AUTO_RESTART : Fld := ⟨1, 1⟩
def F.KA_CFG_RESTART_MAX : Fld := ⟨2, 4⟩
def R.KA_CKPT_STAT : Nat := 0x28004
def F.KA_CKPT_STAT_ACTIVE : Fld := ⟨0, 1⟩
def F.KA_CKPT_STAT_VALID_A : Fld := ⟨1, 1⟩
def F.KA_CKPT_STAT_VALID_B : Fld := ⟨2, 1⟩
def F.KA_CKPT_STAT_SKIP : Fld := ⟨3, 1⟩
def R.KA_CKPT_EPOCH : Nat := 0x28008
def F.KA_CKPT_EPOCH_EPOCH : Fld := ⟨0, 32⟩
def R.KA_CKPT_SIZE : Nat := 0x2800C
def F.KA_CKPT_SIZE_BYTES : Fld := ⟨0, 20⟩
def R.KA_CKPT_LAYOUT : Nat := 0x28010
def F.KA_CKPT_LAYOUT_LAYOUT : Fld := ⟨0, 32⟩
def R.KA_SKIP_CNT : Nat := 0x28014
def F.KA_SKIP_CNT_COUNT : Fld := ⟨0, 32⟩
def R.KA_RESTART : Nat := 0x28018
def F.KA_RESTART_KIND : Fld := ⟨0, 2⟩
def F.KA_RESTART_CAUSE : Fld := ⟨2, 4⟩
def F.KA_RESTART_NOCKPT : Fld := ⟨6, 4⟩
def F.KA_RESTART_COUNT : Fld := ⟨16, 16⟩
def R.KA_OUTAGE_MS : Nat := 0x2801C
def F.KA_OUTAGE_MS_MS : Fld := ⟨0, 32⟩
def R.KA_CMD : Nat := 0x28020
def F.KA_CMD_CODE : Fld := ⟨0, 2⟩
def R.KA_CMD_STAT : Nat := 0x28024
def F.KA_CMD_STAT_BUSY : Fld := ⟨0, 1⟩
def F.KA_CMD_STAT_CAUSE : Fld := ⟨1, 3⟩

-- registers of 16_host.md
def R.HI_ID : Nat := 0x0
def F.HI_ID_PART : Fld := ⟨0, 16⟩
def F.HI_ID_STEP : Fld := ⟨16, 8⟩
def R.HI_CAP : Nat := 0x4
def F.HI_CAP_NCD : Fld := ⟨0, 4⟩
def F.HI_CAP_NREG : Fld := ⟨4, 5⟩
def R.HI_FW : Nat := 0x8
def F.HI_FW_VERSION : Fld := ⟨0, 32⟩
def R.HI_IMG : Nat := 0xC
def F.HI_IMG_ID : Fld := ⟨0, 32⟩
def R.HI_DIE_STATE : Nat := 0x10
def F.HI_DIE_STATE_STATE : Fld := ⟨0, 8⟩
def R.HI_LINK : Nat := 0x14
def F.HI_LINK_SPEED : Fld := ⟨0, 4⟩
def F.HI_LINK_WIDTH : Fld := ⟨4, 5⟩
def F.HI_LINK_DOWN_CNT : Fld := ⟨16, 16⟩
def R.HI_BAR2_WIN : Nat := 0x18
def F.HI_BAR2_WIN_BASE : Fld := ⟨0, 7⟩
def R.HI_IRQ0_STAT : Nat := 0x20
def F.HI_IRQ0_STAT_FENCE : Fld := ⟨0, 1⟩
def F.HI_IRQ0_STAT_STOP : Fld := ⟨1, 1⟩
def F.HI_IRQ0_STAT_TAKEOVER : Fld := ⟨2, 1⟩
def F.HI_IRQ0_STAT_FATAL : Fld := ⟨3, 1⟩
def F.HI_IRQ0_STAT_EVT_LOST : Fld := ⟨4, 1⟩
def F.HI_IRQ0_STAT_WERR : Fld := ⟨5, 1⟩
def F.HI_IRQ0_STAT_LINK : Fld := ⟨6, 1⟩
def R.HI_IRQ0_MASK : Nat := 0x24
def F.HI_IRQ0_MASK_MASK : Fld := ⟨0, 7⟩
def R.HI_EVT_CFG : Nat := 0x28
def F.HI_EVT_CFG_RING : Fld := ⟨0, 3⟩
def F.HI_EVT_CFG_MINCLASS : Fld := ⟨3, 3⟩
def F.HI_EVT_CFG_EN : Fld := ⟨6, 1⟩
def R.HI_WERR_ADDR : Nat := 0x30
def F.HI_WERR_ADDR_OFFSET : Fld := ⟨0, 32⟩
def R.HI_WERR_STAT : Nat := 0x34
def F.HI_WERR_STAT_STATUS : Fld := ⟨0, 4⟩
def F.HI_WERR_STAT_BAR2 : Fld := ⟨4, 1⟩
def F.HI_WERR_STAT_OVER : Fld := ⟨5, 1⟩
def R.HI_WERR_CNT : Nat := 0x38
def F.HI_WERR_CNT_COUNT : Fld := ⟨0, 32⟩
def R.HI_RING_BASE_LO (k : Nat) : Nat := (0x2C000 + 0x40 * k) + 0x0
def F.HI_RING_BASE_LO_ADDR : Fld := ⟨6, 26⟩
def R.HI_RING_BASE_HI (k : Nat) : Nat := (0x2C000 + 0x40 * k) + 0x4
def F.HI_RING_BASE_HI_ADDR : Fld := ⟨0, 32⟩
def R.HI_RING_CFG (k : Nat) : Nat := (0x2C000 + 0x40 * k) + 0x8
def F.HI_RING_CFG_LOG2 : Fld := ⟨0, 5⟩
def F.HI_RING_CFG_VEC : Fld := ⟨5, 8⟩
def R.HI_RING_CTRL (k : Nat) : Nat := (0x2C000 + 0x40 * k) + 0xC
def F.HI_RING_CTRL_EN : Fld := ⟨0, 1⟩
def F.HI_RING_CTRL_RESET : Fld := ⟨1, 1⟩
def R.HI_RING_TAIL (k : Nat) : Nat := (0x2C000 + 0x40 * k) + 0x10
def F.HI_RING_TAIL_INDEX : Fld := ⟨0, 16⟩
def R.HI_RING_HEAD (k : Nat) : Nat := (0x2C000 + 0x40 * k) + 0x14
def F.HI_RING_HEAD_INDEX : Fld := ⟨0, 16⟩
def R.HI_RING_IRQ (k : Nat) : Nat := (0x2C000 + 0x40 * k) + 0x18
def F.HI_RING_IRQ_COUNT : Fld := ⟨0, 16⟩
def F.HI_RING_IRQ_TIME_US : Fld := ⟨16, 16⟩
def R.HI_RING_STAT (k : Nat) : Nat := (0x2C000 + 0x40 * k) + 0x1C
def F.HI_RING_STAT_ACTIVE : Fld := ⟨0, 1⟩
def F.HI_RING_STAT_DESC_ERR : Fld := ⟨1, 1⟩
def F.HI_RING_STAT_NOT_HOLDER : Fld := ⟨2, 1⟩
def F.HI_RING_STAT_STALL : Fld := ⟨3, 1⟩
def R.HI_RING_CNT (k : Nat) : Nat := (0x2C000 + 0x40 * k) + 0x20
def F.HI_RING_CNT_COUNT : Fld := ⟨0, 32⟩
def R.HI_RING_LOST (k : Nat) : Nat := (0x2C000 + 0x40 * k) + 0x24
def F.HI_RING_LOST_COUNT : Fld := ⟨0, 32⟩

-- registers of 17_integrity.md
def R.LC_SEN_STAT (c : Nat) : Nat := R.clusterBase c + 0xC0
def F.LC_SEN_STAT_FAIL : Fld := ⟨0, 1⟩
def F.LC_SEN_STAT_RETRY : Fld := ⟨1, 1⟩
def F.LC_SEN_STAT_HELD : Fld := ⟨2, 1⟩
def F.LC_SEN_STAT_LATE : Fld := ⟨3, 1⟩
def R.LC_SEN_CMD (c : Nat) : Nat := R.clusterBase c + 0xC4
def F.LC_SEN_CMD_CLEAR : Fld := ⟨0, 1⟩
def R.LC_SEN_CNT (c : Nat) : Nat := R.clusterBase c + 0xC8
def F.LC_SEN_CNT_COUNT : Fld := ⟨0, 32⟩
def R.LC_SEN_FAIL_CNT (c : Nat) : Nat := R.clusterBase c + 0xCC
def F.LC_SEN_FAIL_CNT_COUNT : Fld := ⟨0, 32⟩
def R.LC_SEN_LAST_T (c : Nat) : Nat := R.clusterBase c + 0xD0
def F.LC_SEN_LAST_T_TAG : Fld := ⟨0, 32⟩
def R.CV_CTL : Nat := 0x2E000
def F.CV_CTL_POLY : Fld := ⟨0, 2⟩
def F.CV_CTL_INIT : Fld := ⟨2, 1⟩
def F.CV_CTL_MODE : Fld := ⟨3, 1⟩
def F.CV_CTL_BUSY : Fld := ⟨4, 1⟩
def R.CV_DATA : Nat := 0x2E004
def F.CV_DATA_DATA : Fld := ⟨0, 32⟩
def R.CV_DATA_B : Nat := 0x2E008
def F.CV_DATA_B_DATA : Fld := ⟨0, 8⟩
def R.CV_DMA_ADDR : Nat := 0x2E00C
def F.CV_DMA_ADDR_ADDR : Fld := ⟨0, 30⟩
def R.CV_DMA_LEN : Nat := 0x2E010
def F.CV_DMA_LEN_BYTES : Fld := ⟨0, 28⟩
def R.CV_DMA_CMD : Nat := 0x2E014
def F.CV_DMA_CMD_GO : Fld := ⟨0, 1⟩
def R.CV_VALUE_LO : Nat := 0x2E018
def F.CV_VALUE_LO_VALUE : Fld := ⟨0, 32⟩
def R.CV_VALUE_HI : Nat := 0x2E01C
def F.CV_VALUE_HI_VALUE : Fld := ⟨0, 32⟩
def R.CV_RESULT_LO : Nat := 0x2E020
def F.CV_RESULT_LO_VALUE : Fld := ⟨0, 32⟩
def R.CV_RESULT_HI : Nat := 0x2E024
def F.CV_RESULT_HI_VALUE : Fld := ⟨0, 32⟩
def R.CV_CMD : Nat := 0x2E028
def F.CV_CMD_CODE : Fld := ⟨0, 2⟩
def R.CV_CFG : Nat := 0x2E02C
def F.CV_CFG_VEC : Fld := ⟨0, 8⟩
def R.CV_SRAM_CE_CNT : Nat := 0x2E040
def F.CV_SRAM_CE_CNT_COUNT : Fld := ⟨0, 32⟩
def R.CV_SRAM_UE_CNT : Nat := 0x2E044
def F.CV_SRAM_UE_CNT_COUNT : Fld := ⟨0, 32⟩
def R.CV_DRAM_CE_CNT : Nat := 0x2E048
def F.CV_DRAM_CE_CNT_COUNT : Fld := ⟨0, 32⟩
def R.CV_DRAM_UE_CNT : Nat := 0x2E04C
def F.CV_DRAM_UE_CNT_COUNT : Fld := ⟨0, 32⟩
def R.CV_LAST_ERR : Nat := 0x2E050
def F.CV_LAST_ERR_MEM : Fld := ⟨0, 4⟩
def F.CV_LAST_ERR_REGION : Fld := ⟨4, 4⟩
def R.CV_LAST_ADDR : Nat := 0x2E054
def F.CV_LAST_ADDR_ADDR : Fld := ⟨0, 32⟩
def R.CV_SCRUB : Nat := 0x2E058
def F.CV_SCRUB_SRAM : Fld := ⟨0, 16⟩
def F.CV_SCRUB_DRAM : Fld := ⟨16, 16⟩
def R.CV_CH_CFG (c : Nat) : Nat := (0x2E100 + 32 * c) + 0x0
def F.CV_CH_CFG_POLY : Fld := ⟨0, 2⟩
def F.CV_CH_CFG_SRC : Fld := ⟨2, 1⟩
def F.CV_CH_CFG_IRQ_EN : Fld := ⟨3, 1⟩
def F.CV_CH_CFG_GO : Fld := ⟨4, 1⟩
def R.CV_CH_ADDR (c : Nat) : Nat := (0x2E100 + 32 * c) + 0x4
def F.CV_CH_ADDR_ADDR : Fld := ⟨0, 32⟩
def R.CV_CH_LEN (c : Nat) : Nat := (0x2E100 + 32 * c) + 0x8
def F.CV_CH_LEN_BYTES : Fld := ⟨0, 28⟩
def R.CV_CH_EXP_LO (c : Nat) : Nat := (0x2E100 + 32 * c) + 0xC
def F.CV_CH_EXP_LO_VALUE : Fld := ⟨0, 32⟩
def R.CV_CH_EXP_HI (c : Nat) : Nat := (0x2E100 + 32 * c) + 0x10
def F.CV_CH_EXP_HI_VALUE : Fld := ⟨0, 32⟩
def R.CV_CH_RES_LO (c : Nat) : Nat := (0x2E100 + 32 * c) + 0x14
def F.CV_CH_RES_LO_VALUE : Fld := ⟨0, 32⟩
def R.CV_CH_RES_HI (c : Nat) : Nat := (0x2E100 + 32 * c) + 0x18
def F.CV_CH_RES_HI_VALUE : Fld := ⟨0, 32⟩
def R.CV_CH_STAT (c : Nat) : Nat := (0x2E100 + 32 * c) + 0x1C
def F.CV_CH_STAT_BUSY : Fld := ⟨0, 1⟩
def F.CV_CH_STAT_DONE : Fld := ⟨1, 1⟩
def F.CV_CH_STAT_MISMATCH : Fld := ⟨2, 1⟩
def R.CV_BIST_CMD : Nat := 0x2E200
def F.CV_BIST_CMD_MASK : Fld := ⟨0, 16⟩
def F.CV_BIST_CMD_GO : Fld := ⟨16, 1⟩
def R.CV_BIST_STAT : Nat := 0x2E204
def F.CV_BIST_STAT_PASS : Fld := ⟨0, 16⟩
def F.CV_BIST_STAT_FAIL : Fld := ⟨16, 16⟩
def R.CV_BIST_REJ : Nat := 0x2E208
def F.CV_BIST_REJ_REFUSED : Fld := ⟨0, 16⟩
def F.CV_BIST_REJ_CAUSE : Fld := ⟨16, 4⟩

-- registers of 18_management.md
def R.MG_MBX_CMD : Nat := 0x200000
def F.MG_MBX_CMD_OPC : Fld := ⟨0, 8⟩
def F.MG_MBX_CMD_LEN : Fld := ⟨8, 13⟩
def F.MG_MBX_CMD_IRQ : Fld := ⟨21, 1⟩
def F.MG_MBX_CMD_VEC : Fld := ⟨22, 8⟩
def F.MG_MBX_CMD_GO : Fld := ⟨31, 1⟩
def R.MG_MBX_STAT : Nat := 0x200004
def F.MG_MBX_STAT_BUSY : Fld := ⟨0, 1⟩
def F.MG_MBX_STAT_DONE : Fld := ⟨1, 1⟩
def F.MG_MBX_STAT_STATUS : Fld := ⟨4, 4⟩
def F.MG_MBX_STAT_RLEN : Fld := ⟨8, 13⟩
def R.MG_SESSION : Nat := 0x200008
def F.MG_SESSION_VALID : Fld := ⟨0, 1⟩
def F.MG_SESSION_SLOT : Fld := ⟨1, 2⟩
def R.MG_TEMP (i : Nat) : Nat := 0x200100 + 4 * i
def F.MG_TEMP_VALUE : Fld := ⟨0, 16⟩
def F.MG_TEMP_STATE : Fld := ⟨16, 2⟩
def R.MG_VOLT (i : Nat) : Nat := 0x200180 + 4 * i
def F.MG_VOLT_VALUE : Fld := ⟨0, 16⟩
def F.MG_VOLT_STATE : Fld := ⟨16, 2⟩
def R.MG_VBAT : Nat := 0x2001C0
def F.MG_VBAT_VALUE : Fld := ⟨0, 16⟩
def R.MG_RESET_CNT : Nat := 0x2001C4
def F.MG_RESET_CNT_COUNT : Fld := ⟨0, 32⟩
def R.MG_MBX_REQ (i : Nat) : Nat := 0x201000 + 4 * i
def F.MG_MBX_REQ_DATA : Fld := ⟨0, 32⟩
def R.MG_MBX_RSP (i : Nat) : Nat := 0x202000 + 4 * i
def F.MG_MBX_RSP_DATA : Fld := ⟨0, 32⟩
def R.EV_HEAD_SEQ : Nat := 0x208000
def F.EV_HEAD_SEQ_SEQ : Fld := ⟨0, 32⟩
def R.EV_OLDEST_SEQ : Nat := 0x208004
def F.EV_OLDEST_SEQ_SEQ : Fld := ⟨0, 32⟩
def R.EV_STAGE_FILL : Nat := 0x208008
def F.EV_STAGE_FILL_RECORDS : Fld := ⟨0, 14⟩
def R.EV_LOST_CNT : Nat := 0x20800C
def F.EV_LOST_CNT_COUNT : Fld := ⟨0, 32⟩
def R.EV_WIN_BASE : Nat := 0x208010
def F.EV_WIN_BASE_SEQ : Fld := ⟨0, 32⟩
def R.EV_STAT : Nat := 0x208014
def F.EV_STAT_NVM_ERR : Fld := ⟨0, 1⟩
def F.EV_STAT_LOST : Fld := ⟨1, 1⟩
def R.LF_STATE : Nat := 0x20C000
def F.LF_STATE_STATE : Fld := ⟨0, 3⟩
def F.LF_STATE_TRACE : Fld := ⟨3, 1⟩
def F.LF_STATE_ERASE_FAIL : Fld := ⟨4, 1⟩
def R.LF_SVN : Nat := 0x20C004
def F.LF_SVN_COUNTER : Fld := ⟨0, 7⟩
def R.LF_BANK : Nat := 0x20C008
def F.LF_BANK_A : Fld := ⟨0, 3⟩
def F.LF_BANK_B : Fld := ⟨3, 3⟩
def R.LF_PROP (k : Nat) : Nat := (0x20C100 + 16 * k) + 0x0
def F.LF_PROP_ITEM : Fld := ⟨0, 4⟩
def F.LF_PROP_BY : Fld := ⟨4, 2⟩
def F.LF_PROP_AGE : Fld := ⟨8, 8⟩
def R.LF_PROP_D (k j : Nat) : Nat := (0x20C100 + 16 * k) + 0x4 + 4 * j
def F.LF_PROP_D_DIGEST : Fld := ⟨0, 32⟩

-- registers of 19_startup.md
def R.BT_STAT : Nat := 0x220000
def F.BT_STAT_PHASE : Fld := ⟨0, 4⟩
def F.BT_STAT_CAUSE : Fld := ⟨4, 4⟩
def F.BT_STAT_BANK : Fld := ⟨8, 1⟩
def F.BT_STAT_TRIAL : Fld := ⟨9, 1⟩
def F.BT_STAT_FALLBACK : Fld := ⟨10, 1⟩
def F.BT_STAT_BOOTSEL : Fld := ⟨11, 2⟩
def R.BT_DIR : Nat := 0x220004
def F.BT_DIR_SEQ : Fld := ⟨0, 32⟩
def R.BT_FAIL : Nat := 0x220008
def F.BT_FAIL_SECTION : Fld := ⟨0, 4⟩
def F.BT_FAIL_CAUSE_A : Fld := ⟨4, 4⟩
def F.BT_FAIL_CAUSE_B : Fld := ⟨8, 4⟩
def R.BT_RETRY : Nat := 0x22000C
def F.BT_RETRY_COUNT : Fld := ⟨0, 32⟩
def R.BT_T_LOAD : Nat := 0x220010
def F.BT_T_LOAD_MS : Fld := ⟨0, 16⟩
def R.BT_T_RUN : Nat := 0x220014
def F.BT_T_RUN_MS : Fld := ⟨0, 16⟩
def R.BT_MEM : Nat := 0x220018
def F.BT_MEM_DENSITY : Fld := ⟨0, 2⟩
def F.BT_MEM_FREQ : Fld := ⟨8, 8⟩
def R.BT_RING_WAIT : Nat := 0x22001C
def F.BT_RING_WAIT_MS : Fld := ⟨0, 11⟩

/-- One row of a block: offset, number of words, stride, masks of the RW, W1C and RWAC or WO fields (the command), the
reset value, and the mask of the fields that the configuration image loads (R12, R13). -/
structure RegRow where
  off : Nat
  n : Nat
  stride : Nat
  rw : Nat
  w1c : Nat
  cmd : Nat
  rst : Nat
  img : Nat
  deriving DecidableEq, Repr

def Reg.tmTab : List RegRow := [
  ⟨0x30000, 1, 4, 0x0, 0x0, 0x0, 0x0, 0x0⟩ /- TM_NOW_NS -/,
  ⟨0x30004, 1, 4, 0x0, 0x0, 0x0, 0x0, 0x0⟩ /- TM_NOW_SEC_LO -/,
  ⟨0x30008, 1, 4, 0x0, 0x0, 0x0, 0x0, 0x0⟩ /- TM_NOW_SEC_HI -/,
  ⟨0x3000C, 1, 4, 0x0, 0x8, 0x0, 0x0, 0x0⟩ /- TM_STATE -/,
  ⟨0x30010, 1, 4, 0x0, 0x0, 0x0, 0x35555555, 0x0⟩ /- TM_ADDEND -/,
  ⟨0x30014, 1, 4, 0x0, 0x0, 0x0, 0x0, 0x0⟩ /- TM_SRV_OFS -/,
  ⟨0x30018, 1, 4, 0x0, 0x0, 0x0, 0x0, 0xFFFFFFFF⟩ /- TM_SRV_KP -/,
  ⟨0x3001C, 1, 4, 0x0, 0x0, 0x0, 0x0, 0xFFFFFFFF⟩ /- TM_SRV_KI -/,
  ⟨0x30020, 1, 4, 0x0, 0x0, 0x0, 0x0, 0xFFFFFF⟩ /- TM_SRV_LOCK -/,
  ⟨0x30024, 1, 4, 0x0, 0x0, 0x0, 0x0, 0xFFFFFFFF⟩ /- TM_SRV_STEP_THR -/,
  ⟨0x30028, 1, 4, 0x0, 0x0, 0x0, 0x0, 0x0⟩ /- TM_SRV_FREQ -/,
  ⟨0x3002C, 1, 4, 0xFFFFFFFF, 0x0, 0x0, 0x0, 0x0⟩ /- TM_SET_NS -/,
  ⟨0x30030, 1, 4, 0xFFFFFFFF, 0x0, 0x0, 0x0, 0x0⟩ /- TM_SET_SEC_LO -/,
  ⟨0x30034, 1, 4, 0xFFFF, 0x0, 0x0, 0x0, 0x0⟩ /- TM_SET_SEC_HI -/,
  ⟨0x30038, 1, 4, 0x0, 0x0, 0x3, 0x0, 0x0⟩ /- TM_SET_CMD -/,
  ⟨0x3003C, 1, 4, 0x0, 0x0, 0x0, 0x0, 0xFFFFFFFF⟩ /- TM_MG_LAT -/,
  ⟨0x30080, 1, 4, 0xFFFFFFFF, 0x0, 0x0, 0x0, 0x0⟩ /- TM_RTC_SEC_LO -/,
  ⟨0x30084, 1, 4, 0xFFFF, 0x0, 0x0, 0x0, 0x0⟩ /- TM_RTC_SEC_HI -/,
  ⟨0x30088, 1, 4, 0x0, 0x0, 0x0, 0x0, 0x0⟩ /- TM_RTC_SUB -/,
  ⟨0x3008C, 1, 4, 0xFF, 0x0, 0x0, 0x0, 0x0⟩ /- TM_RTC_TRIM -/,
  ⟨0x30090, 1, 4, 0x3FFFF, 0x0, 0x0, 0x0, 0x0⟩ /- TM_RTC_UTC -/,
  ⟨0x30094, 1, 4, 0x0, 0x2, 0x0, 0x0, 0x0⟩ /- TM_RTC_STAT -/,
  ⟨0x30100, 1, 4, 0x0, 0x0, 0x0, 0x0, 0xF⟩ /- TM_CYC_CFG -/,
  ⟨0x30104, 1, 4, 0x0, 0x0, 0x0, 0x0, 0x0⟩ /- TM_CYC_SEQ -/,
  ⟨0x30108, 1, 4, 0x0, 0x0, 0x0, 0x0, 0x7FFFFF⟩ /- TM_LAND_CUTOFF -/,
  ⟨0x3010C, 1, 4, 0x0, 0x0, 0x0, 0x0, 0x7FFFFF⟩ /- TM_PH_S_START -/,
  ⟨0x30110, 1, 4, 0x0, 0x0, 0x0, 0x0, 0x7FFFFF⟩ /- TM_PH_L_START -/,
  ⟨0x30114, 1, 4, 0x0, 0x0, 0x0, 0x0, 0x7FFFFF⟩ /- TM_CLOSE -/,
  ⟨0x30118, 1, 4, 0x0, 0x0, 0x0, 0x0, 0xFFFF⟩ /- TM_SQ_ALLOW -/,
  ⟨0x3011C, 1, 4, 0x0, 0xFF, 0x0, 0x0, 0x0⟩ /- TM_CYC_STAT -/,
  ⟨0x30120, 1, 4, 0x0, 0x0, 0x80000000, 0x0, 0x0⟩ /- TM_PH_MAX_N -/,
  ⟨0x30124, 1, 4, 0x0, 0x0, 0x80000000, 0x0, 0x0⟩ /- TM_PH_MAX_S -/,
  ⟨0x30128, 1, 4, 0x0, 0x0, 0x80000000, 0x0, 0x0⟩ /- TM_PH_MAX_L -/,
  ⟨0x3012C, 1, 4, 0x0, 0x0, 0x0, 0x0, 0x0⟩ /- TM_LATE_LAND_CNT -/,
  ⟨0x30200, 64, 4, 0x0, 0x0, 0x0, 0x0, 0x1FFFFFF⟩ /- TM_EDGE_CFG -/]

def Reg.tkTab : List RegRow := [
  ⟨0x40000, 1, 4, 0x0, 0x0, 0x0, 0x4, 0x0⟩ /- TK_CTL -/,
  ⟨0x40004, 1, 4, 0x4, 0x0, 0x3, 0x0, 0x0⟩ /- TK_CTL_CMD -/,
  ⟨0x40008, 1, 4, 0x0, 0x10, 0x0, 0x0, 0x0⟩ /- TK_KEY -/,
  ⟨0x4000C, 1, 4, 0x0, 0x0, 0x0, 0x0, 0x0⟩ /- TK_WDOG -/,
  ⟨0x40010, 1, 4, 0x0, 0x0, 0x0, 0x0, 0x0⟩ /- TK_WDOG_SEQ -/,
  ⟨0x40014, 1, 4, 0xFFF, 0x0, 0x3000, 0x0, 0x0⟩ /- TK_TASK_CMD -/,
  ⟨0x40018, 1, 4, 0x0, 0x3, 0x0, 0x0, 0x0⟩ /- TK_HUB_STAT -/,
  ⟨0x4001C, 1, 4, 0x0, 0x0, 0x0, 0x0, 0x0⟩ /- TK_HUB_DROP -/,
  ⟨0x40100, 1, 4, 0xFFF0, 0x0, 0x3, 0x0, 0x0⟩ /- TK_FRC_CMD -/,
  ⟨0x40104, 1, 4, 0xFFFFF, 0x0, 0x0, 0xFFFFF, 0x0⟩ /- TK_FRC_REF -/,
  ⟨0x40108, 1, 4, 0xFFFFFFFF, 0x0, 0x0, 0x0, 0x0⟩ /- TK_FRC_MASK -/,
  ⟨0x4010C, 1, 4, 0xFFFFFFFF, 0x0, 0x0, 0x0, 0x0⟩ /- TK_FRC_VAL -/,
  ⟨0x40110, 1, 4, 0x0, 0x0, 0x0, 0x0, 0x0⟩ /- TK_FRC_STAT -/,
  ⟨0x40200, 1, 4, 0x1FF, 0x0, 0x200, 0x0, 0x0⟩ /- TK_OLC_CTRL -/,
  ⟨0x40204, 1, 4, 0x0, 0x2, 0x0, 0x0, 0x0⟩ /- TK_OLC_STAT -/,
  ⟨0x40208, 1, 4, 0x0, 0x0, 0x0, 0x0, 0x0⟩ /- TK_OLC_SEQ -/,
  ⟨0x40400, 64, 8, 0x0, 0x0, 0x0, 0x0, 0xFFFFF⟩ /- TK_FRC_PERM_LO -/,
  ⟨0x40404, 64, 8, 0x0, 0x0, 0x0, 0x0, 0xFFFFF⟩ /- TK_FRC_PERM_HI -/,
  ⟨0x41000, 1024, 4, 0xFFFFFFFF, 0x0, 0x0, 0x0, 0x0⟩ /- TK_OLC_BUF -/]

def Reg.hgTab : List RegRow := [
  ⟨0x80000, 1, 4, 0x0, 0x0, 0x0, 0x0, 0xFFF⟩ /- HG_CFG -/,
  ⟨0x80004, 1, 4, 0x7FF, 0x0, 0x1800, 0x0, 0x0⟩ /- HG_CMD -/,
  ⟨0x80008, 1, 4, 0x0, 0x0, 0x0, 0x0, 0x0⟩ /- HG_TRUE_CNT -/,
  ⟨0x8000C, 1, 4, 0x0, 0x0, 0x0, 0x0, 0x0⟩ /- HG_LAST -/,
  ⟨0x80010, 1, 4, 0x0, 0x0, 0x0, 0x0, 0x0⟩ /- HG_LAST_T -/,
  ⟨0x80014, 1, 4, 0x7F, 0x0, 0x0, 0x0, 0x0⟩ /- HG_PATCH_CTRL -/,
  ⟨0x80018, 1, 4, 0x0, 0x2, 0x0, 0x0, 0x0⟩ /- HG_PATCH_STAT -/,
  ⟨0x80100, 64, 4, 0x0, 0x0, 0x0, 0x0, 0x0⟩ /- HG_STATE -/,
  ⟨0x80200, 64, 4, 0x0, 0xFFFFFFFF, 0x0, 0x0, 0x0⟩ /- HG_SEEN -/,
  ⟨0x81000, 256, 4, 0xFFFFFFFF, 0x0, 0x0, 0x0, 0x0⟩ /- HG_PATCH_BUF -/]

def Reg.rstrTab : List RegRow := [
  ⟨0x60000, 1, 4, 0x0, 0x0, 0x0, 0x0, 0xFFFF⟩ /- RS_CFG -/,
  ⟨0x60004, 1, 4, 0xFF, 0x0, 0x100, 0x0, 0xFF⟩ /- RS_CTRL -/,
  ⟨0x60008, 1, 4, 0x3FF, 0x0, 0x0, 0x0, 0x3FF⟩ /- RS_FLUSH -/,
  ⟨0x6000C, 1, 4, 0x0, 0x7, 0x0, 0x0, 0x0⟩ /- RS_STAT -/,
  ⟨0x60010, 1, 4, 0x0, 0x0, 0x0, 0x0, 0x0⟩ /- RS_RATE -/,
  ⟨0x60014, 1, 4, 0x0, 0x0, 0x80000000, 0x0, 0x0⟩ /- RS_RATE_MAX -/,
  ⟨0x60018, 1, 4, 0x0, 0x0, 0x80000000, 0x0, 0x0⟩ /- RS_STAGE_MAX -/,
  ⟨0x6001C, 1, 4, 0x0, 0x0, 0xFFFFFFFF, 0x0, 0x0⟩ /- RS_USER_MARK -/,
  ⟨0x60020, 1, 4, 0xFFFF, 0x0, 0x0, 0x0, 0x0⟩ /- RS_SPEC_IDX -/,
  ⟨0x60024, 4, 4, 0xFFFFFFFF, 0x0, 0x0, 0x0, 0x0⟩ /- RS_SPEC_D -/,
  ⟨0x60034, 1, 4, 0x0, 0x0, 0x1, 0x0, 0x0⟩ /- RS_SPEC_CMD -/]

def Reg.tbTab : List RegRow := [
  ⟨0x70000, 8, 4, 0x3FC, 0x0, 0x0, 0x0, 0x3FF⟩ /- TB_CFG -/,
  ⟨0x70020, 1, 4, 0x7, 0x0, 0x18, 0x0, 0x0⟩ /- TB_CMD -/,
  ⟨0x70024, 1, 4, 0x0, 0xFF02, 0x0, 0x0, 0x0⟩ /- TB_STAT -/,
  ⟨0x70040, 8, 4, 0x0, 0x0, 0x0, 0x0, 0x0⟩ /- TB_LAST_T -/,
  ⟨0x70060, 8, 4, 0x0, 0x0, 0x0, 0x0, 0x0⟩ /- TB_CNT -/,
  ⟨0x70080, 16, 4, 0x0, 0x0, 0x0, 0x0, 0x0⟩ /- TB_RTT -/,
  ⟨0x700C0, 8, 4, 0x0, 0x0, 0x0, 0x0, 0x0⟩ /- TB_PIN_DLY -/]

def Reg.xlTab : List RegRow := [
  ⟨0x24000, 1, 4, 0x0, 0x0, 0x0, 0x0, 0xFF05⟩ /- XL_CFG -/,
  ⟨0x24004, 1, 4, 0x0, 0x0, 0x0, 0x0, 0xFFFFFFFF⟩ /- XL_TIMING -/,
  ⟨0x24008, 1, 4, 0x0, 0x0, 0x0, 0x0, 0x3FFF⟩ /- XL_DIG_WAIT -/,
  ⟨0x2400C, 1, 4, 0x0, 0x0, 0x0, 0x1, 0x0⟩ /- XL_STATE -/,
  ⟨0x24010, 1, 4, 0x0, 0x0, 0x0, 0x0, 0x0⟩ /- XL_EPOCH -/,
  ⟨0x24014, 1, 4, 0x0, 0xFF, 0x0, 0x0, 0x0⟩ /- XL_STAT -/,
  ⟨0x24018, 1, 4, 0x0, 0x0, 0x7, 0x0, 0x0⟩ /- XL_CMD -/,
  ⟨0x2401C, 1, 4, 0x0, 0x0, 0x0, 0x0, 0x0⟩ /- XL_CMD_STAT -/,
  ⟨0x24020, 1, 4, 0x0, 0x0, 0x0, 0x0, 0x0⟩ /- XL_DIG_MIS_CNT -/,
  ⟨0x24024, 1, 4, 0x0, 0x0, 0x0, 0x0, 0x0⟩ /- XL_DIG_MISS_CNT -/,
  ⟨0x24028, 1, 4, 0x0, 0x0, 0x0, 0x0, 0x0⟩ /- XL_LOG_POS -/,
  ⟨0x2402C, 1, 4, 0x0, 0x0, 0x0, 0x0, 0x0⟩ /- XL_RESYNC_MS -/,
  ⟨0x24030, 1, 4, 0xFFFFFFFF, 0x0, 0x0, 0x0, 0x0⟩ /- XL_TKO_CNT -/,
  ⟨0x24034, 1, 4, 0x0, 0x0, 0x0, 0x0, 0x0⟩ /- XL_LAST_HB_T -/]

def Reg.kaTab : List RegRow := [
  ⟨0x28000, 1, 4, 0x0, 0x0, 0x0, 0x0, 0x3F⟩ /- KA_CFG -/,
  ⟨0x28004, 1, 4, 0x0, 0x8, 0x0, 0x0, 0x0⟩ /- KA_CKPT_STAT -/,
  ⟨0x28008, 1, 4, 0x0, 0x0, 0x0, 0x0, 0x0⟩ /- KA_CKPT_EPOCH -/,
  ⟨0x2800C, 1, 4, 0x0, 0x0, 0x0, 0x0, 0xFFFFF⟩ /- KA_CKPT_SIZE -/,
  ⟨0x28010, 1, 4, 0x0, 0x0, 0x0, 0x0, 0xFFFFFFFF⟩ /- KA_CKPT_LAYOUT -/,
  ⟨0x28014, 1, 4, 0x0, 0x0, 0x0, 0x0, 0x0⟩ /- KA_SKIP_CNT -/,
  ⟨0x28018, 1, 4, 0x0, 0x0, 0x0, 0x0, 0x0⟩ /- KA_RESTART -/,
  ⟨0x2801C, 1, 4, 0x0, 0x0, 0x0, 0x0, 0x0⟩ /- KA_OUTAGE_MS -/,
  ⟨0x28020, 1, 4, 0x0, 0x0, 0x3, 0x0, 0x0⟩ /- KA_CMD -/,
  ⟨0x28024, 1, 4, 0x0, 0x0, 0x0, 0x0, 0x0⟩ /- KA_CMD_STAT -/]

def Reg.globTab : List RegRow := [
  ⟨0x0, 1, 4, 0x0, 0x0, 0x0, 0x0, 0x0⟩ /- HI_ID -/,
  ⟨0x4, 1, 4, 0x0, 0x0, 0x0, 0x0, 0x0⟩ /- HI_CAP -/,
  ⟨0x8, 1, 4, 0x0, 0x0, 0x0, 0x0, 0x0⟩ /- HI_FW -/,
  ⟨0xC, 1, 4, 0x0, 0x0, 0x0, 0x0, 0xFFFFFFFF⟩ /- HI_IMG -/,
  ⟨0x10, 1, 4, 0x0, 0x0, 0x0, 0x0, 0x0⟩ /- HI_DIE_STATE -/,
  ⟨0x14, 1, 4, 0x0, 0x0, 0x0, 0x0, 0x0⟩ /- HI_LINK -/,
  ⟨0x18, 1, 4, 0x7F, 0x0, 0x0, 0x0, 0x0⟩ /- HI_BAR2_WIN -/,
  ⟨0x20, 1, 4, 0x0, 0x7F, 0x0, 0x0, 0x0⟩ /- HI_IRQ0_STAT -/,
  ⟨0x24, 1, 4, 0x7F, 0x0, 0x0, 0x7F, 0x0⟩ /- HI_IRQ0_MASK -/,
  ⟨0x28, 1, 4, 0x7F, 0x0, 0x0, 0x8, 0x0⟩ /- HI_EVT_CFG -/,
  ⟨0x30, 1, 4, 0x0, 0x0, 0x0, 0x0, 0x0⟩ /- HI_WERR_ADDR -/,
  ⟨0x34, 1, 4, 0x0, 0x20, 0x0, 0x0, 0x0⟩ /- HI_WERR_STAT -/,
  ⟨0x38, 1, 4, 0x0, 0x0, 0x0, 0x0, 0x0⟩ /- HI_WERR_CNT -/]

def Reg.cvTab : List RegRow := [
  ⟨0x2E000, 1, 4, 0x3, 0x0, 0x4, 0x9, 0x0⟩ /- CV_CTL -/,
  ⟨0x2E004, 1, 4, 0x0, 0x0, 0xFFFFFFFF, 0x0, 0x0⟩ /- CV_DATA -/,
  ⟨0x2E008, 1, 4, 0x0, 0x0, 0xFF, 0x0, 0x0⟩ /- CV_DATA_B -/,
  ⟨0x2E00C, 1, 4, 0x3FFFFFFF, 0x0, 0x0, 0x0, 0x0⟩ /- CV_DMA_ADDR -/,
  ⟨0x2E010, 1, 4, 0xFFFFFFF, 0x0, 0x0, 0x0, 0x0⟩ /- CV_DMA_LEN -/,
  ⟨0x2E014, 1, 4, 0x0, 0x0, 0x1, 0x0, 0x0⟩ /- CV_DMA_CMD -/,
  ⟨0x2E018, 1, 4, 0xFFFFFFFF, 0x0, 0x0, 0x0, 0x0⟩ /- CV_VALUE_LO -/,
  ⟨0x2E01C, 1, 4, 0xFFFFFFFF, 0x0, 0x0, 0x0, 0x0⟩ /- CV_VALUE_HI -/,
  ⟨0x2E020, 1, 4, 0x0, 0x0, 0x0, 0x0, 0x0⟩ /- CV_RESULT_LO -/,
  ⟨0x2E024, 1, 4, 0x0, 0x0, 0x0, 0x0, 0x0⟩ /- CV_RESULT_HI -/,
  ⟨0x2E028, 1, 4, 0x0, 0x0, 0x3, 0x0, 0x0⟩ /- CV_CMD -/,
  ⟨0x2E02C, 1, 4, 0xFF, 0x0, 0x0, 0x42, 0x0⟩ /- CV_CFG -/,
  ⟨0x2E040, 1, 4, 0x0, 0x0, 0x0, 0x0, 0x0⟩ /- CV_SRAM_CE_CNT -/,
  ⟨0x2E044, 1, 4, 0x0, 0x0, 0x0, 0x0, 0x0⟩ /- CV_SRAM_UE_CNT -/,
  ⟨0x2E048, 1, 4, 0x0, 0x0, 0x0, 0x0, 0x0⟩ /- CV_DRAM_CE_CNT -/,
  ⟨0x2E04C, 1, 4, 0x0, 0x0, 0x0, 0x0, 0x0⟩ /- CV_DRAM_UE_CNT -/,
  ⟨0x2E050, 1, 4, 0x0, 0x0, 0x0, 0x0, 0x0⟩ /- CV_LAST_ERR -/,
  ⟨0x2E054, 1, 4, 0x0, 0x0, 0x0, 0x0, 0x0⟩ /- CV_LAST_ADDR -/,
  ⟨0x2E058, 1, 4, 0x0, 0x0, 0x0, 0x0, 0x0⟩ /- CV_SCRUB -/,
  ⟨0x2E200, 1, 4, 0xFFFF, 0x0, 0x10000, 0x0, 0x0⟩ /- CV_BIST_CMD -/,
  ⟨0x2E204, 1, 4, 0x0, 0x0, 0x0, 0x0, 0x0⟩ /- CV_BIST_STAT -/,
  ⟨0x2E208, 1, 4, 0x0, 0xFFFF, 0x0, 0x0, 0x0⟩ /- CV_BIST_REJ -/]

def Reg.mgTab : List RegRow := [
  ⟨0x200000, 1, 4, 0x3FFFFFFF, 0x0, 0x80000000, 0x10400000, 0x0⟩ /- MG_MBX_CMD -/,
  ⟨0x200004, 1, 4, 0x0, 0x2, 0x0, 0x0, 0x0⟩ /- MG_MBX_STAT -/,
  ⟨0x200008, 1, 4, 0x0, 0x0, 0x0, 0x0, 0x0⟩ /- MG_SESSION -/,
  ⟨0x200100, 20, 4, 0x0, 0x0, 0x0, 0x0, 0x0⟩ /- MG_TEMP -/,
  ⟨0x200180, 16, 4, 0x0, 0x0, 0x0, 0x0, 0x0⟩ /- MG_VOLT -/,
  ⟨0x2001C0, 1, 4, 0x0, 0x0, 0x0, 0x0, 0x0⟩ /- MG_VBAT -/,
  ⟨0x2001C4, 1, 4, 0xFFFFFFFF, 0x0, 0x0, 0x0, 0x0⟩ /- MG_RESET_CNT -/,
  ⟨0x201000, 1024, 4, 0xFFFFFFFF, 0x0, 0x0, 0x0, 0x0⟩ /- MG_MBX_REQ -/,
  ⟨0x202000, 1024, 4, 0x0, 0x0, 0x0, 0x0, 0x0⟩ /- MG_MBX_RSP -/,
  ⟨0x208000, 1, 4, 0x0, 0x0, 0x0, 0x0, 0x0⟩ /- EV_HEAD_SEQ -/,
  ⟨0x208004, 1, 4, 0x0, 0x0, 0x0, 0x0, 0x0⟩ /- EV_OLDEST_SEQ -/,
  ⟨0x208008, 1, 4, 0x0, 0x0, 0x0, 0x0, 0x0⟩ /- EV_STAGE_FILL -/,
  ⟨0x20800C, 1, 4, 0x0, 0x0, 0x0, 0x0, 0x0⟩ /- EV_LOST_CNT -/,
  ⟨0x208010, 1, 4, 0xFFFFFFFF, 0x0, 0x0, 0x0, 0x0⟩ /- EV_WIN_BASE -/,
  ⟨0x208014, 1, 4, 0x0, 0x3, 0x0, 0x0, 0x0⟩ /- EV_STAT -/,
  ⟨0x20C000, 1, 4, 0x0, 0x10, 0x0, 0x0, 0x0⟩ /- LF_STATE -/,
  ⟨0x20C004, 1, 4, 0x0, 0x0, 0x0, 0x0, 0x0⟩ /- LF_SVN -/,
  ⟨0x20C008, 1, 4, 0x0, 0x0, 0x0, 0x0, 0x0⟩ /- LF_BANK -/,
  ⟨0x220000, 1, 4, 0x0, 0x0, 0x0, 0x0, 0x0⟩ /- BT_STAT -/,
  ⟨0x220004, 1, 4, 0x0, 0x0, 0x0, 0x0, 0x0⟩ /- BT_DIR -/,
  ⟨0x220008, 1, 4, 0x0, 0x0, 0x0, 0x0, 0x0⟩ /- BT_FAIL -/,
  ⟨0x22000C, 1, 4, 0x0, 0x0, 0x0, 0x0, 0x0⟩ /- BT_RETRY -/,
  ⟨0x220010, 1, 4, 0x0, 0x0, 0x0, 0x0, 0x0⟩ /- BT_T_LOAD -/,
  ⟨0x220014, 1, 4, 0x0, 0x0, 0x0, 0x0, 0x0⟩ /- BT_T_RUN -/,
  ⟨0x220018, 1, 4, 0x0, 0x0, 0x0, 0x0, 0x0⟩ /- BT_MEM -/,
  ⟨0x22001C, 1, 4, 0x0, 0x0, 0x0, 0x0, 0x7FF⟩ /- BT_RING_WAIT -/]

def Reg.rcpTab : List RegRow := [
  ⟨0x20000, 1, 4, 0xFF, 0x0, 0x300, 0x0, 0x0⟩ /- SQ_RCP_CTRL -/,
  ⟨0x20004, 1, 4, 0x0, 0x0, 0x0, 0x0, 0x0⟩ /- SQ_RCP_STAT -/]

def Reg.slotTab : List RegRow := [
  ⟨0x0, 1, 4, 0x0, 0x0, 0x0, 0x0, 0x3FFFFF⟩ /- LE_CFG -/,
  ⟨0x4, 1, 4, 0x0, 0x0, 0x0, 0x0, 0xFFFFFFFF⟩ /- LE_PERIOD -/,
  ⟨0x8, 1, 4, 0x0, 0x0, 0x0, 0x0, 0x3FFFFFFF⟩ /- LE_PHASE -/,
  ⟨0xC, 1, 4, 0x0, 0x0, 0x0, 0x0, 0xFFFF⟩ /- LE_FSYNC -/,
  ⟨0x10, 1, 4, 0x0, 0x0, 0x0, 0x0, 0x3FFFFFF⟩ /- LE_IN_SP -/,
  ⟨0x14, 1, 4, 0x0, 0x0, 0x0, 0x0, 0x3FFFFFF⟩ /- LE_IN_PV -/,
  ⟨0x18, 1, 4, 0x0, 0x0, 0x0, 0x0, 0x3FFFFFF⟩ /- LE_IN_AUX0 -/,
  ⟨0x1C, 1, 4, 0x0, 0x0, 0x0, 0x0, 0x3FFFFFF⟩ /- LE_IN_AUX1 -/,
  ⟨0x20, 1, 4, 0x0, 0x0, 0x0, 0x0, 0x3FFFFFF⟩ /- LE_IN_TRK -/,
  ⟨0x24, 1, 4, 0x0, 0x0, 0x0, 0x0, 0x3FFFFFF⟩ /- LE_OUT_DST -/,
  ⟨0x28, 1, 4, 0x7, 0x0, 0x0, 0x0, 0x77⟩ /- LE_MODE -/,
  ⟨0x2C, 1, 4, 0x0, 0x0, 0x3, 0x0, 0x0⟩ /- LE_CMD -/,
  ⟨0x30, 1, 4, 0xFFFFFFFF, 0x0, 0x0, 0x0, 0xFFFFFFFF⟩ /- LE_SP -/,
  ⟨0x34, 1, 4, 0x0, 0x0, 0x0, 0x0, 0x0⟩ /- LE_PV -/,
  ⟨0x38, 1, 4, 0x0, 0x0, 0x0, 0x0, 0x0⟩ /- LE_OUT -/,
  ⟨0x3C, 1, 4, 0x0, 0x0, 0x0, 0x0, 0x0⟩ /- LE_ERR -/,
  ⟨0x40, 1, 4, 0xFFFFFFFF, 0x0, 0x0, 0x0, 0xFFFFFFFF⟩ /- LE_MAN_OUT -/,
  ⟨0x44, 1, 4, 0xFFFFFFFF, 0x0, 0x0, 0x0, 0xFFFFFFFF⟩ /- LE_OUT_HI -/,
  ⟨0x48, 1, 4, 0xFFFFFFFF, 0x0, 0x0, 0x0, 0xFFFFFFFF⟩ /- LE_OUT_LO -/,
  ⟨0x4C, 1, 4, 0xFFFFFFFF, 0x0, 0x0, 0x0, 0xFFFFFFFF⟩ /- LE_OUT_RATE -/,
  ⟨0x50, 1, 4, 0xFFFFFFFF, 0x0, 0x0, 0x0, 0x0⟩ /- LE_AUX0 -/,
  ⟨0x54, 1, 4, 0xFFFFFFFF, 0x0, 0x0, 0x0, 0x0⟩ /- LE_AUX1 -/,
  ⟨0x58, 1, 4, 0xFFFFFFFF, 0x0, 0x0, 0x0, 0x0⟩ /- LE_TRK_VAL -/,
  ⟨0x5C, 8, 4, 0xFFFFFFFF, 0x0, 0x0, 0x0, 0xFFFFFFFF⟩ /- LE_TP -/,
  ⟨0x7C, 1, 4, 0x0, 0x0, 0x0, 0x0, 0xFFFFFFFF⟩ /- LE_TPMAP0 -/,
  ⟨0x80, 1, 4, 0x0, 0x0, 0x0, 0x0, 0xFFFFFFFF⟩ /- LE_TPMAP1 -/,
  ⟨0x84, 1, 4, 0x0, 0xFF, 0x0, 0x0, 0x0⟩ /- LE_STAT -/,
  ⟨0x88, 1, 4, 0x0, 0xFFFF, 0x0, 0x0, 0x0⟩ /- LE_STG_FLAG -/,
  ⟨0x8C, 1, 4, 0x0, 0x0, 0x0, 0x0, 0x0⟩ /- LE_SKIP_CNT -/,
  ⟨0x90, 1, 4, 0xFF, 0x0, 0x0, 0x0, 0xFF⟩ /- LE_OVR -/,
  ⟨0x94, 1, 4, 0x0, 0x0, 0x0, 0x0, 0x0⟩ /- LE_LAST_DELAY -/,
  ⟨0x98, 1, 4, 0x0, 0x0, 0x0, 0x0, 0x0⟩ /- LE_MAX_DELAY -/,
  ⟨0x9C, 1, 4, 0x0, 0x0, 0x0, 0x0, 0x0⟩ /- LE_SAMPLE_T -/,
  ⟨0xA0, 1, 4, 0x0, 0x0, 0x0, 0x0, 0x0⟩ /- LE_SUPERSEDED -/,
  ⟨0xA4, 8, 4, 0x0, 0x0, 0x0, 0x0, 0xFF0FFF1F⟩ /- LE_STG -/,
  ⟨0xC4, 1, 4, 0x0, 0x0, 0x0, 0x0, 0xFFFF⟩ /- LE_SUP_CFG -/,
  ⟨0xC8, 1, 4, 0xFFFFFFFF, 0x0, 0x0, 0x0, 0xFFFFFFFF⟩ /- LE_FE_LIMIT -/,
  ⟨0xCC, 1, 4, 0xFFFFFF, 0x0, 0x0, 0x0, 0xFFFFFF⟩ /- LE_FE_TIME -/,
  ⟨0xD0, 1, 4, 0xFF, 0x0, 0x0, 0x0, 0xFF⟩ /- LE_FB_AGE -/,
  ⟨0xD4, 1, 4, 0xFFFFFFFF, 0x0, 0x0, 0x0, 0xFFFFFFFF⟩ /- LE_FRZ_BAND -/,
  ⟨0xD8, 1, 4, 0xFFFFFF, 0x0, 0x0, 0x0, 0xFFFFFF⟩ /- LE_FRZ_N -/,
  ⟨0xDC, 1, 4, 0xFFFFFFFF, 0x0, 0x0, 0x0, 0xFFFFFFFF⟩ /- LE_MOVE_MIN -/,
  ⟨0xE0, 1, 4, 0xFFFFFFFF, 0x0, 0x0, 0x0, 0xFFFFFFFF⟩ /- LE_OPEN_OUT -/,
  ⟨0xE4, 1, 4, 0x0, 0x78, 0x0, 0x0, 0x0⟩ /- LE_SUP_STAT -/,
  ⟨0xE8, 1, 4, 0x0, 0x0, 0x1, 0x0, 0x0⟩ /- LE_SUP_CMD -/,
  ⟨0xEC, 1, 4, 0x0, 0x0, 0x0, 0x0, 0x0⟩ /- LE_FE_CNT -/,
  ⟨0xF0, 1, 4, 0x0, 0x0, 0x0, 0x0, 0x0⟩ /- LE_FRZ_CNT -/,
  ⟨0xF4, 1, 4, 0x0, 0x0, 0x0, 0x0, 0x0⟩ /- LE_SUP_EVT_CNT -/,
  ⟨0xF8, 1, 4, 0x0, 0x0, 0x0, 0x0, 0x0⟩ /- LE_SUP_T -/]

def Reg.cluTab : List RegRow := [
  ⟨0x0, 1, 4, 0x0, 0x0, 0x0, 0x0, 0x0⟩ /- LC_ID -/,
  ⟨0x4, 1, 4, 0x0, 0xE, 0x0, 0x0, 0x0⟩ /- LC_STAT -/,
  ⟨0x8, 1, 4, 0x0, 0x0, 0x0, 0x0, 0xFFFFFFFF⟩ /- LC_LOAD_CFG -/,
  ⟨0xC, 1, 4, 0x0, 0x0, 0x0, 0x0, 0x0⟩ /- LC_BUSY -/,
  ⟨0x10, 1, 4, 0x0, 0x0, 0x80000000, 0x0, 0x0⟩ /- LC_BUSY_MAX -/,
  ⟨0x14, 1, 4, 0x0, 0x0, 0x0, 0x0, 0x0⟩ /- LC_RES_RETRY_CNT -/,
  ⟨0x18, 1, 4, 0x0, 0x0, 0x0, 0x0, 0x0⟩ /- LC_SKIP_CNT -/,
  ⟨0x1C, 1, 4, 0x80003FFC, 0x0, 0x0, 0x0, 0x0⟩ /- LC_LAW_ADDR -/,
  ⟨0x20, 1, 4, 0xFFFFFFFF, 0x0, 0x0, 0x0, 0x0⟩ /- LC_LAW_DATA -/,
  ⟨0x40, 1, 4, 0x1F, 0x0, 0x60, 0x0, 0x0⟩ /- LC_SW_CTRL -/,
  ⟨0x44, 1, 4, 0xFFF, 0x0, 0x0, 0x38, 0x0⟩ /- LC_SW_CFG -/,
  ⟨0x48, 1, 4, 0xFFFFFFFF, 0x0, 0x0, 0x0, 0x0⟩ /- LC_SW_AMP -/,
  ⟨0x4C, 1, 4, 0xFFFFFFFF, 0x0, 0x0, 0x0, 0x0⟩ /- LC_SW_OUT_HI -/,
  ⟨0x50, 1, 4, 0xFFFFFFFF, 0x0, 0x0, 0x0, 0x0⟩ /- LC_SW_OUT_LO -/,
  ⟨0x54, 1, 4, 0xFFFFFF, 0x0, 0x0, 0x0, 0x0⟩ /- LC_SW_PRE -/,
  ⟨0x58, 1, 4, 0xFFFFFF, 0x0, 0x0, 0x0, 0x0⟩ /- LC_SW_LEN -/,
  ⟨0x5C, 1, 4, 0xFFFFFF, 0x0, 0x0, 0x0, 0x0⟩ /- LC_SW_POST -/,
  ⟨0x60, 1, 4, 0xFFFF, 0x0, 0x0, 0x0, 0x0⟩ /- LC_SW_HOLD -/,
  ⟨0x64, 1, 4, 0xFFFFFFFF, 0x0, 0x0, 0x0, 0x0⟩ /- LC_SW_F0 -/,
  ⟨0x68, 1, 4, 0xFFFFFFFF, 0x0, 0x0, 0x0, 0x0⟩ /- LC_SW_F1 -/,
  ⟨0x6C, 1, 4, 0x7FFF, 0x0, 0x0, 0x7FFF, 0x0⟩ /- LC_SW_SEED -/,
  ⟨0x70, 1, 4, 0x0, 0x8, 0x0, 0x0, 0x0⟩ /- LC_SW_STAT -/,
  ⟨0x74, 1, 4, 0x0, 0x0, 0x0, 0x0, 0x0⟩ /- LC_SW_CNT -/,
  ⟨0x78, 1, 4, 0x0, 0x0, 0x0, 0x0, 0x0⟩ /- LC_SW_T0 -/,
  ⟨0xC0, 1, 4, 0x0, 0xA, 0x0, 0x0, 0x0⟩ /- LC_SEN_STAT -/,
  ⟨0xC4, 1, 4, 0x0, 0x0, 0x1, 0x0, 0x0⟩ /- LC_SEN_CMD -/,
  ⟨0xC8, 1, 4, 0x0, 0x0, 0x0, 0x0, 0x0⟩ /- LC_SEN_CNT -/,
  ⟨0xCC, 1, 4, 0x0, 0x0, 0x0, 0x0, 0x0⟩ /- LC_SEN_FAIL_CNT -/,
  ⟨0xD0, 1, 4, 0x0, 0x0, 0x0, 0x0, 0x0⟩ /- LC_SEN_LAST_T -/]

def Reg.laneTab : List RegRow := [
  ⟨0x0, 1, 4, 0x0, 0x0, 0x0, 0x0, 0x3F⟩ /- SQ_CFG -/,
  ⟨0x4, 1, 4, 0x0, 0x0, 0x0, 0x0, 0x0⟩ /- SQ_STATE -/,
  ⟨0x8, 1, 4, 0x0, 0x0, 0x0, 0x0, 0x0⟩ /- SQ_POS -/,
  ⟨0xC, 1, 4, 0x0, 0x0, 0x0, 0x0, 0x0⟩ /- SQ_TIMER -/,
  ⟨0x10, 1, 4, 0x0, 0x0, 0x0, 0x0, 0x0⟩ /- SQ_SEQ -/,
  ⟨0x14, 1, 4, 0x0, 0x0, 0x7, 0x0, 0x0⟩ /- SQ_CMD -/,
  ⟨0x18, 1, 4, 0xFFFFFFFF, 0x0, 0x0, 0x0, 0x0⟩ /- SQ_CMD_ARG -/,
  ⟨0x1C, 1, 4, 0x0, 0x3F, 0x0, 0x0, 0x0⟩ /- SQ_STAT -/,
  ⟨0x20, 1, 4, 0x0, 0x0, 0x0, 0x0, 0x0⟩ /- SQ_REJ -/,
  ⟨0x24, 4, 4, 0x0, 0x0, 0x0, 0x0, 0x0⟩ /- SQ_RC -/,
  ⟨0x34, 1, 4, 0x0, 0x0, 0x0, 0x0, 0x0⟩ /- SQ_MISS_CNT -/,
  ⟨0x38, 1, 4, 0x0, 0x0, 0x0, 0x0, 0x0⟩ /- SQ_FROG_CNT -/,
  ⟨0x3C, 1, 4, 0x0, 0x0, 0x0, 0x0, 0x0⟩ /- SQ_ACT_JRNL -/,
  ⟨0x40, 8, 4, 0x0, 0x0, 0x0, 0x0, 0x0⟩ /- SQ_STG -/,
  ⟨0x60, 4, 4, 0x0, 0x0, 0x0, 0x0, 0x0⟩ /- SQ_EXV -/,
  ⟨0x70, 4, 4, 0x0, 0x0, 0x0, 0x0, 0x0⟩ /- SQ_DWL -/,
  ⟨0x80, 8, 4, 0x0, 0x0, 0x0, 0x0, 0x0⟩ /- SQ_LT -/,
  ⟨0xA0, 1, 4, 0x0, 0x0, 0x0, 0x0, 0x0⟩ /- SQ_ABORT_ENT -/]

def Reg.netTab : List RegRow := [
  ⟨0x0, 1, 4, 0x0, 0x0, 0x0, 0x0, 0x0⟩ /- NE_ID -/,
  ⟨0x4, 1, 4, 0x0, 0x0, 0x0, 0x0, 0x3FFF⟩ /- NE_CFG -/,
  ⟨0x8, 1, 4, 0x0, 0xF, 0x0, 0x0, 0x0⟩ /- NE_STAT -/,
  ⟨0xC, 1, 4, 0x0, 0x0, 0x0, 0x0, 0x0⟩ /- NE_LAST_NODE -/,
  ⟨0x10, 1, 4, 0x0, 0x0, 0x0, 0x0, 0x0⟩ /- NE_RES_RETRY_CNT -/,
  ⟨0x14, 1, 4, 0x0, 0x0, 0x0, 0x0, 0x0⟩ /- NE_STALL_CNT -/,
  ⟨0x18, 1, 4, 0x0, 0x0, 0x0, 0x0, 0x0⟩ /- NE_BUSY -/,
  ⟨0x1C, 1, 4, 0x0, 0x0, 0x80000000, 0x0, 0x0⟩ /- NE_BUSY_MAX -/,
  ⟨0x20, 1, 4, 0x0, 0x0, 0x0, 0x0, 0x0⟩ /- NE_CHK_POS -/,
  ⟨0x24, 1, 4, 0x0, 0x0, 0x0, 0x0, 0xFFFFFFFF⟩ /- NE_CONST_CRC -/,
  ⟨0x28, 1, 4, 0x0, 0x0, 0x0, 0x0, 0x0⟩ /- NE_CHK_RETRY_CNT -/,
  ⟨0x100, 64, 4, 0x0, 0x0, 0x0, 0x0, 0xFFFFFFFF⟩ /- NE_BLK_CRC -/]

def Reg.rsTab : List RegRow := [
  ⟨0x60000, 1, 4, 0x0, 0x3, 0x0, 0x0, 0x0⟩ /- TK_RS_STAT -/,
  ⟨0x60004, 1, 4, 0x0, 0x0, 0x0, 0x0, 0x0⟩ /- TK_FLAGS_LO -/,
  ⟨0x60008, 1, 4, 0x0, 0x0, 0x0, 0x0, 0x0⟩ /- TK_FLAGS_HI -/,
  ⟨0x6000C, 1, 4, 0x0, 0x0, 0x0, 0x0, 0xFFFFFFFF⟩ /- TK_CONSUME_LO -/,
  ⟨0x60010, 1, 4, 0x0, 0x0, 0x0, 0x0, 0xFFFFFFFF⟩ /- TK_CONSUME_HI -/]

def Reg.taskTab : List RegRow := [
  ⟨0x0, 1, 4, 0x0, 0x0, 0x0, 0x0, 0x1FFFFFFF⟩ /- TK_CFG -/,
  ⟨0x4, 1, 4, 0x0, 0x0, 0x0, 0x0, 0xFFFFFFFF⟩ /- TK_TIME -/,
  ⟨0x8, 1, 4, 0x0, 0x0, 0x0, 0x0, 0xFFFFFFFF⟩ /- TK_MASK_LO -/,
  ⟨0xC, 1, 4, 0x0, 0x0, 0x0, 0x0, 0xFFFFFFFF⟩ /- TK_MASK_HI -/,
  ⟨0x10, 1, 4, 0x0, 0x0, 0x0, 0x1, 0x0⟩ /- TK_STATE -/,
  ⟨0x14, 1, 4, 0x0, 0x0, 0x0, 0x0, 0x0⟩ /- TK_RUNS -/,
  ⟨0x18, 1, 4, 0x0, 0x0, 0x0, 0x0, 0x0⟩ /- TK_LOST -/,
  ⟨0x1C, 1, 4, 0x0, 0x0, 0x80000000, 0x0, 0x0⟩ /- TK_EXEC_MAX -/]

def Reg.flowTab : List RegRow := [
  ⟨0x0, 1, 4, 0x0, 0x0, 0x0, 0x0, 0x7FFFFFFF⟩ /- FL_CFG -/,
  ⟨0x4, 1, 4, 0x0, 0x0, 0x0, 0x0, 0xFFFFFFFF⟩ /- FL_TO -/,
  ⟨0x8, 1, 4, 0x0, 0x0, 0x0, 0x0, 0xFFFF⟩ /- FL_HOLD -/,
  ⟨0xC, 1, 4, 0x0, 0x0, 0x0, 0x0, 0x0⟩ /- FL_STAT -/]

def Reg.axisTab : List RegRow := [
  ⟨0x0, 1, 4, 0x0, 0x0, 0x0, 0x0, 0x7FF⟩ /- AX_CFG -/,
  ⟨0x4, 1, 4, 0x0, 0x0, 0x0, 0x0, 0xFFFFF⟩ /- AX_OUT_REF -/,
  ⟨0x8, 1, 4, 0x0, 0x0, 0x0, 0x0, 0xFFFFFFFF⟩ /- AX_LIM_NEG_LO -/,
  ⟨0xC, 1, 4, 0x0, 0x0, 0x0, 0x0, 0xFFFFFFFF⟩ /- AX_LIM_NEG_HI -/,
  ⟨0x10, 1, 4, 0x0, 0x0, 0x0, 0x0, 0xFFFFFFFF⟩ /- AX_LIM_POS_LO -/,
  ⟨0x14, 1, 4, 0x0, 0x0, 0x0, 0x0, 0xFFFFFFFF⟩ /- AX_LIM_POS_HI -/,
  ⟨0x18, 1, 4, 0xFFFFFFFF, 0x0, 0x0, 0x0, 0xFFFFFFFF⟩ /- AX_TGT_LO -/,
  ⟨0x1C, 1, 4, 0xFFFFFFFF, 0x0, 0x0, 0x0, 0xFFFFFFFF⟩ /- AX_TGT_HI -/,
  ⟨0x20, 1, 4, 0xFFFFFFFF, 0x0, 0x0, 0x0, 0xFFFFFFFF⟩ /- AX_VMAX -/,
  ⟨0x24, 1, 4, 0xFFFFFFFF, 0x0, 0x0, 0x0, 0xFFFFFFFF⟩ /- AX_AMAX -/,
  ⟨0x28, 1, 4, 0xFFFFFFFF, 0x0, 0x0, 0x0, 0xFFFFFFFF⟩ /- AX_DMAX -/,
  ⟨0x2C, 1, 4, 0xFFFFFFFF, 0x0, 0x0, 0x0, 0xFFFFFFFF⟩ /- AX_JMAX -/,
  ⟨0x30, 1, 4, 0xFFFFFFFF, 0x0, 0x0, 0x0, 0xFFFFFFFF⟩ /- AX_DSTOP -/,
  ⟨0x34, 1, 4, 0x1FFFF, 0x0, 0x0, 0x0, 0x0⟩ /- AX_MOVE_REQ -/,
  ⟨0x38, 1, 4, 0x0, 0x0, 0x7, 0x0, 0x0⟩ /- AX_CMD -/,
  ⟨0x3C, 1, 4, 0xFFFFFFFF, 0x0, 0x0, 0x0, 0x0⟩ /- AX_CMD_ARG_LO -/,
  ⟨0x40, 1, 4, 0xFFFFFFFF, 0x0, 0x0, 0x0, 0x0⟩ /- AX_CMD_ARG_HI -/,
  ⟨0x44, 1, 4, 0x0, 0x0, 0x0, 0x0, 0x0⟩ /- AX_STATE -/,
  ⟨0x48, 1, 4, 0x0, 0x0, 0x0, 0x0, 0xFFFFFFFF⟩ /- AX_POS_LO -/,
  ⟨0x4C, 1, 4, 0x0, 0x0, 0x0, 0x0, 0xFFFFFFFF⟩ /- AX_POS_HI -/,
  ⟨0x50, 1, 4, 0x0, 0x0, 0x0, 0x0, 0x0⟩ /- AX_VEL -/,
  ⟨0x54, 1, 4, 0x0, 0x0, 0x0, 0x0, 0x0⟩ /- AX_ACC -/,
  ⟨0x58, 1, 4, 0x0, 0x0, 0x0, 0x0, 0x0⟩ /- AX_MOVE_CNT -/,
  ⟨0x5C, 1, 4, 0x0, 0x0, 0x0, 0x0, 0x0⟩ /- AX_REMAIN_LO -/,
  ⟨0x60, 1, 4, 0x0, 0x0, 0x0, 0x0, 0x0⟩ /- AX_REMAIN_HI -/,
  ⟨0x64, 1, 4, 0x0, 0x0, 0x0, 0x0, 0x0⟩ /- AX_OVERSHOOT_LO -/,
  ⟨0x68, 1, 4, 0x0, 0x0, 0x0, 0x0, 0x0⟩ /- AX_OVERSHOOT_HI -/,
  ⟨0x6C, 1, 4, 0x0, 0x1F, 0x0, 0x0, 0x0⟩ /- AX_STAT -/,
  ⟨0x70, 1, 4, 0x0, 0x0, 0x0, 0x0, 0xFFFFFFFF⟩ /- AX_USE_VMAX -/,
  ⟨0x74, 1, 4, 0x0, 0x0, 0x0, 0x0, 0xFFFFFFFF⟩ /- AX_USE_AMAX -/,
  ⟨0x78, 1, 4, 0x0, 0x0, 0x0, 0x0, 0xFFFFFFFF⟩ /- AX_USE_DMAX -/,
  ⟨0x7C, 1, 4, 0x0, 0x0, 0x0, 0x0, 0xFFFFFFFF⟩ /- AX_USE_JMAX -/,
  ⟨0x80, 1, 4, 0x0, 0x0, 0x0, 0x0, 0xFF03⟩ /- AX_ST_CFG -/,
  ⟨0x84, 1, 4, 0x0, 0x0, 0x0, 0x0, 0xFFFF⟩ /- AX_ST_TOFF -/,
  ⟨0x88, 1, 4, 0xFFFFFFFF, 0x0, 0x0, 0x0, 0xFFFFFFFF⟩ /- AX_ST_IBASE -/,
  ⟨0x8C, 1, 4, 0xFFFFFFFF, 0x0, 0x0, 0x0, 0xFFFFFFFF⟩ /- AX_ST_IBOOST -/,
  ⟨0x90, 1, 4, 0xFFFFFFFF, 0x0, 0x0, 0x0, 0xFFFFFFFF⟩ /- AX_ST_IHOLD -/,
  ⟨0x94, 1, 4, 0xFFFF, 0x0, 0x0, 0x0, 0xFFFF⟩ /- AX_ST_FSGAIN -/,
  ⟨0x98, 1, 4, 0xFFFFFFFF, 0x0, 0x0, 0x0, 0xFFFFFFFF⟩ /- AX_ST_LA_MIN -/,
  ⟨0x9C, 1, 4, 0xFFFFFFFF, 0x0, 0x0, 0x0, 0xFFFFFFFF⟩ /- AX_ST_LA_MAX -/,
  ⟨0xA0, 1, 4, 0xFFFFFFFF, 0x0, 0x0, 0x0, 0xFFFFFFFF⟩ /- AX_ST_LA_ALPHA -/,
  ⟨0xA4, 1, 4, 0xFFFFFFFF, 0x0, 0x0, 0x0, 0xFFFFFFFF⟩ /- AX_ST_STALL_ANGLE -/,
  ⟨0xA8, 1, 4, 0xFFFFFF, 0x0, 0x0, 0x0, 0xFFFFFF⟩ /- AX_ST_STALL_TIME -/,
  ⟨0xAC, 1, 4, 0xFFFFFFFF, 0x0, 0x0, 0x0, 0xFFFFFFFF⟩ /- AX_ST_IRATE -/,
  ⟨0xB0, 1, 4, 0xFFFF, 0x0, 0x0, 0x0, 0xFFFF⟩ /- AX_ST_HOLD_DELAY -/,
  ⟨0xB4, 1, 4, 0x0, 0x0, 0x0, 0x0, 0xFFFFFFFF⟩ /- AX_ST_ASCALE -/,
  ⟨0xC0, 8, 4, 0xFFFFFFFF, 0x0, 0x0, 0x0, 0xFFFFFFFF⟩ /- AX_ST_VTH -/,
  ⟨0xE0, 1, 4, 0x0, 0x0, 0x0, 0x0, 0x0⟩ /- AX_ST_STAT -/,
  ⟨0xE4, 1, 4, 0x0, 0x0, 0x0, 0x0, 0x0⟩ /- AX_ST_ICMD -/,
  ⟨0xE8, 1, 4, 0x0, 0x0, 0x0, 0x0, 0x0⟩ /- AX_ST_LOAD -/,
  ⟨0xEC, 1, 4, 0x0, 0x0, 0x0, 0x0, 0x0⟩ /- AX_ST_ANGLE -/]

def Reg.pairTab : List RegRow := [
  ⟨0x0, 1, 4, 0x0, 0x0, 0x0, 0x0, 0xFFFFF⟩ /- PW_CFG -/,
  ⟨0x4, 1, 4, 0x1FFFFFFF, 0x0, 0x0, 0x0, 0x1FFFFFFF⟩ /- PW_PER -/,
  ⟨0x8, 1, 4, 0xFFFFFFFF, 0x0, 0x0, 0x0, 0xFFFFFFFF⟩ /- PW_DUTY -/,
  ⟨0xC, 1, 4, 0x1FFFFFFF, 0x0, 0x0, 0x0, 0x1FFFFFFF⟩ /- PW_TOFF -/,
  ⟨0x10, 1, 4, 0x1FFFFFFF, 0x0, 0x0, 0x0, 0x1FFFFFFF⟩ /- PW_PHASE -/,
  ⟨0x14, 1, 4, 0x0, 0x0, 0x1, 0x0, 0x0⟩ /- PW_COMMIT -/,
  ⟨0x18, 1, 4, 0x0, 0x0, 0x0, 0x0, 0xFFFFFFFF⟩ /- PW_DT -/,
  ⟨0x1C, 1, 4, 0x0, 0x0, 0x0, 0x0, 0x3F⟩ /- PW_GUARD -/,
  ⟨0x20, 1, 4, 0x0, 0x0, 0x0, 0x0, 0xFFFF⟩ /- PW_PWMIN -/,
  ⟨0x24, 1, 4, 0x0, 0x0, 0x0, 0x0, 0x0⟩ /- PW_ACT_PER -/,
  ⟨0x28, 1, 4, 0x0, 0x0, 0x0, 0x0, 0x0⟩ /- PW_ACT_DUTY -/,
  ⟨0x2C, 1, 4, 0x0, 0x0, 0x0, 0x0, 0x0⟩ /- PW_DT_RISE -/,
  ⟨0x30, 1, 4, 0x0, 0x0, 0x0, 0x0, 0x0⟩ /- PW_DT_FALL -/,
  ⟨0x34, 1, 4, 0x0, 0x47, 0x0, 0x0, 0x0⟩ /- PW_STAT -/,
  ⟨0x38, 1, 4, 0x0, 0x0, 0x0, 0x0, 0x0⟩ /- PW_MINPULSE_CNT -/,
  ⟨0x3C, 1, 4, 0x0, 0x0, 0x0, 0x0, 0x0⟩ /- PW_NOCOMM_CNT -/,
  ⟨0x40, 1, 4, 0x0, 0x0, 0x0, 0x0, 0x0⟩ /- PW_RELOAD_T -/]

def Reg.pwcTab : List RegRow := [
  ⟨0x30C00, 1, 4, 0x0, 0x0, 0xFFF, 0x0, 0x0⟩ /- PW_GCOMMIT -/,
  ⟨0x30C04, 1, 4, 0x0, 0xC0, 0x0, 0x0, 0x0⟩ /- PW_DL_STAT -/,
  ⟨0x30C08, 1, 4, 0x0, 0x0, 0x0, 0x0, 0x0⟩ /- PW_DL_SWAPS -/,
  ⟨0x30C10, 3, 4, 0x0, 0x0, 0x0, 0x0, 0x7FF⟩ /- PW_TRIP_CFG -/,
  ⟨0x30C1C, 1, 4, 0x0, 0x700, 0x0, 0x0, 0x0⟩ /- PW_TRIP_STAT -/]

def Reg.sdiTab : List RegRow := [
  ⟨0x0, 1, 4, 0x0, 0x0, 0x0, 0x0, 0x3FFFF⟩ /- SD_CFG -/,
  ⟨0x4, 1, 4, 0x0, 0x0, 0x0, 0x0, 0x0⟩ /- SD_MAIN -/,
  ⟨0x8, 1, 4, 0x0, 0x0, 0x0, 0x0, 0x0⟩ /- SD_FAST -/,
  ⟨0xC, 1, 4, 0xFFFF, 0x0, 0x0, 0x0, 0xFFFF⟩ /- SD_THR_HI -/,
  ⟨0x10, 1, 4, 0xFFFF, 0x0, 0x0, 0x0, 0xFFFF⟩ /- SD_THR_LO -/,
  ⟨0x14, 1, 4, 0xFFFF, 0x0, 0x0, 0x0, 0xFFFF⟩ /- SD_HYST -/,
  ⟨0x18, 1, 4, 0x0, 0x38, 0x0, 0x0, 0x0⟩ /- SD_STAT -/,
  ⟨0x1C, 1, 4, 0x0, 0x0, 0x0, 0x0, 0x0⟩ /- SD_MAIN_T -/,
  ⟨0x20, 1, 4, 0x0, 0x0, 0x0, 0x0, 0x0⟩ /- SD_CNT -/]

def Reg.sdgTab : List RegRow := [
  ⟨0x31400, 1, 4, 0x0, 0x0, 0x0, 0x0, 0x7FFF⟩ /- SD_GRP_CFG -/,
  ⟨0x31404, 1, 4, 0x0, 0x2, 0x0, 0x0, 0x0⟩ /- SD_GRP_STAT -/]

def Reg.streamTab : List RegRow := [
  ⟨0x0, 1, 4, 0x0, 0x0, 0x0, 0x0, 0x1FFF1FFF⟩ /- RS_S_CFG -/,
  ⟨0x4, 1, 4, 0x0, 0x0, 0x0, 0x0, 0x0⟩ /- RS_S_FILL -/,
  ⟨0x8, 1, 4, 0x0, 0x0, 0x80000000, 0x0, 0x0⟩ /- RS_S_FILL_MAX -/,
  ⟨0xC, 1, 4, 0x0, 0x0, 0x0, 0x0, 0x0⟩ /- RS_S_BSEQ -/,
  ⟨0x10, 1, 4, 0x0, 0x0, 0x0, 0x0, 0x0⟩ /- RS_S_LOST -/,
  ⟨0x14, 1, 4, 0x0, 0x0, 0x0, 0x0, 0x0⟩ /- RS_S_GAPS -/,
  ⟨0x18, 1, 4, 0x0, 0x0, 0x0, 0x0, 0x0⟩ /- RS_S_STAT -/]

def Reg.ceTab : List RegRow := [
  ⟨0x80000, 1, 4, 0x3FFFFFFF, 0x0, 0x0, 0x0, 0x7FFFFFFF⟩ /- CE_CFG -/,
  ⟨0x80004, 1, 4, 0xFFFFF, 0x0, 0x0, 0x0, 0xFFFFF⟩ /- CE_PERIOD -/,
  ⟨0x80008, 1, 4, 0xFFFFF, 0x0, 0x0, 0x0, 0xFFFFF⟩ /- CE_PHASE -/,
  ⟨0x8000C, 1, 4, 0xFFFFFF, 0x0, 0x0, 0x0, 0xFFFFFF⟩ /- CE_PRE -/,
  ⟨0x80010, 1, 4, 0xFFFFFFFF, 0x0, 0x0, 0x0, 0xFFFFFFFF⟩ /- CE_POST -/,
  ⟨0x80014, 1, 4, 0x7FFFF, 0x0, 0x0, 0x0, 0x7FFFF⟩ /- CE_TRG -/,
  ⟨0x80018, 1, 4, 0xFFFFFFFF, 0x0, 0x0, 0x0, 0xFFFFFFFF⟩ /- CE_LEVEL -/,
  ⟨0x8001C, 1, 4, 0xFFFFFFFF, 0x0, 0x0, 0x0, 0xFFFFFFFF⟩ /- CE_HYST -/,
  ⟨0x80020, 1, 4, 0xFFFFFFFF, 0x0, 0x0, 0x0, 0xFFFFFFFF⟩ /- CE_HOLDOFF -/,
  ⟨0x80024, 1, 4, 0x0, 0x0, 0x7, 0x0, 0x0⟩ /- CE_CTRL -/,
  ⟨0x80028, 1, 4, 0x0, 0x178, 0x0, 0x0, 0x0⟩ /- CE_STAT -/,
  ⟨0x8002C, 1, 4, 0x0, 0x0, 0x0, 0x0, 0x0⟩ /- CE_TRG_CNT -/,
  ⟨0x80030, 1, 4, 0x0, 0x0, 0x0, 0x0, 0x0⟩ /- CE_SUPP_CNT -/,
  ⟨0x80034, 1, 4, 0x0, 0x0, 0x0, 0x0, 0x0⟩ /- CE_WIN_ID -/,
  ⟨0x80038, 1, 4, 0x0, 0x0, 0x0, 0x0, 0x0⟩ /- CE_TRG_T -/,
  ⟨0x8003C, 1, 4, 0x0, 0x0, 0x0, 0x0, 0x0⟩ /- CE_PRE_ACT -/,
  ⟨0x80040, 1, 4, 0x0, 0x0, 0x0, 0x0, 0x3FF03FF⟩ /- CE_POOL_CFG -/,
  ⟨0x80044, 1, 4, 0x0, 0x0, 0x0, 0x0, 0xFFFFFFFF⟩ /- CE_POOL_FREE -/,
  ⟨0x80100, 64, 4, 0x3FFFFF, 0x0, 0x0, 0x0, 0x3FFFFF⟩ /- CE_PROBE -/]

def Reg.portTab : List RegRow := [
  ⟨0x0, 1, 4, 0x0, 0x0, 0x0, 0x0, 0x7⟩ /- FP_CFG -/,
  ⟨0x4, 1, 4, 0x0, 0x1E, 0x0, 0x0, 0x0⟩ /- FP_STAT -/,
  ⟨0x8, 1, 4, 0x0, 0x0, 0x0, 0x0, 0x0⟩ /- FP_TX_CNT -/,
  ⟨0xC, 1, 4, 0x0, 0x0, 0x0, 0x0, 0x0⟩ /- FP_RX_CNT -/,
  ⟨0x10, 1, 4, 0x0, 0x0, 0x0, 0x0, 0x0⟩ /- FP_FCS_CNT -/,
  ⟨0x14, 1, 4, 0x0, 0x0, 0x0, 0x0, 0x0⟩ /- FP_DROP_CNT -/,
  ⟨0x18, 1, 4, 0x0, 0x0, 0x0, 0x0, 0x0⟩ /- FP_REW_CNT -/]

def Reg.fringTab : List RegRow := [
  ⟨0x100, 1, 4, 0x0, 0x0, 0x0, 0x0, 0x7FFFF07⟩ /- FP_RING_CFG -/,
  ⟨0x104, 1, 4, 0x0, 0x0, 0x0, 0x0, 0xFFFF⟩ /- FP_ETYPE -/,
  ⟨0x108, 1, 4, 0x0, 0x0, 0x0, 0x0, 0x7FFFFF⟩ /- FP_TAIL_START -/,
  ⟨0x10C, 1, 4, 0x0, 0x1E, 0x0, 0x0, 0x0⟩ /- FP_RING_STAT -/,
  ⟨0x110, 1, 4, 0x0, 0x0, 0x0, 0x0, 0x0⟩ /- FP_UNKNOWN_EUI_LO -/,
  ⟨0x114, 1, 4, 0x0, 0x0, 0x0, 0x0, 0x0⟩ /- FP_UNKNOWN_EUI_HI -/,
  ⟨0x118, 1, 4, 0x7F, 0x0, 0x380, 0x0, 0x0⟩ /- FP_STN_CMD -/,
  ⟨0x11C, 1, 4, 0x0, 0x0, 0x0, 0x0, 0x0⟩ /- FP_STN_CMD_STAT -/,
  ⟨0x120, 1, 4, 0x0, 0x0, 0x80000000, 0x0, 0x0⟩ /- FP_LAND_MAX -/,
  ⟨0x124, 1, 4, 0x0, 0x0, 0x0, 0x0, 0x7FFFFF⟩ /- FP_MODEL_LAND -/]

def Reg.stnTab : List RegRow := [
  ⟨0x0, 1, 4, 0x0, 0x0, 0x0, 0x0, 0xFFFFFFFF⟩ /- FP_S_EUI_LO -/,
  ⟨0x4, 1, 4, 0x0, 0x0, 0x0, 0x0, 0xFFFFFFFF⟩ /- FP_S_EUI_HI -/,
  ⟨0x8, 1, 4, 0x0, 0x0, 0x0, 0x0, 0xFFFFFFFF⟩ /- FP_S_TYPE -/,
  ⟨0xC, 1, 4, 0x0, 0x0, 0x0, 0x0, 0xFFFFFFFF⟩ /- FP_S_CRC -/,
  ⟨0x10, 1, 4, 0x0, 0x0, 0x0, 0x0, 0xFFFFFFFF⟩ /- FP_S_MAP -/,
  ⟨0x14, 1, 4, 0x0, 0x0, 0x0, 0x0, 0x3FFFFFF⟩ /- FP_S_LEN -/,
  ⟨0x18, 1, 4, 0x0, 0x0, 0x0, 0x0, 0x3FFF⟩ /- FP_S_HOLD -/,
  ⟨0x1C, 1, 4, 0x0, 0x0, 0x0, 0x0, 0x0⟩ /- FP_S_STAT -/,
  ⟨0x20, 1, 4, 0x0, 0x0, 0x0, 0x0, 0x0⟩ /- FP_S_ISTAT -/,
  ⟨0x24, 1, 4, 0x0, 0x0, 0x0, 0x0, 0x0⟩ /- FP_S_MISS_CNT -/,
  ⟨0x28, 1, 4, 0x0, 0x0, 0x0, 0x0, 0x0⟩ /- FP_S_WKC_ERR_CNT -/,
  ⟨0x2C, 1, 4, 0x0, 0x0, 0x0, 0x0, 0x0⟩ /- FP_S_DUP_CNT -/,
  ⟨0x30, 1, 4, 0x0, 0x0, 0x0, 0x0, 0x0⟩ /- FP_S_ADMIT_CNT -/,
  ⟨0x34, 1, 4, 0x0, 0x0, 0x0, 0x0, 0x0⟩ /- FP_S_LAND_T -/]

def Reg.canTab : List RegRow := [
  ⟨0x0, 1, 4, 0x0, 0x0, 0x0, 0x0, 0x3FF⟩ /- CF_CFG -/,
  ⟨0x4, 1, 4, 0x3, 0x0, 0x0, 0x0, 0x3⟩ /- CF_MODE -/,
  ⟨0x8, 1, 4, 0x3FFFFF, 0x0, 0x0, 0x0, 0x3FFFFF⟩ /- CF_NBT -/,
  ⟨0xC, 1, 4, 0x1FFFFF, 0x0, 0x0, 0x0, 0x1FFFFF⟩ /- CF_DBT -/,
  ⟨0x10, 1, 4, 0x1F, 0x0, 0x0, 0x0, 0x1F⟩ /- CF_PRESC -/,
  ⟨0x14, 1, 4, 0x0, 0x1FE0, 0x0, 0x0, 0x0⟩ /- CF_STAT -/,
  ⟨0x18, 1, 4, 0x0, 0x0, 0x0, 0x0, 0x0⟩ /- CF_ERRCNT -/,
  ⟨0x1C, 1, 4, 0x3F00, 0x0, 0x3, 0x0, 0x0⟩ /- CF_CMD -/,
  ⟨0x20, 1, 4, 0x0, 0x0, 0x0, 0x0, 0x0⟩ /- CF_TDC_MEAS -/,
  ⟨0x24, 1, 4, 0x0, 0x0, 0x0, 0x0, 0x0⟩ /- CF_COLL_ID -/,
  ⟨0x28, 1, 4, 0x0, 0x0, 0x0, 0x0, 0x1FFFF8⟩ /- CF_ABD -/,
  ⟨0x2C, 8, 4, 0x0, 0x0, 0x0, 0x0, 0x3FFFFF⟩ /- CF_ABD_RATE -/,
  ⟨0x4C, 1, 4, 0x0, 0x0, 0x0, 0x0, 0x0⟩ /- CF_TX_CNT -/,
  ⟨0x50, 1, 4, 0x0, 0x0, 0x0, 0x0, 0x0⟩ /- CF_RX_CNT -/,
  ⟨0x54, 1, 4, 0x0, 0x0, 0x0, 0x0, 0x0⟩ /- CF_ERR_CNT -/,
  ⟨0x58, 1, 4, 0x0, 0x0, 0x0, 0x0, 0x0⟩ /- CF_ARB_LOST_CNT -/,
  ⟨0x5C, 1, 4, 0x0, 0x0, 0x0, 0x0, 0x0⟩ /- CF_RX_LOST_CNT -/,
  ⟨0x60, 1, 4, 0x0, 0x0, 0x0, 0x0, 0x0⟩ /- CF_TX_REPL -/,
  ⟨0x64, 1, 4, 0x0, 0x0, 0x0, 0x0, 0x0⟩ /- CF_BUSOFF_CNT -/,
  ⟨0x100, 64, 4, 0x0, 0x0, 0x0, 0x0, 0x3⟩ /- CF_TXE -/]

def Reg.hringTab : List RegRow := [
  ⟨0x0, 1, 4, 0xFFFFFFC0, 0x0, 0x0, 0x0, 0x0⟩ /- HI_RING_BASE_LO -/,
  ⟨0x4, 1, 4, 0xFFFFFFFF, 0x0, 0x0, 0x0, 0x0⟩ /- HI_RING_BASE_HI -/,
  ⟨0x8, 1, 4, 0x1FFF, 0x0, 0x0, 0x6, 0x0⟩ /- HI_RING_CFG -/,
  ⟨0xC, 1, 4, 0x1, 0x0, 0x2, 0x0, 0x0⟩ /- HI_RING_CTRL -/,
  ⟨0x10, 1, 4, 0xFFFF, 0x0, 0x0, 0x0, 0x0⟩ /- HI_RING_TAIL -/,
  ⟨0x14, 1, 4, 0x0, 0x0, 0x0, 0x0, 0x0⟩ /- HI_RING_HEAD -/,
  ⟨0x18, 1, 4, 0xFFFFFFFF, 0x0, 0x0, 0x1, 0x0⟩ /- HI_RING_IRQ -/,
  ⟨0x1C, 1, 4, 0x0, 0x2, 0x0, 0x0, 0x0⟩ /- HI_RING_STAT -/,
  ⟨0x20, 1, 4, 0x0, 0x0, 0x0, 0x0, 0x0⟩ /- HI_RING_CNT -/,
  ⟨0x24, 1, 4, 0x0, 0x0, 0x0, 0x0, 0x0⟩ /- HI_RING_LOST -/]

def Reg.cvchTab : List RegRow := [
  ⟨0x0, 1, 4, 0xF, 0x0, 0x10, 0x1, 0x0⟩ /- CV_CH_CFG -/,
  ⟨0x4, 1, 4, 0xFFFFFFFF, 0x0, 0x0, 0x0, 0x0⟩ /- CV_CH_ADDR -/,
  ⟨0x8, 1, 4, 0xFFFFFFF, 0x0, 0x0, 0x0, 0x0⟩ /- CV_CH_LEN -/,
  ⟨0xC, 1, 4, 0xFFFFFFFF, 0x0, 0x0, 0x0, 0x0⟩ /- CV_CH_EXP_LO -/,
  ⟨0x10, 1, 4, 0xFFFFFFFF, 0x0, 0x0, 0x0, 0x0⟩ /- CV_CH_EXP_HI -/,
  ⟨0x14, 1, 4, 0x0, 0x0, 0x0, 0x0, 0x0⟩ /- CV_CH_RES_LO -/,
  ⟨0x18, 1, 4, 0x0, 0x0, 0x0, 0x0, 0x0⟩ /- CV_CH_RES_HI -/,
  ⟨0x1C, 1, 4, 0x0, 0x6, 0x0, 0x0, 0x0⟩ /- CV_CH_STAT -/]

def Reg.propTab : List RegRow := [
  ⟨0x0, 1, 4, 0x0, 0x0, 0x0, 0x0, 0x0⟩ /- LF_PROP -/,
  ⟨0x4, 3, 4, 0x0, 0x0, 0x0, 0x0, 0x0⟩ /- LF_PROP_D -/]

def R.SQ_RCP_CTRL : Nat := 0x20000
def F.SQ_RCP_CTRL_RECIPE : Fld := ⟨0, 8⟩
def F.SQ_RCP_CTRL_VALIDATE : Fld := ⟨8, 1⟩
def F.SQ_RCP_CTRL_INVALIDATE : Fld := ⟨9, 1⟩
def R.SQ_RCP_STAT : Nat := 0x20004
def F.SQ_RCP_STAT_BUSY : Fld := ⟨0, 1⟩
def F.SQ_RCP_STAT_PASS : Fld := ⟨1, 1⟩
def F.SQ_RCP_STAT_CAUSE : Fld := ⟨4, 4⟩

/-- The rows of the block that holds a BAR0 offset, and the offset within the block (R452); no rows where no
register stands. -/
def Reg.regionBlock (o : Nat) : List RegRow × Nat :=
  if o < 0x10000 then (Reg.slotTab, o % 0x100)
  else if o < 0x10800 then (Reg.cluTab, o % 0x100)
  else if o < 0x20000 then ([], o)
  else if o < 0x22000 then (Reg.axisTab, o % 0x400)
  else if o < 0x30000 then ([], o)
  else if o < 0x30C00 then (Reg.pairTab, o % 0x100)
  else if o < 0x31000 then (Reg.pwcTab, o)
  else if o < 0x31300 then (Reg.sdiTab, o % 0x40)
  else if o < 0x31400 then ([], o)
  else if o < 0x31418 then (Reg.sdgTab, 0x31400 + o % 8)
  else if o < 0x40000 then ([], o)
  else if o < 0x48000 then (Reg.netTab, o - 0x40000)
  else if o < 0x60000 then ([], o)
  else if o < 0x61000 then (Reg.rsTab, o)
  else if o < 0x63000 then (Reg.taskTab, o % 32)
  else if o < 0x80000 then ([], o)
  else if o < 0xC0000 then (Reg.ceTab, o)
  else ([], o)

/-- As `Reg.regionBlock`, for all of BAR0. -/
def Reg.block (a : Nat) : List RegRow × Nat :=
  if 0x2000000 ≤ a then ([], a)
  else if 0x1000000 ≤ a then Reg.regionBlock (a % 0x100000)
  else if 0x200000 ≤ a then
    (if 0x20C100 ≤ a ∧ a < 0x20C180 then (Reg.propTab, a % 16) else (Reg.mgTab, a))
  else if 0x180000 ≤ a then (if a < 0x190000 then (Reg.canTab, a % 0x1000) else ([], a))
  else if 0x100000 ≤ a then
    (if a % 0x10000 < 0x100 then (Reg.portTab, a % 0x10000)
     else if a % 0x20000 < 0x1000 then (Reg.fringTab, a % 0x20000)
     else if a % 0x20000 < 0x2F80 ∧ 0x1000 ≤ a % 0x20000 then (Reg.stnTab, a % 0x40)
     else ([], a))
  else if 0x80000 ≤ a then (Reg.hgTab, a)
  else if 0x70000 ≤ a then (Reg.tbTab, a)
  else if 0x60000 ≤ a then
    (if 0x60100 ≤ a ∧ a < 0x60200 then (Reg.streamTab, a % 32) else (Reg.rstrTab, a))
  else if 0x40000 ≤ a then
    (if 0x44000 ≤ a ∧ a < 0x48000 then (Reg.flowTab, a % 16) else (Reg.tkTab, a))
  else if 0x30000 ≤ a then (Reg.tmTab, a)
  else if 0x2E000 ≤ a then
    (if 0x2E100 ≤ a ∧ a < 0x2E200 then (Reg.cvchTab, a % 32) else (Reg.cvTab, a))
  else if 0x2C000 ≤ a then (if a < 0x2D000 then (Reg.hringTab, a % 0x40) else ([], a))
  else if 0x28000 ≤ a then (Reg.kaTab, a)
  else if 0x24000 ≤ a then (Reg.xlTab, a)
  else if 0x20000 ≤ a then (Reg.rcpTab, a)
  else if 0x10000 ≤ a then (Reg.laneTab, a % 0x1000)
  else (Reg.globTab, a)

/-- The first row of a block that covers an offset. -/
def Reg.findRow (rows : List RegRow) (o : Nat) : Option RegRow :=
  match rows with
  | [] => none
  | r :: t => if r.off ≤ o ∧ o < r.off + r.stride * r.n ∧ (o - r.off) % r.stride = 0 then some r
      else Reg.findRow t o

/-- The row of the register at a BAR0 offset, if a register stands there. -/
def Reg.row (a : Nat) : Option RegRow :=
  Reg.findRow (Reg.block a).1 (Reg.block a).2

/-- What an unlisted word of BAR0 reads as: the reset value of its register (R13), the ring vector k + 1 (R458),
the identifications LC_ID and NE_ID, a masked MSI-X vector (log 7), and 0 everywhere else (logs 3, 4, 6). -/
def Reg.reset (a : Nat) : Word :=
  if 0x8000 ≤ a ∧ a < 0x9000 then (if a % 16 = 12 then 1 else 0)
  else if 0x2C000 ≤ a ∧ a < 0x2D000 ∧ a % 0x40 = 8 then Word.ofN (6 + 32 * ((a - 0x2C000) / 0x40 + 1))
  else if 0x1000000 ≤ a ∧ a < 0x2000000 ∧ 0x10000 ≤ a % 0x100000 ∧ a % 0x100000 < 0x10800 ∧ a % 0x100 = 0 then
    Word.ofN (a % 0x100000 / 0x100 % 8 + 8 * ((a - 0x1000000) / 0x100000))
  else if 0x1000000 ≤ a ∧ a < 0x2000000 ∧ a % 0x100000 = 0x40000 then Word.ofN ((a - 0x1000000) / 0x100000)
  else match Reg.row a with
    | some r => Word.ofN r.rst
    | none => 0

end Sys2Proof.Machine
end

