-- ==== Sys2Proof/Machine/Smap.lean ====
section
/-!
DEFINITION. Sparse maps: a list of (key, value) pairs with strictly rising keys. `Smap.set` keeps no entry equal
to what an unlisted key reads as, so equal maps are equal lists; `Smap.put` lists every key that was written.
-/
namespace Sys2Proof.Machine

/-- The entry of a key, if it is listed. -/
def Smap.find {α : Type} (m : List (Nat × α)) (k : Nat) : Option α :=
  match m with
  | [] => none
  | (j, v) :: t => if j = k then some v else Smap.find t k

/-- The value of a key: its entry, or what an unlisted key reads as. -/
def Smap.get {α : Type} (d : Nat → α) (m : List (Nat × α)) (k : Nat) : α :=
  match Smap.find m k with
  | some v => v
  | none => d k

/-- Remove a key. -/
def Smap.erase {α : Type} (m : List (Nat × α)) (k : Nat) : List (Nat × α) :=
  match m with
  | [] => []
  | (j, v) :: t => if j = k then Smap.erase t k else (j, v) :: Smap.erase t k

/-- List a key with a value. -/
def Smap.put {α : Type} (m : List (Nat × α)) (k : Nat) (x : α) : List (Nat × α) :=
  match m with
  | [] => [(k, x)]
  | (j, v) :: t =>
    if j < k then (j, v) :: Smap.put t k x else if j = k then (k, x) :: t else (k, x) :: (j, v) :: t

/-- Write a key: a value equal to what the unlisted key reads as removes the entry. -/
def Smap.set {α : Type} [DecidableEq α] (d : Nat → α) (m : List (Nat × α)) (k : Nat) (x : α) :
    List (Nat × α) :=
  if x = d k then Smap.erase m k else Smap.put m k x

/-- Strictly rising keys. -/
def Smap.sorted {α : Type} (m : List (Nat × α)) : Prop := m.Pairwise (fun a b => a.1 < b.1)

/-- The canonical form: strictly rising keys, and no entry equal to what its key reads as when unlisted. -/
abbrev Smap.wf {α : Type} (d : Nat → α) (m : List (Nat × α)) : Prop :=
  m.Pairwise (fun a b => a.1 < b.1) ∧ ∀ e ∈ m, e.2 ≠ d e.1

/-- Write every entry of a list, in order. -/
def Smap.setAll {α : Type} [DecidableEq α] (d : Nat → α) (m : List (Nat × α)) :
    List (Nat × α) → List (Nat × α)
  | [] => m
  | (k, v) :: t => Smap.setAll d (Smap.set d m k v) t

end Sys2Proof.Machine
end

