-- ==== Sys2Proof/Machine/State.lean ====
section
/-!
DEFINITION. The state of the block as plain data (R17 and the chapters that each field names), the reasons a
step can stop, and the state after reset. Registers, windows and tables of the BAR0 space stand in `io`, one word
per offset (R452); what the spec gives no address stands in fields of its own.
-/
namespace Sys2Proof.Machine

/-- Why the block could stop. No command of the table stops: the block answers each one. -/
inductive Fault where
  /-- Raised by nothing; the type has to have a name. Safe. -/
  | noOutcome
  deriving DecidableEq, Repr

/-- Why a command has no meaning. -/
inductive Refusal where
  /-- Raised by an arm of exec that has no meaning yet, with the mnemonic; none is left. Safe. -/
  | notModelled (mnemonic : String)
  deriving DecidableEq, Repr

/-- An event record (R487). -/
structure EvRec where
  seq : Word
  code : Nat
  src : Nat
  optime : Nat
  pcyc : Nat
  cls : Nat
  pair : Bool
  lost : Bool
  p0 : Word
  p1 : Word
  p2 : Word
  deriving DecidableEq, Repr, Inhabited

/-- What the block has sent to its surroundings. -/
inductive Out where
  /-- A frame leaves a field port (R46, R356, R358, R362): its bytes from the destination address to the last one before
  the frame check sequence. -/
  | frame (port : Nat) (data : List Byte)
  /-- A cyclic frame of the partner is forwarded, unchanged, on the other port of its ring (R357). -/
  | forward (port : Nat) (f : RxFrame)
  /-- A tail frame of the partner is forwarded on the other port of its ring (R357): its KIND. -/
  | forwardTail (port kind : Nat)
  /-- Bits of an output word are rewritten, on both ports of a ring, in the train that is being serialised, and REW is set in
  their segment (R307, R361): the word, the bits' values and their mask. -/
  | rewrite (ring word : Nat) (val mask : Word)
  /-- An MSI-X message (R455). -/
  | msix (v : Nat)
  /-- A descriptor written back or a slot filled on a host ring (R457, R462): ring, slot, kind, tag, ERR, and
  the words of bytes 4 to 31. -/
  | ring (k : Nat) (slot : Nat) (kind : Nat) (tag : Nat) (err : Bool) (ws : List Word)
  /-- Data written to host memory. -/
  | hostMem (addr : Nat) (data : List Byte)
  /-- An event on a trigger-bus line (R347), and on its ball. -/
  | bus (line : Nat) (tag : Word) (pin : Bool)
  /-- The pulse that calibrates a SHARED trigger line, or its echo after 100 ns (R349). -/
  | trigCal (line : Nat) (echo : Bool)
  /-- A frame handed to a CAN port's bus (R408). -/
  | can (port : Nat) (entry : Nat) (f : CanFrame)
  /-- A CAN port starts a warm or other request on the Olfoaz link: HELLO (R422). -/
  | hello (h : Hello)
  /-- A heartbeat (R423). -/
  | heartbeat (epoch : Nat)
  /-- The lease handed to the partner (R427), with the cycle from which it holds. -/
  | lease (epoch : Nat) (cyc : Word)
  /-- A digest (R432). -/
  | digest (cyc d : Word)
  /-- A log entry sent to the partner (R429). -/
  | logEntry (e : LogEntry)
  /-- A non-field input of the standby sent to the holder (R431). -/
  | fromStandby (k : LogKind)
  /-- Resync data requested on the link (R436): 1 bulk, 2 catch-up, 3 shadow. -/
  | resync (phase : Nat)
  /-- The state at the close of an epoch, sent to a partner that resyncs (R436). -/
  | bulk (b : Bulk)
  /-- The FENCE wire of a control die (R37). -/
  | fence (d : Nat)
  /-- A boot-memory write, or read (kind 8), that the management core makes (R470, R486): what, bank, offset, length. -/
  | bootWrite (kind : Nat) (bank : Bank) (offset len : Nat)
  /-- Data delivered on rings 16 to 31 (R463): ring, slot, ERR, bytes, PARAM words and the data as words. -/
  | buffer (k : Nat) (slot : Nat) (err : Bool) (len : Nat) (ps ws : List Word)
  /-- A mailbox response of the management core (R486): STATUS and words. -/
  | mbox (status : Nat) (ws : List Word)
  /-- The package leaves reset again (R440, R482): 1 warm, 2 cold, 3 management core only. -/
  | reset (kind : Nat)
  deriving DecidableEq, Repr

/-- The state of the block. -/
structure State where
  /-- Commands that wait, first in first out. -/
  pending : List Instr
  /-- What has been sent to the surroundings, newest first (log 2). -/
  out : List Out
  /-- The counter that free values are drawn with: the model's own (log 1). -/
  fresh : Nat
  /-- The device is an LZ-2048 (R1). -/
  lz2048 : Bool
  /-- Words of BAR0 (R452): registers, image windows, tables, locals, constants, nodes. -/
  io : List (Nat × Word)
  /-- Law memory (R95), keyed by 4,096 × cluster + word. -/
  lawMem : List (Nat × Word)
  /-- Bytes of DRAM data (R20), the recipe store at 0. -/
  dram : List Host.Cell
  /-- Record specifications (R318), keyed by 4 × specification + word. -/
  specs : List (Nat × Word)
  img : ImgDecl
  /-- Output words of the image master that their owners have written (R51, R534). -/
  outMaster : List (Nat × Word)
  /-- Output half of the control-die copies (R51, R533). -/
  outCopy : List (Nat × Word)
  /-- The snapshot of the last close (R51, R68). -/
  snap : List (Nat × Word)
  /-- Owner values at the last close (R533). -/
  closeVal : List (Nat × Word)
  /-- Words given their fallow value at the last close by a fence or stop (R533). -/
  closeFallow : List Nat
  /-- Bits that a term rewrote at the last close: (word, mask) (R308, R533). -/
  closeRew : List (Nat × Word)
  /-- Sample time of each input word (R50). -/
  sampleT : List (Nat × Word)
  /-- Times that TM_CYC_SEQ has wrapped: the number n of the present cycle is this many times 2^32 above it (R46). -/
  wraps : Nat
  /-- TAI nanoseconds of t0 of the present cycle (R14, R56), in total. -/
  t0 : Nat
  /-- A step of the time base that waits for t0 (R384), in nanoseconds. -/
  tbStep : Option Int
  cyc : Cyc
  /-- Entries of the sequenced input log not yet applied (R60, R429), in order. -/
  log : List LogEntry
  /-- The next LSEQ (R429). -/
  lseq : Word
  /-- Records of the staging ring, oldest first, and those copied to NVM (R490). -/
  evStage : List EvRec
  evNvm : List EvRec
  /-- Records discarded since the last that found room (R490). -/
  evLost : Nat
  /-- Operating time in nanoseconds and power cycles (R487). -/
  opNs : Nat
  pcyc : Nat
  /-- Units beside their registers; an unlisted unit is in its initial state. -/
  slots : List (Nat × SlotX)
  clusters : List (Nat × ClusterX)
  hrings : List (Nat × HRingX)
  lanes : List (Nat × LaneX)
  /-- The recipe whose validation runs (R146, R182). -/
  validating : Nat
  stns : List (Nat × StnX)
  pairs : List (Nat × PairX)
  sdis : List (Nat × SdiX)
  dls : List (Nat × DlX)
  /-- Samples in succession, at most 255, that have read the raw state of each trip input (R291). -/
  tripRuns : List (Nat × Nat)
  /-- The SHARED trigger lines are being calibrated (R349). -/
  tbShared : Bool
  axes : List (Nat × AxisX)
  hg : HgX
  edges : List (Nat × EdgeX)
  /-- The record streamer: streams, open blocks (by specification, or 65,536 + stream for DISCRETE), groups, last
  recorded values, specification writes that wait for the close, bytes written in this second, and the quarters
  of a byte in the staging area at a device time (R328). -/
  streams : List (Nat × StreamX)
  opens : List (Nat × OpenBlk)
  groups : List (Nat × GroupX)
  recLast : List (Nat × Word)
  specPend : List (Nat × Word)
  recBytes : Nat
  stageQ : Nat
  stageAt : Nat
  /-- Capture engines; bytes used of each region's window pool share (R335); windows that await delivery, by ring;
  the last WIN_ID (R343); origin of the last event of each trigger-bus line (R347). -/
  ces : List (Nat × CeX)
  pools : List (Nat × Nat)
  winq : List (Nat × List Chunk)
  winId : Word
  tbLast : List (Nat × Nat)
  cans : List (Nat × CanX)
  /-- The CLK_CAN monitor has failed, and the clock has not been good since (R402). -/
  canBad : Bool
  /-- Cycles since a reception last wrote a CAN receive word, by word, as the last cut-off counted them; 256 for a write
  since it (R122). -/
  canAge : List (Nat × Nat)
  /-- Tasks (by 256 × region + task), region schedulers and flows. -/
  tasks : List (Nat × TaskX)
  rss : List (Nat × RsX)
  flows : List (Nat × FlowX)
  /-- Output words that a controller stop has given their fallow value, until their owner writes them (R235). -/
  stopFallow : List Nat
  /-- Field rings, parameter requests in order, and BOOT_ID (R358, R362). -/
  rings : List (Nat × RingX)
  mails : List MailX
  bootId : Nat
  /-- The pair. -/
  xl : XlX
  /-- The time base, start-up and restart, integrity, and the management core. -/
  tm : TimeX
  boot : BootX
  integ : IntegX
  mg : MgX
  /-- The highest class of the faults that have arisen in the present cycle (R16). -/
  worst : Nat
  /-- The cycle in which a control die was fenced, by die (R38). -/
  fences : List (Nat × Word)
  /-- The host link is down (R467). -/
  hostDown : Bool
  deriving DecidableEq, Repr

/-- The state after reset (R13; the identifications of R454 and the die states of R39 are listed). -/
def State.reset : State where
  pending := []
  out := []
  fresh := 0
  lz2048 := false
  io := [(0x0, 0x4096), (0x4, 0x104), (0x10, 0xFF)]
  lawMem := []
  dram := []
  specs := []
  img := default
  outMaster := []
  outCopy := []
  snap := []
  closeVal := []
  closeFallow := []
  closeRew := []
  sampleT := []
  wraps := 0
  t0 := 0
  tbStep := none
  cyc := default
  log := []
  lseq := 0
  evStage := []
  evNvm := []
  evLost := 0
  opNs := 0
  pcyc := 0
  slots := []
  clusters := []
  hrings := []
  lanes := []
  validating := 0
  stns := []
  pairs := []
  sdis := []
  dls := []
  tripRuns := []
  tbShared := false
  axes := []
  hg := default
  edges := []
  streams := []
  opens := []
  groups := []
  recLast := []
  specPend := []
  recBytes := 0
  stageQ := 0
  stageAt := 0
  ces := []
  pools := []
  winq := []
  winId := 0
  tbLast := []
  cans := []
  canBad := false
  canAge := []
  tasks := []
  rss := []
  flows := []
  stopFallow := []
  rings := []
  mails := []
  bootId := 0
  xl := default
  tm := default
  boot := default
  integ := default
  mg := default
  worst := 0
  fences := []
  hostDown := false

end Sys2Proof.Machine
end

