-- ==== Sys2Proof/Machine/Ops.lean ====
section
/-!
DEFINITION. The named operations on State that every chapter uses: registers and their fields (R9, R12), time
(R14, R45), emissions, interrupts (R454, R455), event records (R487 to R490), refused writes (R451), slots of the
to-host rings (R462), free values, and the extra state of units.
-/
namespace Sys2Proof.Machine

-- registers

/-- The field of a word. -/
def Fld.get (f : Fld) (w : Word) : Nat := (w.toNat >>> f.lsb) % 2 ^ f.len
/-- The field of a word, in two's complement. -/
def Fld.getI (f : Fld) (w : Word) : Int :=
  let n := f.get w
  if 2 * n ≥ 2 ^ f.len then (n : Int) - 2 ^ f.len else n
/-- The bits of a field. -/
def Fld.mask (f : Fld) : Word := Word.ofN ((2 ^ f.len - 1) <<< f.lsb)
/-- A word with the field replaced. -/
def Fld.put (f : Fld) (w : Word) (n : Nat) : Word :=
  (w &&& ~~~ f.mask) ||| Word.ofN ((n % 2 ^ f.len) <<< f.lsb)

/-- The BAR0 word at an offset. -/
def State.rd (s : State) (a : Nat) : Word := Smap.get Reg.reset s.io a
/-- Set the BAR0 word at an offset. -/
def State.wr (s : State) (a : Nat) (v : Word) : State := { s with io := Smap.set Reg.reset s.io a v }
/-- A field of a register. -/
def State.fld (s : State) (a : Nat) (f : Fld) : Nat := f.get (s.rd a)
/-- A one-bit field of a register. -/
def State.bit (s : State) (a : Nat) (f : Fld) : Bool := f.get (s.rd a) = 1
/-- A field of a register in two's complement. -/
def State.fldI (s : State) (a : Nat) (f : Fld) : Int := f.getI (s.rd a)
/-- Set a field of a register. -/
def State.setFld (s : State) (a : Nat) (f : Fld) (n : Nat) : State := s.wr a (f.put (s.rd a) n)
/-- Set a one-bit field to 1. -/
def State.set1 (s : State) (a : Nat) (f : Fld) : State := s.setFld a f 1
/-- Set a one-bit field to a Boolean. -/
def State.setB (s : State) (a : Nat) (f : Fld) (b : Bool) : State := s.setFld a f (if b then 1 else 0)
/-- Add to a 32-bit counter, which wraps. -/
def State.addTo (s : State) (a : Nat) (n : Nat) : State := s.wr a (s.rd a + Word.ofN n)
/-- Advance a 32-bit counter, which wraps. -/
def State.incr (s : State) (a : Nat) : State := s.addTo a 1
/-- Advance a field and hold it at its largest value. -/
def State.incrSat (s : State) (a : Nat) (f : Fld) : State :=
  s.setFld a f (min (s.fld a f + 1) (2 ^ f.len - 1))
/-- Raise a field to a value that is larger. -/
def State.maxFld (s : State) (a : Nat) (f : Fld) (n : Nat) : State :=
  if n > s.fld a f then s.setFld a f (min n (2 ^ f.len - 1)) else s
/-- Write words at consecutive offsets. -/
def State.wrAll (s : State) (a : Nat) (ws : List Word) : State :=
  match ws with
  | [] => s
  | w :: t => (s.wr a w).wrAll (a + 4) t
/-- Read consecutive words. -/
def State.rdAll (s : State) (a : Nat) (n : Nat) : List Word := (List.range n).map (fun i => s.rd (a + 4 * i))
/-- A 64-bit value in two registers, the low word first. -/
def State.rd64 (s : State) (lo : Nat) : Nat := (s.rd lo).toNat + (s.rd (lo + 4)).toNat * 2 ^ 32
/-- A signed 64-bit value in two registers. -/
def State.rd64I (s : State) (lo : Nat) : Int := (BitVec.ofNat 64 (s.rd64 lo)).toInt
/-- Set two registers to a 64-bit value. -/
def State.wr64 (s : State) (lo : Nat) (v : Int) : State :=
  let b := BitVec.ofInt 64 v
  (s.wr lo (Word.ofN b.toNat)).wr (lo + 4) (Word.ofN (b.toNat >>> 32))
/-- The value of a register after a masked write (R12): RW fields take the written bits, W1C fields lose those written
as 1, and everything else stays. -/
def State.regValue (s : State) (a : Nat) (v m : Word) : Word :=
  match Reg.row a with
  | some r =>
    let rw := m &&& Word.ofN r.rw
    ((s.rd a &&& ~~~ rw) ||| (v &&& rw)) &&& ~~~ (v &&& m &&& Word.ofN r.w1c)
  | none => s.rd a
/-- A masked write of the RW and W1C fields of a register. -/
def State.regWrite (s : State) (a : Nat) (v m : Word) : State := s.wr a (s.regValue a v m)
/-- The command bits of a register that a masked write sets (R12). -/
def regCmd (a : Nat) (v m : Word) : Word :=
  match Reg.row a with
  | some r => v &&& m &&& Word.ofN r.cmd
  | none => 0
/-- Apply an operation when a condition holds. -/
def State.when (s : State) (c : Bool) (f : State → State) : State := if c then f s else s
/-- Apply an operation for every element of a list, in order. -/
def State.each {α : Type} (s : State) (l : List α) (f : State → α → State) : State := l.foldl f s

-- emissions and free values

/-- Send something to the surroundings. -/
def State.emit (s : State) (o : Out) : State := { s with out := o :: s.out }
/-- A free word, and the state that has drawn it (log 1). -/
def State.draw (s : State) : Word × State := (Config.freeWord s.fresh, { s with fresh := s.fresh + 1 })

-- DRAM data

/-- A byte of DRAM data (R20); what nothing has written reads as 0 (log 6). -/
def State.dbyte (s : State) (a : Nat) : Byte := Smap.get (fun _ => 0) s.dram a
def State.setDbyte (s : State) (a : Nat) (b : Byte) : State :=
  { s with dram := Smap.set (fun _ => 0) s.dram a b }
/-- Consecutive bytes. -/
def State.dbytes (s : State) (a n : Nat) : List Byte := (List.range n).map (fun i => s.dbyte (a + i))
/-- A little-endian word. -/
def State.dword (s : State) (a : Nat) : Word := Word.ofBytes (s.dbytes a 4)
def State.setDword (s : State) (a : Nat) (v : Word) : State :=
  (List.range 4).foldl (fun s i => s.setDbyte (a + i) (BitVec.ofNat 8 (v.toNat >>> (8 * i)))) s

-- time

/-- The device time `off` nanoseconds after t0 of the present cycle, in TAI nanoseconds (R14). -/
def State.now (s : State) (off : Nat) : Nat := s.t0 + off
/-- The 32-bit time tag of a device time (R14). -/
def tagOf (ns : Nat) : Word := Word.ofN ns
/-- The time tag `off` nanoseconds after t0. -/
def State.tag (s : State) (off : Nat) : Word := tagOf (s.t0 + off)
/-- The field cycle period in nanoseconds (R45). -/
def State.period (s : State) : Nat := 31250 * 2 ^ (s.fld R.TM_CYC_CFG F.TM_CYC_CFG_PERIOD)
/-- The sequence number of the present cycle (R46). -/
def State.seq (s : State) : Word := s.rd R.TM_CYC_SEQ
/-- The number n of the present cycle, of which TM_CYC_SEQ holds the low 32 bits (R46). -/
def State.cycleNo (s : State) : Nat := s.wraps * 2 ^ 32 + s.seq.toNat
/-- Number the present cycle (R46). -/
def State.setCycle (s : State) (n : Nat) : State := { s with wraps := n / 2 ^ 32 }.wr R.TM_CYC_SEQ (Word.ofN n)

-- package, dies, pair

/-- The package mode (R41): 0 STOP, 1 PROGRAM, 2 REMOTE, 3 RUN. -/
def State.mode (s : State) : Nat := s.fld R.TK_CTL F.TK_CTL_MODE
/-- A controller stop is in effect (R235). -/
def State.stopped (s : State) : Bool := s.bit R.TK_CTL F.TK_CTL_STOPPED
/-- The state of a control die (R39). -/
def State.dieState (s : State) (d : Nat) : Nat := (s.rd R.HI_DIE_STATE).toNat >>> (2 * d) % 4
/-- Set the state of a control die. -/
def State.setDie (s : State) (d : Nat) (v : Nat) : State := s.setFld R.HI_DIE_STATE ⟨2 * d, 2⟩ v
/-- A die is fenced (R37). -/
def State.fenced (s : State) (d : Nat) : Bool := s.dieState d = 1
/-- Control dies that run. -/
def State.activeDies (s : State) : List Nat := (List.range 4).filter (fun d => s.dieState d = 0)
/-- A region in BIST, or one that has failed it (R480): it is held. -/
def State.regionHeld (s : State) (r : Nat) : Bool :=
  s.integ.bist.contains r || (s.rd R.CV_BIST_STAT).getLsbD (16 + r)
/-- Regions of dies that run, but for held ones. -/
def State.activeRegions (s : State) : List Nat :=
  (List.range 16).filter (fun r => s.dieState (r / 4) = 0 && !s.regionHeld r)
/-- A control die is there, and its traffic is taken (R18, R37): what a fenced or absent die sends is discarded. -/
def State.dieRuns (s : State) (d : Nat) : Bool := s.dieState d ≠ 1 && s.dieState d ≠ 2
/-- Number of control dies that the variant has (R1). -/
def State.dies (s : State) : Nat := if s.lz2048 then 2 else 4
/-- The pair state (R419). -/
def State.pairState (s : State) : Nat := s.fld R.XL_STATE F.XL_STATE_STATE
/-- The unit is configured as one of a pair (R419). -/
def State.pairEn (s : State) : Bool := s.bit R.XL_CFG F.XL_CFG_PAIR_EN
/-- The role of R56: 0 single unit, 1 lease holder, 2 otherwise. -/
def State.role (s : State) : Nat :=
  if !s.pairEn then 0 else if s.pairState = 2 then 1 else if s.pairState = 0 then 0 else 2
/-- The unit performs non-idempotent actions (R419, R425). -/
def State.acts (s : State) : Bool := s.role ≠ 2
/-- The unit computes the control path (R419): SOLO, HOLDER, STANDBY or SHADOW. -/
def State.computes (s : State) : Bool :=
  !s.pairEn || s.pairState = 0 || s.pairState = 2 || s.pairState = 3 || s.pairState = 6
/-- The unit sends cyclic frames (R419). -/
def State.sends (s : State) : Bool :=
  !s.pairEn || s.pairState = 0 || s.pairState = 2 || s.pairState = 3

-- interrupts

/-- Data goes to host memory, unless the link is down, when the DMA has stopped (R467). -/
def State.hostPut (s : State) (addr : Nat) (data : List Byte) : State :=
  if s.hostDown then s else s.emit (.hostMem addr data)
/-- Signal an MSI-X vector (R455): a masked vector sets its pending bit. Nothing is sent while the link is down
(R467). -/
def State.msix (s : State) (v : Nat) : State :=
  if s.hostDown then s
  else if s.bit (0x8000 + 16 * v + 12) ⟨0, 1⟩ then s.setFld (0x9000 + 4 * (v / 32)) ⟨v % 32, 1⟩ 1
  else s.emit (.msix v)
/-- Set a bit of HI_IRQ0_STAT; an enabled bit signals vector 0 (R454, R455). -/
def State.irq0 (s : State) (f : Fld) : State :=
  let s := s.set1 R.HI_IRQ0_STAT f
  s.when ((s.rd R.HI_IRQ0_MASK).toNat.testBit f.lsb) (fun s => s.msix 0)

-- extra state of units

/-- The extra state of a slot. -/
def State.slotX (s : State) (k : Nat) : SlotX := Smap.get (fun _ => default) s.slots k
def State.setSlotX (s : State) (k : Nat) (x : SlotX) : State :=
  { s with slots := Smap.set (fun _ => default) s.slots k x }
/-- The extra state of a cluster. -/
def State.clusterX (s : State) (k : Nat) : ClusterX := Smap.get (fun _ => default) s.clusters k
def State.setClusterX (s : State) (k : Nat) (x : ClusterX) : State :=
  { s with clusters := Smap.set (fun _ => default) s.clusters k x }
/-- The extra state of a host ring. -/
def State.hringX (s : State) (k : Nat) : HRingX := Smap.get (fun _ => default) s.hrings k
def State.setHringX (s : State) (k : Nat) (x : HRingX) : State :=
  { s with hrings := Smap.set (fun _ => default) s.hrings k x }

/-- The extra state of a lane. -/
def State.laneX (s : State) (k : Nat) : LaneX := Smap.get (fun _ => default) s.lanes k
def State.setLaneX (s : State) (k : Nat) (x : LaneX) : State :=
  { s with lanes := Smap.set (fun _ => default) s.lanes k x }
/-- The extra state of a station. -/
def State.stnX (s : State) (k : Nat) : StnX := Smap.get (fun _ => default) s.stns k
def State.setStnX (s : State) (k : Nat) (x : StnX) : State :=
  { s with stns := Smap.set (fun _ => default) s.stns k x }

/-- The extra state of a PWM pair. -/
def State.pairX (s : State) (k : Nat) : PairX := Smap.get (fun _ => default) s.pairs k
def State.setPairX (s : State) (k : Nat) (x : PairX) : State :=
  { s with pairs := Smap.set (fun _ => default) s.pairs k x }

/-- The extra state of an SDI channel. -/
def State.sdiX (s : State) (k : Nat) : SdiX := Smap.get (fun _ => default) s.sdis k
def State.setSdiX (s : State) (k : Nat) (x : SdiX) : State :=
  { s with sdis := Smap.set (fun _ => default) s.sdis k x }

/-- The delay lines of a region. -/
def State.tripRun (s : State) (t : Nat) : Nat := Smap.get (fun _ => 0) s.tripRuns t
def State.setTripRun (s : State) (t n : Nat) : State := { s with tripRuns := Smap.set (fun _ => 0) s.tripRuns t n }
def State.dlX (s : State) (k : Nat) : DlX := Smap.get (fun _ => default) s.dls k
def State.setDlX (s : State) (k : Nat) (x : DlX) : State :=
  { s with dls := Smap.set (fun _ => default) s.dls k x }

/-- The extra state of an axis. -/
def State.axisX (s : State) (k : Nat) : AxisX := Smap.get (fun _ => default) s.axes k
def State.setAxisX (s : State) (k : Nat) (x : AxisX) : State :=
  { s with axes := Smap.set (fun _ => default) s.axes k x }

/-- What an edge input holds. -/
def State.edgeX (s : State) (k : Nat) : EdgeX := Smap.get (fun _ => default) s.edges k
def State.setEdgeX (s : State) (k : Nat) (x : EdgeX) : State :=
  { s with edges := Smap.set (fun _ => default) s.edges k x }

/-- A stream, a capture engine, and the words queued on a ring. -/
def State.streamX (s : State) (k : Nat) : StreamX := Smap.get (fun _ => default) s.streams k
def State.setStreamX (s : State) (k : Nat) (x : StreamX) : State :=
  { s with streams := Smap.set (fun _ => default) s.streams k x }
def State.ceX (s : State) (k : Nat) : CeX := Smap.get (fun _ => default) s.ces k
def State.setCeX (s : State) (k : Nat) (x : CeX) : State :=
  { s with ces := Smap.set (fun _ => default) s.ces k x }
def State.winQ (s : State) (k : Nat) : List Chunk := Smap.get (fun _ => []) s.winq k
def State.setWinQ (s : State) (k : Nat) (x : List Chunk) : State :=
  { s with winq := Smap.set (fun _ => []) s.winq k x }

/-- A CAN port, and one of its transmit entries. -/
def State.canX (s : State) (k : Nat) : CanX := Smap.get (fun _ => default) s.cans k
def State.setCanX (s : State) (k : Nat) (x : CanX) : State :=
  { s with cans := Smap.set (fun _ => default) s.cans k x }
def State.txX (s : State) (p e : Nat) : TxX := Smap.get (fun _ => default) (s.canX p).tx e
def State.setTxX (s : State) (p e : Nat) (x : TxX) : State :=
  s.setCanX p { s.canX p with tx := Smap.set (fun _ => default) (s.canX p).tx e x }

/-- A task, a region scheduler and a flow. -/
def State.taskX (s : State) (k : Nat) : TaskX := Smap.get (fun _ => default) s.tasks k
def State.setTaskX (s : State) (k : Nat) (x : TaskX) : State :=
  { s with tasks := Smap.set (fun _ => default) s.tasks k x }
def State.rsX (s : State) (k : Nat) : RsX := Smap.get (fun _ => default) s.rss k
def State.setRsX (s : State) (k : Nat) (x : RsX) : State :=
  { s with rss := Smap.set (fun _ => default) s.rss k x }
def State.flowX (s : State) (k : Nat) : FlowX := Smap.get (fun _ => default) s.flows k
def State.setFlowX (s : State) (k : Nat) (x : FlowX) : State :=
  { s with flows := Smap.set (fun _ => default) s.flows k x }

/-- A field ring. -/
def State.ringX (s : State) (k : Nat) : RingX := Smap.get (fun _ => default) s.rings k
def State.setRingX (s : State) (k : Nat) (x : RingX) : State :=
  { s with rings := Smap.set (fun _ => default) s.rings k x }

-- configured units

/-- The slot whose LE_CFG stands at an offset (R452). -/
def slotAt (a : Nat) : Option Nat :=
  let r := (a - 0x1000000) / 0x100000
  let o := (a - 0x1000000) % 0x100000
  if 0x1000000 ≤ a ∧ r < 16 ∧ o < 0x10000 ∧ o % 0x100 = 0 then
    some (256 * r + 32 * (o / 0x2000) + o % 0x2000 / 0x100)
  else none
/-- The configured slots, in rising order. -/
def State.usedSlots (s : State) : List Nat :=
  s.io.filterMap (fun e => if e.2.getLsbD 21 then slotAt e.1 else none)
/-- Those of `n` units whose register `cfg` has bit 0 set. -/
def State.usedUnits (s : State) (n : Nat) (cfg : Nat → Nat) : List Nat :=
  (List.range n).filter (fun k => (s.rd (cfg k)).getLsbD 0)

-- to-host rings

/-- Count a write-back towards the interrupt of its ring (R458). -/
def State.ringIrq (s : State) (k : Nat) (irq : Bool) : State :=
  let s := s.incr (R.HI_RING_CNT k)
  if irq then
    let x := s.hringX k
    let n := x.irqs + 1
    if n ≥ s.fld (R.HI_RING_IRQ k) F.HI_RING_IRQ_COUNT then
      (s.setHringX k { x with irqs := 0 }).msix (s.fld (R.HI_RING_CFG k) F.HI_RING_CFG_VEC)
    else s.setHringX k { x with irqs := n }
  else s
/-- Advance HEAD by one slot modulo the ring's length (R457). -/
def State.ringAdvance (s : State) (k : Nat) : State :=
  let n := 2 ^ s.fld (R.HI_RING_CFG k) F.HI_RING_CFG_LOG2
  s.setFld (R.HI_RING_HEAD k) F.HI_RING_HEAD_INDEX ((s.fld (R.HI_RING_HEAD k) F.HI_RING_HEAD_INDEX + 1) % n)
/-- The unit serves a to-host ring now (R465, R467). -/
def State.ringServed (s : State) (k : Nat) : Bool :=
  s.bit (R.HI_RING_CTRL k) F.HI_RING_CTRL_EN && ((16 ≤ k && k < 32) || s.acts)
/-- Fill the next posted slot of a to-host ring (R462); none when no slot is free. A completion takes a slot that its
command reserved (R461), and counts towards the interrupt when the slot or the command has IRQ set. -/
def State.ringFill (s : State) (k kind tag : Nat) (err : Bool) (ws : List Word) (irq : Bool := false) : Option State :=
  let x := s.hringX k
  match x.posted with
  | [] => none
  | d :: rest =>
    if s.ringServed k && (kind = 1 || x.posted.length > x.resv) then
      let head := s.fld (R.HI_RING_HEAD k) F.HI_RING_HEAD_INDEX
      let s := s.setHringX k { x with posted := rest, resv := if kind = 1 then x.resv - 1 else x.resv }
      some (((s.emit (.ring k head kind tag err ws)).ringAdvance k).ringIrq k (d.irq || irq))
    else none

/-- Send data in the next buffer of a ring (R463), which the caller has taken. An uncorrectable word in it sets ERR, and
bytes 28 to 31 give its byte offset (R470). -/
def State.bufferSend (s : State) (k len : Nat) (ps ws : List Word) (irq : Bool) : State :=
  let x := s.hringX k
  let head := s.fld (R.HI_RING_HEAD k) F.HI_RING_HEAD_INDEX
  let ps := match x.ue with
    | some off => (ps ++ [0, 0, 0]).take 3 ++ [Word.ofN off]
    | none => ps
  let s := (s.setHringX k { x with ue := none }).emit (.buffer k head x.ue.isSome len ps ws)
  (s.ringAdvance k).ringIrq k irq

-- event records

/-- The copy of a record on the event ring (R462): lost when no slot is posted. -/
def State.eventCopy (s : State) (r : EvRec) : State :=
  if s.bit R.HI_EVT_CFG F.HI_EVT_CFG_EN && r.cls ≥ s.fld R.HI_EVT_CFG F.HI_EVT_CFG_MINCLASS then
    let k := 8 + s.fld R.HI_EVT_CFG F.HI_EVT_CFG_RING
    match s.ringFill k 2 0 false [r.seq, Word.ofN (r.code + r.src * 2 ^ 16), Word.ofN r.cls, r.p0, r.p1, r.p2,
        Word.ofN r.optime] with
    | some s' => s'
    | none => (s.incr (R.HI_RING_LOST k)).irq0 F.HI_IRQ0_STAT_EVT_LOST
  else s
/-- Write one record into the staging ring (R490), with its SEQ. -/
def State.evWrite (s : State) (r : EvRec) : State :=
  let q := s.rd R.EV_HEAD_SEQ + 1
  let s := s.when (s.evStage = [] ∧ s.evNvm = []) (fun s => s.wr R.EV_OLDEST_SEQ q)
  let r := { r with seq := q, optime := s.opNs / 1000000000, pcyc := s.pcyc % 2 ^ 24 }
  let s := { s with evStage := s.evStage ++ [r] }
  let s := (s.wr R.EV_HEAD_SEQ q).setFld R.EV_STAGE_FILL F.EV_STAGE_FILL_RECORDS s.evStage.length
  let s := s.when (r.cls = 4) (fun s => s.irq0 F.HI_IRQ0_STAT_FATAL)
  s.eventCopy r
/-- Record an event (R489, R490): code, class, unit type, instance and parameters. A pair-level record is written
by the lease holder only (R425, R490). -/
def State.eventRec (s : State) (pair : Bool) (code cls typ inst : Nat) (p0 p1 p2 : Word) : State :=
  if pair && s.role = 2 then s
  else if s.evStage.length ≥ 8192 then
    ({ s with evLost := s.evLost + 1 }.incr R.EV_LOST_CNT).set1 R.EV_STAT F.EV_STAT_LOST
  else
    let r : EvRec := ⟨0, code, typ * 4096 + inst, 0, 0, cls, pair, s.evLost ≠ 0, p0, p1, p2⟩
    let n := s.evLost
    let s := { s with evLost := 0 }.evWrite r
    if n = 0 then s
    else s.evWrite ⟨0, 0xD004, 0xD000, 0, 0, 1, false, false, Word.ofN n, 0, 0⟩
/-- A fault or warning arises: the highest class of the cycle, which decides the state that software reads first (R16,
log 202), and its record. -/
def State.eventP (s : State) (pair : Bool) (code cls typ inst : Nat) (p0 p1 p2 : Word) : State :=
  { s with worst := max s.worst cls }.eventRec pair code cls typ inst p0 p1 p2
/-- An event arises from control-path values, and is pair-level (R425): those of lanes, axes, stations, package and hub
queue, of tasks but for the watchdog and residues, and of field-synchronous slots but for hardware faults (log 50). -/
def State.pairLevel (s : State) (code typ inst : Nat) : Bool :=
  typ = 5 || typ = 9 || (typ = 0xE && (inst = 1 || (inst = 0 && code ≠ 1))) || (typ = 0xA && inst < 504) ||
    (typ = 8 && code ≠ 0x3001 && code ≠ 0x3002) ||
    (typ = 1 && (code = 1 || code = 0x1001) && s.bit (R.LE_CFG inst) F.LE_CFG_TIMING)
/-- Record an event. -/
def State.event (s : State) (code cls typ inst : Nat) (p0 p1 p2 : Word) : State :=
  s.eventP (s.pairLevel code typ inst) code cls typ inst p0 p1 p2
/-- Record an event of which the spec gives the first parameters only: the others are open (log 1). -/
def State.eventU (s : State) (pair : Bool) (code cls typ inst : Nat) (ps : List Word) : State :=
  let pair := pair || s.pairLevel code typ inst
  match ps with
  | [] =>
    let (a, s) := s.draw
    let (b, s) := s.draw
    let (c, s) := s.draw
    s.eventP pair code cls typ inst a b c
  | [a] =>
    let (b, s) := s.draw
    let (c, s) := s.draw
    s.eventP pair code cls typ inst a b c
  | [a, b] =>
    let (c, s) := s.draw
    s.eventP pair code cls typ inst a b c
  | a :: b :: c :: _ => s.eventP pair code cls typ inst a b c
/-- The tag that the management core puts into an event of its own (R393): TM_NOW 0.5 to 20 µs after the event, free within
that bound (log 1). -/
def State.mgTag (s : State) : Word × State :=
  let (w, s) := s.draw
  (tagOf (s.t0 + 500 + w.toNat % 19501), s)
/-- Record an event of the management core (R393), with its first parameter and the second where the spec gives it. -/
def State.eventM (s : State) (code cls typ inst : Nat) (p0 : Word) (p1 : Option Word) : State :=
  let (b, s) := match p1 with
    | some b => (b, s)
    | none => s.draw
  let (c, s) := s.mgTag
  s.eventP (s.pairLevel code typ inst) code cls typ inst p0 b c
/-- A fault or warning shown by a status bit that has no event code of its own (R489): STATUS_EVENT with the
register's offset, the bits that were set and the time tag. -/
def State.statusEvent (s : State) (cls typ inst : Nat) (a : Nat) (bits : Word) (tag : Word) : State :=
  s.event 0x0001 cls typ inst (Word.ofN a) bits tag
/-- Set a status bit and record it as a STATUS_EVENT of a class. -/
def State.raise (s : State) (cls typ inst : Nat) (a : Nat) (f : Fld) (tag : Word) : State :=
  (s.set1 a f).statusEvent cls typ inst a f.mask tag
/-- Set a status bit; a change from 0 to 1 records a STATUS_EVENT. -/
def State.raiseEdge (s : State) (cls typ inst : Nat) (a : Nat) (f : Fld) (tag : Word) : State :=
  if s.bit a f then s else s.raise cls typ inst a f tag

-- refused writes

/-- Record a refused write (R451): the first offset since STAT was cleared stays, further ones set OVER. -/
def State.werr (s : State) (bar2 : Bool) (a : Nat) (status : Nat) : State :=
  let s :=
    if s.fld R.HI_WERR_STAT F.HI_WERR_STAT_STATUS = 0 then
      ((s.wr R.HI_WERR_ADDR (Word.ofN a)).setFld R.HI_WERR_STAT F.HI_WERR_STAT_STATUS status).setB
        R.HI_WERR_STAT F.HI_WERR_STAT_BAR2 bar2
    else s.set1 R.HI_WERR_STAT F.HI_WERR_STAT_OVER
  (s.incr R.HI_WERR_CNT).irq0 F.HI_IRQ0_STAT_WERR
/-- Record a refused BAR0 write when the status is not OK. -/
def State.werrIf (s : State) (a : Nat) (status : Nat) : State :=
  if status = 0 then s else s.werr false a status

/-- The variant lacks a region (R1). -/
def State.lacks (s : State) (r : Nat) : Bool := s.lz2048 && decide (8 ≤ r)
/-- The variant has no unit at an offset (R1, R3): the windows of regions 8 to 15 of an LZ-2048. -/
def State.busLacks (s : State) (a : Nat) : Bool :=
  decide (0x1000000 ≤ a ∧ a < 0x2000000) && s.lacks ((a - 0x1000000) / 0x100000)
/-- A command that stands for a write of a register in a region's window: refused where the variant lacks the region (R3). -/
def State.regionRow (s : State) (r a : Nat) (f : State → State) : State :=
  if s.lacks r then s.werr false a 4 else f s

-- sequenced input log

/-- The cycle to which an entry that reaches the hub now is assigned (R60): the next cycle in a single unit, the one
after it in a lease holder. -/
def State.assignCyc (s : State) : Word := s.seq + (if s.role = 1 then 2 else 1)
/-- A message goes to the partner, unless the link is not used (R422). -/
def State.linkSend (s : State) (o : Out) : State := s.when (!s.xl.unused) (fun s => s.emit o)
/-- Add an entry to the sequenced input log (R60, R429), with FROM_STANDBY as given (R431); a holder sends it to its
partner. -/
def State.logAddFrom (s : State) (fromStandby : Bool) (tag : Word) (k : LogKind) : State :=
  let e : LogEntry := ⟨s.assignCyc, s.lseq, fromStandby, tag, k⟩
  let s := { s with log := s.log ++ [e], lseq := s.lseq + 1 }
  s.when (s.role = 1) (fun s => s.linkSend (.logEntry e))
/-- Add an entry that arises in this unit. -/
def State.logAdd (s : State) (tag : Word) (k : LogKind) : State := s.logAddFrom false tag k
/-- A holder copies words to its partner before it assigns an entry its cycle (R148, R242, R313): BULK entries of at most
1,008 bytes, which carry no cycle of their own (R429). -/
def State.bulkSend (s : State) (store : Bool) (ws : List (Nat × Word)) : State :=
  if s.role ≠ 1 then s
  else s.each (List.range ((ws.length + 251) / 252)) (fun s i =>
    { s with lseq := s.lseq + 1 }.linkSend
      (.logEntry ⟨0, s.lseq, false, 0, .copied store ((ws.drop (252 * i)).take 252)⟩))
/-- A standby keeps the non-field inputs that it has itself seen (R424). -/
def State.seenAdd (s : State) (tag : Word) (k : LogKind) : State :=
  if s.role = 2 then { s with xl := { s.xl with seen := s.xl.seen ++ [(tag, k)] } } else s
/-- A non-field input that arises in this unit: logged by a single unit or holder, sent to the holder by a
standby (R60, R431). -/
def State.inputLog (s : State) (tag : Word) (k : LogKind) : State :=
  if s.role = 2 then (s.linkSend (.fromStandby k)).seenAdd tag k else s.logAdd tag k
/-- The unit ID of the strap (R418). -/
def State.unit (s : State) : Nat := s.fld R.XL_CFG F.XL_CFG_UNIT

end Sys2Proof.Machine
end

