-- ==== Sys2Proof/Machine/Operands.lean ====
section
/-!
DEFINITION. Variable references (R53 to R56): what a reference names, what it reads as for nets, slots and lanes
(R194, R65), the force table over it (R237, R238), and the image words (R47, R51, R312, R534).
-/
namespace Sys2Proof.Machine

/-- SPACE and INDEX of a reference (R53). -/
def Ref.space (ref : Nat) : Nat := ref / 2 ^ 17 % 8
def Ref.index (ref : Nat) : Nat := ref % 2 ^ 17
/-- The reference that names no variable (R55). -/
def Ref.none : Nat := 0xFFFFF
/-- References by space (R53). -/
def Ref.inWord (w : Nat) : Nat := w
def Ref.outWord (w : Nat) : Nat := 2 ^ 17 + w
def Ref.localVar (r i : Nat) : Nat := 2 * 2 ^ 17 + r * 8192 + i
def Ref.slotField (k f : Nat) : Nat := 4 * 2 ^ 17 + 32 * k + f
def Ref.axisField (a f : Nat) : Nat := 5 * 2 ^ 17 + 32 * a + f
def Ref.laneField (l f : Nat) : Nat := 6 * 2 ^ 17 + 256 * l + f

/-- Offsets of the image windows, tables, locals and constants (R452). -/
def R.IN_WORD (w : Nat) : Nat := 0x400000 + 4 * w
def R.OUT_WORD (w : Nat) : Nat := 0x440000 + 4 * w
def R.LOCAL (r i : Nat) : Nat := R.regionBase r + 0x48000 + 4 * i
def R.CONST (r i : Nat) : Nat := R.regionBase r + 0x50000 + 4 * i
def R.NODE (r i : Nat) : Nat := R.regionBase r + 0xC0000 + 16 * i
def R.SLOT_FALLOW (k : Nat) : Nat := 0xB0000 + 4 * k
def R.WORD_FALLOW (w : Nat) : Nat := 0xC0000 + 4 * w
def R.FORCE (i : Nat) : Nat := 0x50000 + 16 * i

/-- The active force entry that names a reference, as (mask, value) (R237). -/
def State.forceOf (s : State) (ref : Nat) : Option (Word × Word) :=
  match s.io.find? (fun e => 0x50000 ≤ e.1 && e.1 < 0x60000 && e.1 % 16 = 0 &&
      e.2 = Word.ofN (ref + 2 ^ 31)) with
  | some (a, _) => some (s.rd (a + 4), s.rd (a + 8))
  | none => Option.none
/-- A value with the forced bits laid over it (R238). -/
def State.forced (s : State) (ref : Nat) (v : Word) : Word :=
  match s.forceOf ref with
  | some (m, x) => (v &&& ~~~ m) ||| (x &&& m)
  | none => v

/-- The word fallow value of an output word (R312); the reserved words read as 0 (R47). -/
def State.wordFallow (s : State) (w : Nat) : Word := if w ≥ 0xF800 then 0 else s.rd (R.WORD_FALLOW w)
/-- The owner's value of an output word in the image master: its fallow value until the owner writes it
(R534). -/
def State.outVal (s : State) (w : Nat) : Word :=
  if w ≥ 0xF800 then 0 else
  match Smap.find s.outMaster w with
  | some v => v
  | none => s.wordFallow w
/-- The output half of the control-die copies (R51, R533). -/
def State.copyVal (s : State) (w : Nat) : Word := Smap.get (fun _ => 0) s.outCopy w
/-- The snapshot of the last close. -/
def State.snapVal (s : State) (w : Nat) : Word := Smap.get (fun _ => 0) s.snap w
/-- An owner writes an output word of the image master (R68); a stop no longer holds it at its fallow value (R235). -/
def State.setOut (s : State) (w : Nat) (v : Word) : State :=
  if w ≥ 0xF800 then s
  else { s with outMaster := Smap.put s.outMaster w v, stopFallow := s.stopFallow.filter (fun u => u ≠ w) }
/-- An input word of the image master; the reserved words read as 0 (R47). -/
def State.inVal (s : State) (w : Nat) : Word := if w ≥ 0xF900 then 0 else s.rd (R.IN_WORD w)

/-- The register behind a slot field (R114, R132); none for field 25, 30 and the reserved ones. -/
def slotFieldReg (k f : Nat) : Option Nat :=
  match f with
  | 0 => some (R.LE_SP k) | 1 => some (R.LE_PV k) | 2 => some (R.LE_OUT k) | 3 => some (R.LE_ERR k)
  | 6 => some (R.LE_MAN_OUT k) | 7 => some (R.LE_OUT_HI k) | 8 => some (R.LE_OUT_LO k)
  | 9 => some (R.LE_OUT_RATE k) | 10 => some (R.LE_AUX0 k) | 11 => some (R.LE_AUX1 k)
  | 12 => some (R.LE_TRK_VAL k)
  | 13 => some (R.LE_TP k 0) | 14 => some (R.LE_TP k 1) | 15 => some (R.LE_TP k 2) | 16 => some (R.LE_TP k 3)
  | 17 => some (R.LE_TP k 4) | 18 => some (R.LE_TP k 5) | 19 => some (R.LE_TP k 6) | 20 => some (R.LE_TP k 7)
  | 21 => some (R.LE_STAT k) | 22 => some (R.LE_SKIP_CNT k) | 23 => some (R.LE_LAST_DELAY k)
  | 24 => some (R.LE_SAMPLE_T k) | 26 => some (R.LE_FE_LIMIT k) | 27 => some (R.LE_OPEN_OUT k)
  | 28 => some (R.LE_FRZ_BAND k) | 29 => some (R.LE_MOVE_MIN k) | 31 => some (R.LE_SUP_CMD k)
  | _ => Option.none
/-- What a slot field reads as (R114, R132). -/
def State.slotField (s : State) (k f : Nat) : Word :=
  match f with
  | 4 => Word.ofN (s.fld (R.LE_MODE k) F.LE_MODE_REQ)
  | 5 => Word.ofN (s.fld (R.LE_MODE k) F.LE_MODE_EFF)
  | 25 => s.rd (R.LE_SUP_STAT k) &&& 0xFF
  | 30 => Word.ofN (s.fld (R.LE_FB_AGE k) F.LE_FB_AGE_AGE)
  | _ => match slotFieldReg k f with
    | some a => s.rd a
    | none => 0

/-- The register behind an axis field (R267). -/
def axisFieldReg (a f : Nat) : Option Nat :=
  match f with
  | 0 => some (R.AX_TGT_LO a) | 1 => some (R.AX_TGT_HI a) | 2 => some (R.AX_VMAX a) | 3 => some (R.AX_AMAX a)
  | 4 => some (R.AX_DMAX a) | 5 => some (R.AX_JMAX a) | 6 => some (R.AX_MOVE_REQ a) | 7 => some (R.AX_CMD a)
  | 8 => some (R.AX_DSTOP a) | 9 => some (R.AX_POS_LO a) | 10 => some (R.AX_POS_HI a)
  | 11 => some (R.AX_VEL a) | 12 => some (R.AX_ACC a) | 13 => some (R.AX_STATE a)
  | 14 => some (R.AX_MOVE_CNT a) | 15 => some (R.AX_REMAIN_LO a) | 16 => some (R.AX_REMAIN_HI a)
  | 17 => some (R.AX_OVERSHOOT_LO a) | 18 => some (R.AX_OVERSHOOT_HI a) | 20 => some (R.AX_ST_ICMD a)
  | 21 => some (R.AX_ST_LOAD a) | 22 => some (R.AX_STAT a)
  | _ => Option.none
/-- What an axis field reads as (R267). -/
def State.axisField (s : State) (a f : Nat) : Word :=
  if f = 19 then Word.ofN (s.fld (R.AX_ST_STAT a) F.AX_ST_STAT_LEVEL)
  else match axisFieldReg a f with
    | some x => s.rd x
    | none => 0

/-- What a lane field reads as (R183). -/
def State.laneField (s : State) (l f : Nat) : Word :=
  if 32 ≤ f ∧ f < 64 then Smap.get (fun _ => 0) (s.laneX l).lv (f - 32)
  else if 24 ≤ f ∧ f < 32 then s.rd (R.SQ_LT l (f - 24))
  else if 20 ≤ f ∧ f < 24 then s.rd (R.SQ_DWL l (f - 20))
  else if 16 ≤ f ∧ f < 20 then s.rd (R.SQ_EXV l (f - 16))
  else if 8 ≤ f ∧ f < 12 then s.rd (R.SQ_RC l (f - 8))
  else match f with
    | 0 => s.rd (R.SQ_STATE l)
    | 1 => Word.ofN (s.fld (R.SQ_POS l) F.SQ_POS_RECIPE)
    | 2 => Word.ofN (s.fld (R.SQ_POS l) F.SQ_POS_STEP)
    | 3 => Word.ofN (s.fld (R.SQ_POS l) F.SQ_POS_LAST_EXIT)
    | 4 => s.rd (R.SQ_TIMER l)
    | 5 => s.rd (R.SQ_SEQ l)
    | 6 => (s.laneX l).cmd
    | 7 => (s.laneX l).arg
    | 12 => Word.ofN (s.fld (R.SQ_STATE l) F.SQ_STATE_HOLD_CAUSE)
    | _ => 0

/-- Event flag f of a region (R219). -/
def State.flag (s : State) (r f : Nat) : Bool :=
  if f < 32 then (s.rd (R.TK_FLAGS_LO r)).toNat.testBit f else (s.rd (R.TK_FLAGS_HI r)).toNat.testBit (f - 32)
/-- Set or clear an event flag. -/
def State.setFlag (s : State) (r f : Nat) (b : Bool) : State :=
  if f < 32 then s.setB (R.TK_FLAGS_LO r) ⟨f, 1⟩ b else s.setB (R.TK_FLAGS_HI r) ⟨f - 32, 1⟩ b

/-- STATION_STATUS (R56). -/
def State.stationStatus (s : State) (k : Nat) : Word :=
  Word.ofN ((s.stnX k).age + s.fld (R.FP_S_STAT k) F.FP_S_STAT_STATE * 256 + (if (s.stnX k).landed then 65536 else 0))

/-- An entry of space 7 (R56). -/
def State.systemVar (s : State) (i : Nat) : Word :=
  match i with
  | 0 => s.seq
  | 1 => Word.ofN (s.t0 % 1000000000)
  | 2 => Word.ofN (s.t0 / 1000000000)
  | 3 => Word.ofN (s.t0 / 1000000000 / 2 ^ 32 % 2 ^ 16)
  | 4 => Word.ofN s.mode
  | 5 => Word.ofN s.role
  | _ =>
    if 0x100 ≤ i ∧ i < 0x100 + 504 then s.stationStatus (i - 0x100)
    else if 0x400 ≤ i ∧ i < 0x800 then (if s.flag ((i - 0x400) / 64) ((i - 0x400) % 64) then 1 else 0)
    else if 0x800 ≤ i ∧ i < 0x804 then Word.ofN (s.dieState (i - 0x800))
    else 0

/-- What a reference reads as. `copy` holds for nets and slots, which read the output half of their die's copy
(R194); lanes read the image master (R65). Forces are laid over (R238). -/
def State.readRef (s : State) (copy : Bool) (ref : Nat) : Word :=
  let i := Ref.index ref
  match Ref.space ref with
  | 0 => if i < 65536 then s.forced ref (s.inVal i) else Smap.get (fun _ => 0) s.sampleT (i - 65536)
  | 1 => if i < 65536 then (if copy then s.copyVal i else s.forced ref (s.outVal i))
         else s.rd (R.OUT_WORD (i - 65536))
  | 2 => s.forced ref (s.rd (R.LOCAL (i / 8192) (i % 8192)))
  | 3 => s.rd (R.CONST (i / 8192) (i % 8192))
  | 4 => s.slotField (i / 32) (i % 32)
  | 5 => s.axisField (i / 32) (i % 32)
  | 6 => s.laneField (i / 256) (i % 256)
  | _ => s.systemVar i

/-- The type of a slot field (R114, R132). -/
def slotFieldTy (f : Nat) : Ty :=
  if f = 4 ∨ f = 5 ∨ (21 ≤ f ∧ f ≤ 25) ∨ f = 30 ∨ f = 31 then .u32 else .f32
/-- The type of an axis field (R267). -/
def axisFieldTy (f : Nat) : Ty :=
  if f = 1 ∨ f = 10 ∨ f = 16 ∨ f = 18 then .i32
  else if (2 ≤ f ∧ f ≤ 5) ∨ f = 8 ∨ f = 11 ∨ f = 12 ∨ f = 20 ∨ f = 21 then .f32 else .u32
/-- The declared type of a reference (R47, R191); UINT32 for an undeclared one. -/
def State.refTy (s : State) (ref : Nat) : Ty :=
  let i := Ref.index ref
  let decl := match Smap.find s.img.decls ref with
    | some t => t
    | none => Ty.u32
  match Ref.space ref with
  | 0 => if i < 65536 then decl else .u32
  | 1 => if i < 65536 then decl
         else match Smap.find s.img.decls (ref - 65536) with
           | some t => t
           | none => .u32
  | 2 => decl
  | 3 => decl
  | 4 => slotFieldTy (i % 32)
  | 5 => axisFieldTy (i % 32)
  | 6 => if 16 ≤ i % 256 ∧ i % 256 < 20 then .f32 else if 32 ≤ i % 256 ∧ i % 256 < 64 then decl else .u32
  | _ => .u32

/-- A value that depends on a unit-local one (R35): what Preilaip has marked; the time of t0 (R57, R385); what a slot measures of
its samples, and what a local slot forms (R82, R114); and what a stepper measures (R267). -/
def State.isLocal (s : State) (ref : Nat) : Bool :=
  let i := Ref.index ref
  s.img.locals.contains ref || (match Ref.space ref with
    | 4 => i % 32 = 23 || i % 32 = 24 || (!s.bit (R.LE_CFG (i / 32)) F.LE_CFG_TIMING &&
        [1, 2, 3, 5, 21, 22, 25, 30].contains (i % 32))
    | 5 => i % 32 = 19 || i % 32 = 20 || i % 32 = 21
    | 7 => i = 1 || i = 2 || i = 3
    | _ => false)

/-- The value of a reference as a number; none for a NaN or an infinity. -/
def State.refDy (s : State) (copy : Bool) (ref : Nat) : Option Dy :=
  Ty.toDy (s.refTy ref) (s.readRef copy ref)

/-- The sample period in nanoseconds (R77, R78). -/
def State.slotPeriod (s : State) (k : Nat) : Nat :=
  if s.bit (R.LE_CFG k) F.LE_CFG_TIMING then (s.fld (R.LE_FSYNC k) F.LE_FSYNC_DIV_M1 + 1) * s.period
  else (s.rd (R.LE_PERIOD k)).toNat

/-- The register of a local. -/
def localReg (ref : Nat) : Nat := R.LOCAL (Ref.index ref / 8192) (Ref.index ref % 8192)

-- releases of a timer

/-- A release at a time is noted: it extends the run of releases that it follows (R79). -/
def relNote (rels : List (Nat × Nat)) (p t : Nat) : List (Nat × Nat) :=
  if rels.any (fun i => i.2 + p = t) then rels.map (fun i => if i.2 + p = t then (i.1, t) else i) else (t, t) :: rels

end Sys2Proof.Machine
end

