-- ==== Sys2Proof/Machine/Can.lean ====
section
/-!
DEFINITION. The CAN FD ports (chapter "CAN FD ports"): bit timing, modes, rate detection, reception, transmission,
errors, ownership and what a takeover does with the buffered frames.
-/
namespace Sys2Proof.Machine

-- frames

/-- Whether a data length exists for the format (R397, R412). -/
def canLenOk (fdf : Bool) (n : Nat) : Bool :=
  n ≤ 8 || (fdf && [12, 16, 20, 24, 32, 48, 64].contains n)
/-- A frame that the formats of R397 allow: BRS needs FDF, a remote frame has none. -/
def canFormOk (f : CanFrame) : Bool :=
  canLenOk f.fdf f.data.length && (f.fdf || !f.brs) && !(f.rtr && f.fdf)
/-- The arbitration field as a number; the lower value wins (R410). -/
def canArb (f : CanFrame) : Nat :=
  let r := if f.rtr then 1 else 0
  if f.ide then (f.ident / 2 ^ 18 % 2 ^ 11) * 2 ^ 21 + 2 ^ 20 + 2 ^ 19 + f.ident % 2 ^ 18 * 2 + r
  else f.ident % 2 ^ 11 * 2 ^ 21 + r * 2 ^ 20
/-- The comparison of R416. -/
def canSame (f g : CanFrame) : Bool :=
  f.ident = g.ident && f.ide = g.ide && f.fdf = g.fdf && f.data = g.data
/-- The words of P0 and P1 of a CAN descriptor (R464). -/
def canP0 (f : CanFrame) : Word :=
  Word.ofN (f.ident % 2 ^ 29 + (if f.ide then 2 ^ 29 else 0) + (if f.fdf then 2 ^ 30 else 0) +
    (if f.rtr then 2 ^ 31 else 0))
def canP1 (f : CanFrame) (entry status : Nat) : Word :=
  Word.ofN (f.data.length + (if f.brs then 2 ^ 8 else 0) + (if f.esi then 2 ^ 9 else 0) + entry * 2 ^ 16 +
    status * 2 ^ 24)
/-- The frame that a transmit descriptor asks for (R464). -/
def descFrame (d : Desc) : CanFrame :=
  let n := d.p1.toNat % 256
  ⟨d.p0.toNat % 2 ^ 29, d.p0.getLsbD 29, d.p0.getLsbD 30, d.p1.getLsbD 8, false, d.p0.getLsbD 31,
    (d.data ++ List.replicate n 0).take n⟩
/-- The bytes of words, little-endian. -/
def wordBytes (ws : List Word) : List Byte :=
  (ws.map (fun w => (List.range 4).map (fun i => BitVec.ofNat 8 (w.toNat >>> (8 * i))))).flatten
/-- Words from bytes, little-endian; a partial word is filled with 0 (R405). -/
def bytesWords (bs : List Byte) : List Word :=
  (List.range ((bs.length + 3) / 4)).map (fun i => Word.ofBytes ((bs.drop (4 * i) ++ [0, 0, 0, 0]).take 4))

-- modes and timing

def State.canEff (s : State) (p : Nat) : Nat := s.fld (R.CF_MODE p) F.CF_MODE_EFF
def State.txState (s : State) (p e : Nat) : Nat := s.fld (R.CF_TXE p e) F.CF_TXE_STATE
def State.setTx (s : State) (p e st : Nat) : State := s.setFld (R.CF_TXE p e) F.CF_TXE_STATE st
def State.canBusOff (s : State) (p : Nat) : Bool := s.fld (R.CF_STAT p) F.CF_STAT_STATE = 2
/-- A WARN or FAULT of a port with the bits of CF_STAT that show it. -/
def State.canWarn (s : State) (p cls : Nat) (bits tag : Word) : State :=
  s.statusEvent cls 0xB p (R.CF_STAT p) bits tag
/-- The error state of a port changes for the worse (R410, R489). -/
def State.canState (s : State) (p st cls : Nat) : State :=
  (s.setFld (R.CF_STAT p) F.CF_STAT_STATE st).eventU false 0x6003 cls 0xB p [Word.ofN st]
/-- The effective mode that R402 gives. -/
def State.canWant (s : State) (p : Nat) : Nat :=
  let req := s.fld (R.CF_MODE p) F.CF_MODE_REQ
  if s.canBad || !s.bit (R.CF_CFG p) F.CF_CFG_USED then 0
  else if s.role = 2 ∧ req = 1 then 2
  else req
/-- The used candidates of ABD at or after one. -/
def State.abdFrom (s : State) (p i : Nat) : Option Nat :=
  ((List.range 8).filter (fun j => i ≤ j && (s.fld (R.CF_ABD p) F.CF_ABD_USED).testBit j)).head?
/-- The entries of a port whose frames stand in a state and have not left the bus. -/
def State.canIn (s : State) (p st : Nat) : List Nat :=
  (List.range 64).filter (fun e => s.txState p e = st && !(s.txX p e).sent && !(s.txX p e).heard)
/-- The frames in transmission are offered again later (R402, R410). -/
def State.canUnoffer (s : State) (p : Nat) : State := s.each (s.canIn p 2) (fun s e => s.setTx p e 1)
/-- ABD ends without acceptance (R403). -/
def State.abdFail (s : State) (p : Nat) (tag : Word) : State :=
  let s := (s.set1 (R.CF_STAT p) F.CF_STAT_ABD_FAIL).canWarn p 1 F.CF_STAT_ABD_FAIL.mask tag
  ((s.setFld (R.CF_MODE p) F.CF_MODE_REQ 0).setFld (R.CF_MODE p) F.CF_MODE_EFF 0)
/-- ABD goes to the next used candidate from `i` on (R403). -/
def State.abdNext (s : State) (p i : Nat) (tag : Word) : State :=
  match s.abdFrom p i with
  | some j => s.setCanX p { s.canX p with abd := j, abdN := 0, integ := false }
  | none => s.abdFail p tag
/-- The effective mode follows the request, the role and the clock (R402). -/
def State.canUpdate (s : State) (p : Nat) (tag : Word) : State :=
  let eff := s.canWant p
  if eff = s.canEff p then s
  else
    let s := (s.setFld (R.CF_MODE p) F.CF_MODE_EFF eff).canUnoffer p
    let s := s.setCanX p { s.canX p with integ := false }
    if eff = 3 then s.abdNext p 0 tag else s
/-- Every port follows. -/
def State.canUpdateAll (s : State) (tag : Word) : State := s.each (List.range 16) (fun s p => s.canUpdate p tag)
/-- A request of CF_MODE (R402). -/
def State.canMode (s : State) (p req : Nat) (tag : Word) : State :=
  (s.setFld (R.CF_MODE p) F.CF_MODE_REQ req).canUpdate p tag

/-- The time quanta of a nominal bit and of a data bit (R399). -/
def canNbits (nbt : Word) : Nat := 1 + (F.CF_NBT_NTSEG1_M1.get nbt + 1) + (F.CF_NBT_NTSEG2_M1.get nbt + 1)
def canDbits (dbt : Word) : Nat := 1 + (F.CF_DBT_DTSEG1_M1.get dbt + 1) + (F.CF_DBT_DTSEG2_M1.get dbt + 1)
/-- The limits of R398 and R399 for a prescaler and a nominal timing. -/
def canNbtOk (brp : Nat) (nbt : Word) : Bool :=
  F.CF_NBT_NTSEG1_M1.get nbt + 1 ≥ 2 && F.CF_NBT_NTSEG2_M1.get nbt + 1 ≥ 2 &&
    F.CF_NBT_NSJW_M1.get nbt ≤ F.CF_NBT_NTSEG2_M1.get nbt && canNbits nbt ≥ 8 && canNbits nbt * brp ≥ 80
/-- The limits of R398 and R399 for a prescaler and a data timing. -/
def canDbtOk (brp : Nat) (dbt : Word) : Bool :=
  F.CF_DBT_DTSEG1_M1.get dbt + 1 ≥ 2 && F.CF_DBT_DSJW_M1.get dbt ≤ F.CF_DBT_DTSEG2_M1.get dbt && canDbits dbt ≥ 5 &&
    canDbits dbt * brp ≥ 10
/-- The timings of a port under a prescaler (R398, R399): a data bit is no longer than a nominal bit. A register that holds 0 has
not been set (log 267), and a candidate of ABD is a nominal timing. -/
def State.canTimed (s : State) (p brp : Nat) (nbt dbt : Word) : Bool :=
  (nbt = 0 || canNbtOk brp nbt) && (dbt = 0 || canDbtOk brp dbt) && (nbt = 0 || dbt = 0 || canDbits dbt ≤ canNbits nbt) &&
    ((List.range 8).filter (fun i => (s.fld (R.CF_ABD p) F.CF_ABD_USED).testBit i)).all (fun i =>
      canNbtOk brp (s.rd (R.CF_ABD_RATE p i)))
/-- The prescaler of the group of a port. -/
def State.canBrp (s : State) (p : Nat) : Nat := s.fld (R.CF_PRESC (p / 4 * 4)) F.CF_PRESC_BRP_M1 + 1
/-- The ports of a group show its prescaler (R399, R417). -/
def State.canPresc (s : State) (g : Nat) (v : Word) : State :=
  s.each ((List.range 4).map (fun i => 4 * g + i)) (fun s q => s.wr (R.CF_PRESC q) v)
/-- A write of CF_NBT (0), CF_DBT (1) or, on port 4g, CF_PRESC (2) (R401): refused where the timing written, or the pair of
timings, breaks a limit. -/
def State.canTiming (s : State) (p reg : Nat) (v : Word) : State :=
  let group := (List.range 4).map (fun i => p / 4 * 4 + i)
  if reg = 2 ∧ p % 4 ≠ 0 then s
  else
    let off := if reg = 2 then group.all (fun q => s.canEff q = 0) else decide (s.canEff p = 0)
    let v := match reg with
      | 0 => v &&& 0x3FFFFF
      | 1 => v &&& 0x1FFFFF
      | _ => v &&& 0x1F
    let ok := match reg with
      | 0 => canNbtOk (s.canBrp p) v && s.canTimed p (s.canBrp p) v (s.rd (R.CF_DBT p))
      | 1 => canDbtOk (s.canBrp p) v && s.canTimed p (s.canBrp p) (s.rd (R.CF_NBT p)) v
      | _ => (group.filter (fun q => s.bit (R.CF_CFG q) F.CF_CFG_USED)).all (fun q =>
          s.canTimed q (v.toNat + 1) (s.rd (R.CF_NBT q)) (s.rd (R.CF_DBT q)))
    if off && ok then
      match reg with
      | 0 => s.wr (R.CF_NBT p) v
      | 1 => s.wr (R.CF_DBT p) v
      | _ => s.canPresc (p / 4) v
    else s.set1 (R.CF_STAT p) F.CF_STAT_CFG_REJ

-- transmission

/-- The port may put frames on the bus: NORMAL, integrated, not bus-off, and this unit transmits (R402, R411, R415). -/
def State.canSends (s : State) (p : Nat) : Bool :=
  s.canEff p = 1 && (s.canX p).integ && !s.canBusOff p && s.acts
/-- A standby keeps its entries as the holder's are (R415): it offers them as the holder does, on the bus that both hear. -/
def State.canMirrors (s : State) (p : Nat) : Bool :=
  s.role = 2 && s.fld (R.CF_MODE p) F.CF_MODE_REQ = 1 && (s.canX p).integ && !s.canBusOff p
/-- The frame in arbitration or on the bus, if any. -/
def State.canCurrent (s : State) (p : Nat) : Option Nat := (s.canIn p 2).head?
/-- The pending entry of the lowest arbitration value, the lower number on a tie (R410). -/
def State.canBest (s : State) (p : Nat) : Option Nat :=
  (s.canIn p 1).foldl (fun b e => match b with
    | none => some e
    | some c => if canArb (s.txX p e).frame < canArb (s.txX p c).frame then some e else some c) none
/-- The frame as it is sent (R397): ESI is the port's error state. -/
def State.canOut (s : State) (p : Nat) (f : CanFrame) : CanFrame :=
  { f with esi := f.fdf && decide (s.fld (R.CF_STAT p) F.CF_STAT_STATE = 1) }
/-- Arbitration begins for the next frame when the bus is free (R409, R410). -/
def State.canOffer (s : State) (p : Nat) : State :=
  if (s.canX p).busy = false ∧ (s.canSends p = true ∨ s.canMirrors p = true) then
    match s.canCurrent p, s.canBest p with
    | none, some e => (s.setTx p e 2).when (s.canSends p) (fun s => s.emit (.can p e (s.canOut p (s.txX p e).frame)))
    | _, _ => s
  else s
/-- The bus of a port is occupied by another node's frame, or free. -/
def State.setBusy (s : State) (p : Nat) (b : Bool) : State := s.setCanX p { s.canX p with busy := b }
/-- The bus of a port is free: the next frame is offered. -/
def State.canFree (s : State) (p : Nat) : State := (s.setBusy p false).canOffer p
/-- A transmit descriptor is written back with its completion status (R408, R457, R464). -/
def State.canWriteBack (s : State) (p slot entry status : Nat) (d : Desc) : State :=
  let k := 32 + 2 * p
  if s.bit (R.HI_RING_CTRL k) F.HI_RING_CTRL_EN && s.acts then
    let f := descFrame d
    let s := s.emit (.ring k slot d.opc d.tag (status ≠ 0) [Word.ofN d.len, Word.ofN d.addr,
      Word.ofN (d.addr / 2 ^ 32), canP0 f, canP1 f entry status, d.p2, d.p3])
    s.ringIrq k d.irq
  else s
/-- Take descriptors that wait into free HOST entries, in order (R408, R412). -/
def State.canTakeN (s : State) (p fuel : Nat) : State :=
  match fuel with
  | 0 => s
  | n + 1 =>
    let x := s.canX p
    match x.txWait with
    | [] => s
    | (slot, d) :: rest =>
      let f := descFrame d
      let owned := (List.range 64).any (fun e => s.bit (R.CF_TXE p e) F.CF_TXE_USED &&
        !s.bit (R.CF_TXE p e) F.CF_TXE_KIND &&
        (match Smap.find s.img.canTx (64 * p + e) with
        | some t => t.ident = f.ident && t.ide = f.ide
        | none => false))
      let s1 := s.setCanX p { x with txWait := rest }
      if owned then (s1.canWriteBack p slot 0 4 d).canTakeN p n
      else if !canFormOk f then (s1.canWriteBack p slot 0 5 d).canTakeN p n
      else
        match ((List.range 64).filter (fun e => s.bit (R.CF_TXE p e) F.CF_TXE_USED &&
            s.bit (R.CF_TXE p e) F.CF_TXE_KIND && s.txState p e = 0)).head? with
        | none => s
        | some e =>
          let s1 := s1.setTxX p e { (default : TxX) with frame := f, desc := some (slot, d) }
          ((s1.setFld (R.CF_TXE p e) F.CF_TXE_STATUS 0).setTx p e 1).canTakeN p n
def State.canTake (s : State) (p : Nat) : State := s.canTakeN p ((s.canX p).txWait.length + 1)
/-- A HOST transmit descriptor applies (R408): its frame is offered with those of its t0. -/
def State.canHostTx (s : State) (p slot : Nat) (d : Desc) : State :=
  let x := s.canX p
  (s.setCanX p { x with txWait := x.txWait ++ [(slot, d)] }).canTake p
/-- An entry completes with a status (R408, R409): an IMAGE entry is free again or takes the trigger that waits; a
HOST entry is software's until its slot is posted again. -/
def State.canComplete (s : State) (p e status : Nat) : State :=
  let x := s.txX p e
  let s := s.setFld (R.CF_TXE p e) F.CF_TXE_STATUS status
  match x.desc with
  | some (slot, d) =>
    let s := (s.setTx p e 3).setTxX p e { x with cancel := false, sent := false, heard := false }
    let k := 32 + 2 * p
    let h := s.hringX k
    (s.setHringX k { h with carried := h.carried ++ [(slot, p, e, true)] }).canWriteBack p slot e status d
  | none =>
    match x.wait with
    | some f =>
      (s.setTx p e 1).setTxX p e { x with frame := f, wait := none, cancel := false, sent := false, heard := false }
    | none => (s.setTx p e 0).setTxX p e { x with cancel := false, sent := false, heard := false }
/-- A frame has left the bus with a status: at once in a single unit, in both units through the log of a holder
(R415). -/
def State.canFinish (s : State) (p e status : Nat) (tag : Word) : State :=
  if s.role = 1 then
    (s.setTxX p e { s.txX p e with sent := true }).logAdd tag (.canDone (Fin.ofNat 16 p) e status)
  else s.canComplete p e status
/-- An IMAGE entry that is triggered queues its frame (R409), which replaces one that waits for arbitration; while its frame is
in arbitration or on the bus, or has been sent or cancelled and the log entry of that is awaited, the new one waits. -/
def State.canQueue (s : State) (p e : Nat) (f : CanFrame) : State :=
  let x := s.txX p e
  match s.txState p e, x.sent || x.heard with
  | 0, _ => (s.setTx p e 1).setTxX p e { x with frame := f }
  | 1, false => (s.incr (R.CF_TX_REPL p)).setTxX p e { x with frame := f, wait := none }
  | _, _ => s.setTxX p e { x with wait := some f }
/-- The frame of an IMAGE entry from the snapshot (R408, R409). -/
def State.canImageFrame (s : State) (t : TxImage) : CanFrame × List Word :=
  let ws := (List.range ((t.len + 3) / 4)).map (fun i => s.snapVal (t.word + i))
  (⟨t.ident, t.ide, t.fdf, t.brs, false, false, (wordBytes ws).take t.len⟩, ws)
/-- The IMAGE entries that are triggered in cycle n form their frames at its close (R408, R409). -/
def State.canClose (s : State) (n : Nat) : State :=
  s.each s.img.canTx (fun s e =>
    let p := e.1 / 64
    let k := e.1 % 64
    let t := e.2
    let (f, ws) := s.canImageFrame t
    let x := s.txX p k
    let go := match t.trig with
      | .action => x.trig
      | .period d ph => d ≠ 0 && n % d = ph
      | .change => x.last ≠ some ws
    if !s.bit (R.CF_TXE p k) F.CF_TXE_USED || s.bit (R.CF_TXE p k) F.CF_TXE_KIND then s
    else s.setTxX p k { x with trig := false, fresh := if go then some f else none,
                               last := if go then some ws else x.last })
/-- The frames that the last close formed become pending at t0 (R409). -/
def State.canStart (s : State) : State :=
  let s := s.each s.img.canTx (fun s e =>
    let p := e.1 / 64
    let k := e.1 % 64
    let x := s.txX p k
    match x.fresh with
    | some f => (s.setTxX p k { x with fresh := none }).canQueue p k f
    | none => s)
  s.each (List.range 16) (fun s p => s.canOffer p)
/-- A lane's CAN_TX action (R153, R408). -/
def State.canAction (s : State) (p e : Nat) : State :=
  match Smap.find s.img.canTx (64 * p + e) with
  | some _ => s.setTxX p e { s.txX p e with trig := true }
  | none => s
/-- CANCEL of an entry (R413): the completion of a holder reaches both units through the log (R415), so a standby only
keeps the cancel for the case that it takes the lease. -/
def State.canCancel (s : State) (p e : Nat) : State :=
  match s.txState p e, s.role with
  | 1, 2 => s.setTxX p e { s.txX p e with cancel := true }
  | 1, _ => if (s.txX p e).sent then s else (s.canFinish p e 1 (s.tag 0)).canTake p
  | 2, _ => s.setTxX p e { s.txX p e with cancel := true }
  | _, _ => s

-- errors

/-- Show the receive error count (R417). -/
def State.canRec (s : State) (p n : Nat) : State :=
  let s := s.setCanX p { s.canX p with recN := n }
  (s.setFld (R.CF_ERRCNT p) F.CF_ERRCNT_REC (min n 127)).setB (R.CF_ERRCNT p) F.CF_ERRCNT_RP (n ≥ 128)
/-- The error state that the counters give (R410); entering error-passive is a WARN. -/
def State.canLevel (s : State) (p tec : Nat) : State :=
  let st := s.fld (R.CF_STAT p) F.CF_STAT_STATE
  let s := s.setFld (R.CF_ERRCNT p) F.CF_ERRCNT_TEC (min tec 255)
  if st = 2 then s
  else if tec > 255 then
    let s := ((s.canState p 2 2).incr (R.CF_BUSOFF_CNT p)).canUnoffer p
    s.setCanX p { s.canX p with recov := false }
  else if tec ≥ 128 ∨ (s.canX p).recN ≥ 128 then
    if st = 0 then s.canState p 1 1 else s
  else s.setFld (R.CF_STAT p) F.CF_STAT_STATE 0
/-- LEC codes (R417). -/
def lecCode (k : CanErr) : Nat :=
  match k with
  | .stuff => 1 | .form => 2 | .ack => 3 | .bit => 4 | .crc => 5
/-- Consecutive bit errors on one identifier (Coincidences). -/
def State.canCollide (s : State) (p : Nat) (f : CanFrame) (tag : Word) : State :=
  let n := match (s.canX p).coll with
    | some (i, x, n) => if i = f.ident ∧ x = f.ide then n + 1 else 1
    | none => 1
  let s := s.setCanX p { s.canX p with coll := some (f.ident, f.ide, n) }
  if n = 3 then
    let s := (s.set1 (R.CF_STAT p) F.CF_STAT_ID_COLLISION).wr (R.CF_COLL_ID p)
      (Word.ofN (f.ident % 2 ^ 29 + (if f.ide then 2 ^ 29 else 0)))
    s.canWarn p 1 F.CF_STAT_ID_COLLISION.mask tag
  else s
/-- An error on the bus (R403, R410, R413), after which the bus is free; a port that is bus-off takes no part in it (log 235).
`won`: the port's frame has won arbitration. -/
def State.canErr (s : State) (p : Nat) (kind : CanErr) (tx won : Bool) (step : Nat) (tag : Word) : State :=
  if s.canEff p = 0 ∨ s.canBusOff p = true then s
  else
    let s := s.when tx (fun s => s.canFree p)
    let s := (s.incr (R.CF_ERR_CNT p)).setFld (R.CF_STAT p) F.CF_STAT_LEC (lecCode kind)
    if s.canEff p = 3 then s.abdNext p ((s.canX p).abd + 1) tag
    else
      let tec := s.fld (R.CF_ERRCNT p) F.CF_ERRCNT_TEC + (if tx then step else 0)
      let s := s.when (!tx) (fun s => s.canRec p ((s.canX p).recN + step))
      let s := match tx, s.canCurrent p with
        | true, some e =>
          let x := s.txX p e
          let s := if kind = CanErr.bit then s.canCollide p x.frame tag else s.setCanX p { s.canX p with coll := none }
          if x.cancel then s.canFinish p e (if won then 3 else 1) tag else s.setTx p e 1
        | _, _ => s.when (s.role = 2) (fun s => s.canUnoffer p)
      (s.canLevel p tec).canFree p

-- reception

/-- Deliver filled receive entries into posted slots (R407, R464). -/
def State.canDeliverN (s : State) (p fuel : Nat) : State :=
  match fuel with
  | 0 => s
  | n + 1 =>
    let k := 33 + 2 * p
    let h := s.hringX k
    let x := s.canX p
    match h.posted, x.rxQ with
    | d :: rest, (e, f, tag) :: more =>
      if !s.ringServed k then s
      else
        let head := s.fld (R.HI_RING_HEAD k) F.HI_RING_HEAD_INDEX
        let back (s : State) (err : Bool) (len : Nat) (p0 p1 p2 : Word) : State :=
          ((s.emit (.ring k head 0 d.tag err [Word.ofN len, Word.ofN d.addr, Word.ofN (d.addr / 2 ^ 32), p0, p1, p2,
            0])).ringAdvance k).ringIrq k d.irq
        if d.len < 64 then
          (back (s.setHringX k { h with posted := rest }) true 0 d.p0 d.p1 d.p2).canDeliverN p n
        else
          let s := s.setHringX k { h with posted := rest, carried := h.carried ++ [(head, p, e, false)] }
          let s := s.setCanX p { x with rxQ := more, rxOwn := x.rxOwn ++ [e] }
          (back (s.hostPut d.addr f.data) false f.data.length (canP0 f) (canP1 f e 0) tag).canDeliverN p n
    | _, _ => s
def State.canDeliver (s : State) (p : Nat) : State :=
  s.canDeliverN p ((s.hringX (33 + 2 * p)).posted.length + 1)
/-- A HOST frame takes a free receive entry, or is lost (R407). -/
def State.canHostRx (s : State) (p : Nat) (f : CanFrame) (tag : Word) : State :=
  let x := s.canX p
  match ((List.range 256).filter (fun e => !x.rxOwn.contains e && !(x.rxQ.any (fun q => q.1 = e)))).head? with
  | some e => (s.setCanX p { x with rxQ := x.rxQ ++ [(e, f, tag)], ovf := false }).canDeliver p
  | none =>
    let s := (s.incr (R.CF_RX_LOST_CNT p)).set1 (R.CF_STAT p) F.CF_STAT_RX_OVF
    if x.ovf then s
    else (s.setCanX p { x with ovf := true }).canWarn p 1 F.CF_STAT_RX_OVF.mask tag
/-- The first map entry that a frame matches (R404). -/
def State.canMatch (s : State) (p : Nat) (f : CanFrame) : Option (Nat × RxAction) :=
  let map := (Smap.find s.img.canRx p).getD []
  ((List.range map.length).zip map).findSome? (fun im =>
    if im.2.ide = f.ide ∧ f.ident &&& im.2.mask = im.2.ident &&& im.2.mask then some (im.1, im.2.action) else none)
/-- The action of a frame that matches a map entry or none (R404): a remote frame goes to the host in place of the image or a
flow (R397). -/
def State.canAct (s : State) (p : Nat) (f : CanFrame) (m : Option RxAction) : RxAction :=
  match m with
  | none => if s.bit (R.CF_CFG p) F.CF_CFG_DEFAULT then .host else .drop
  | some .drop => .drop
  | some a => if f.rtr then .host else a
/-- A received frame takes its action (R404): what enters the control path goes through the log. -/
def State.canAccept (s : State) (p : Nat) (f : CanFrame) (tag : Word) : State :=
  let m := s.canMatch p f
  let i := match m with
    | some e => e.1
    | none => 128
  match s.canAct p f (m.map Prod.snd) with
  | .drop => s
  | .host => s.canHostRx p f tag
  | _ => s.logAdd tag (.canRx (Fin.ofNat 16 p) i f)
/-- Write a word of the input image with its sample time. -/
def State.setInputAt (s : State) (w : Nat) (v t : Word) : State :=
  { s.wr (R.IN_WORD w) v with sampleT := Smap.set (fun _ => (0 : Word)) s.sampleT w t }
/-- A write of the host to a word of the input image: its sample time is open (log 1). -/
def State.setInput (s : State) (w : Nat) (v : Word) : State :=
  let (t, s) := s.draw
  s.setInputAt w v t
/-- A reception writes its words and the status word, with its stamp at the end of frame as their sample time (R405, log 269). -/
def State.canImage (s : State) (p entry word : Nat) (f : CanFrame) (tag : Word) : State :=
  let x := s.canX p
  let n := (Smap.get (fun _ => 0) x.rxN entry + 1) % 256
  let s := s.setCanX p { x with rxN := Smap.set (fun _ => 0) x.rxN entry n }
  let ws := bytesWords f.data
  let st := n + f.data.length * 2 ^ 8 + (if f.fdf then 2 ^ 15 else 0) + (if f.esi then 2 ^ 16 else 0)
  let all := ((List.range ws.length).map (fun i => (word + i, ws.getD i 0))) ++ [(word + 16, Word.ofN st)]
  s.each all (fun s e => { s.setInputAt e.1 e.2 tag with canAge := Smap.put s.canAge e.1 256 })
/-- A reception moves the counters towards error-active, as the standard gives it (R410). -/
def State.canGood (s : State) (p : Nat) : State :=
  let n := (s.canX p).recN
  let (w, s) := if n ≥ 128 then s.draw else (0, s)
  let n' := if n = 0 then 0 else if n < 128 then n - 1 else 119 + w.toNat % 9
  (s.canRec p n').canLevel p (s.fld (R.CF_ERRCNT p) F.CF_ERRCNT_TEC)
/-- A standby hears the frame of an entry: the holder has sent it (R416), and no other frame of the holder was on the bus. -/
def State.canHeard (s : State) (p : Nat) (f : CanFrame) : State :=
  let es := ((s.canIn p 1 ++ s.canIn p 2).filter (fun e => canSame (s.txX p e).frame f))
  (s.each es (fun s e => s.setTxX p e { s.txX p e with heard := true })).canUnoffer p
/-- A frame arrives that passes its checks (R403, R404, R416). -/
def State.canReceive (s : State) (p : Nat) (f : CanFrame) (tag : Word) : State :=
  let eff := s.canEff p
  let x := s.canX p
  if eff = 0 ∨ x.integ = false ∨ s.canBusOff p = true then s
  else if eff = 3 then
    if f.brs then s
    else if x.abdN = 0 then s.setCanX p { x with abdN := 1 }
    else
      let s := s.wr (R.CF_NBT p) (s.rd (R.CF_ABD_RATE p x.abd))
      let s := (s.setFld (R.CF_ABD p) F.CF_ABD_RESULT x.abd).set1 (R.CF_STAT p) F.CF_STAT_ABD_DONE
      s.canMode p 2 tag
  else
    let s := (s.incr (R.CF_RX_CNT p)).canGood p
    let s := if s.role = 2 then
        let b := (s.canX p).buf ++ [(f, false)]
        (s.setCanX p { s.canX p with buf := b.drop (b.length - 64) }).canHeard p f
      else s.canAccept p f tag
    s.canFree p

-- the pair

/-- A logged reception of the holder marks the oldest matching frame (R416). -/
def markFrame (f : CanFrame) : List (CanFrame × Bool) → List (CanFrame × Bool)
  | [] => []
  | (g, m) :: t => if !m && canSame g f then (g, true) :: t else (g, m) :: markFrame f t
def State.canMark (s : State) (p : Nat) (f : CanFrame) : State :=
  s.setCanX p { s.canX p with buf := markFrame f (s.canX p).buf }
/-- The frames after the last marked one; all of them if none is marked. -/
def unmarkedTail (b : List (CanFrame × Bool)) : List CanFrame :=
  ((b.reverse.takeWhile (fun e => !e.2)).reverse).map (fun e => e.1)
/-- A new holder takes up the buffered frames of its ports (R416): it logs each, with the map entry that it matches, or 128. -/
def State.canTakeover (s : State) (tag : Word) : State :=
  let s := s.each (List.range 16) (fun s p =>
    let s := s.each ((List.range 64).filter (fun e => s.txState p e = 2)) (fun s e => s.setTx p e 1)
    let b := (s.canX p).buf
    let rest := unmarkedTail b
    let pend := (List.range 64).filter (fun e => s.txState p e = 1)
    let again := pend.any (fun e => (s.txX p e).heard && !(s.txX p e).cancel)
    let s := s.when (b ≠ [] && !b.any (fun g => g.2)) (fun s => s.set1 (R.CF_STAT p) F.CF_STAT_TKO_UNMATCHED)
    let s := s.when again (fun s => s.set1 (R.CF_STAT p) F.CF_STAT_TKO_RESENT)
    let s := s.setCanX p { s.canX p with buf := [] }
    let s := s.each pend (fun s e => s.setTxX p e { s.txX p e with heard := false })
    let s := s.each (pend.filter (fun e => (s.txX p e).cancel)) (fun s e => s.canFinish p e 1 tag)
    s.each rest (fun s f => s.logAdd tag (.canRx (Fin.ofNat 16 p) (match s.canMatch p f with
      | some e => e.1
      | none => 128) f)))
  s.canUpdateAll tag
/-- RECLAIM of the HOST entries of a port (R414). -/
def State.canReclaim (s : State) (p : Nat) : State :=
  let x := s.canX p
  let s := s.addTo (R.CF_RX_LOST_CNT p) x.rxOwn.length
  let s := s.setCanX p { x with rxOwn := [] }
  let s := s.each (List.range 64) (fun s e =>
    let st := s.txState p e
    if s.bit (R.CF_TXE p e) F.CF_TXE_KIND && (st = 1 || st = 3) then
      let s := match st, (s.txX p e).desc with
        | 1, some (slot, d) => s.canWriteBack p slot e 6 d
        | _, _ => s
      ((s.setFld (R.CF_TXE p e) F.CF_TXE_STATUS 6).setTx p e 0).setTxX p e default
    else s)
  let s := s.each [32 + 2 * p, 33 + 2 * p] (fun s k => s.setHringX k { s.hringX k with carried := [] })
  s.canTake p
/-- The slot of a ring is posted again: the entry that its write-back carried returns (R457). -/
def State.canReturn (s : State) (k slot : Nat) : State :=
  let h := s.hringX k
  match h.carried.find? (fun c => c.1 = slot) with
  | none => s
  | some (_, p, e, tx) =>
    let s := s.setHringX k { h with carried := h.carried.filter (fun c => c.1 ≠ slot) }
    if tx then ((s.setTx p e 0).setTxX p e default).canTake p
    else s.setCanX p { s.canX p with rxOwn := (s.canX p).rxOwn.filter (fun i => i ≠ e) }

-- the commands

/-- CAN_FRAME_RECEIVE (R404). -/
def execCanFrameReceive (p : CanIx) (off : Nat) (f : CanFrame) (s : State) : Host.Outcome State Fault Refusal :=
  .next (s.canReceive p f (s.tag off))
/-- CAN_TX_COMPLETE (R410, R400): the frame on the bus is acknowledged. -/
def execCanTxComplete (p : CanIx) (off : Nat) (tdc : Nat) (s : State) : Host.Outcome State Fault Refusal :=
  if s.role = 2 then .next s
  else
  let s := s.canFree p
  match s.canCurrent p with
  | none => .next s
  | some e =>
    let x := s.txX p e
    let tag := s.tag off
    let s := s.incr (R.CF_TX_CNT p)
    let s := s.when (s.bit (R.CF_DBT p) F.CF_DBT_TDC_EN && x.frame.fdf && x.frame.brs) (fun s =>
      let s := s.setFld (R.CF_TDC_MEAS p) F.CF_TDC_MEAS_CYCLES (min tdc 127)
      s.when (tdc > 127) (fun s =>
        (s.set1 (R.CF_STAT p) F.CF_STAT_TDC_SAT).canWarn p 1 F.CF_STAT_TDC_SAT.mask tag))
    let tec := s.fld (R.CF_ERRCNT p) F.CF_ERRCNT_TEC
    let s := (s.setCanX p { s.canX p with coll := none }).canLevel p (tec - 1)
    .next (((s.canFinish p e (if x.cancel then 2 else 0) tag).canTake p).canOffer p)
/-- ARBITRATION_LOST (R410, R413): another node's frame is on the bus from now on. -/
def execArbitrationLost (p : CanIx) (s : State) : Host.Outcome State Fault Refusal :=
  if s.role = 2 then .next s
  else
  let s := s.canFree p
  match s.canCurrent p with
  | none => .next s
  | some e =>
    let s := (s.incr (R.CF_ARB_LOST_CNT p)).setBusy p true
    .next (if (s.txX p e).cancel then s.canFinish p e 1 (s.tag 0) else s.setTx p e 1)
/-- CAN_ERROR (R410, R413). -/
def execCanError (p : CanIx) (kind : CanErr) (side : CanSide) (step : Nat) (s : State) :
    Host.Outcome State Fault Refusal :=
  .next (s.canErr p kind (decide (side ≠ .receiver) && decide (s.role ≠ 2)) (decide (side = .sender)) step (s.tag 0))
/-- BUS_INTEGRATION (R402). -/
def execBusIntegration (p : CanIx) (s : State) : Host.Outcome State Fault Refusal :=
  if s.canEff p = 0 then .next s
  else .next ((s.setCanX p { s.canX p with integ := true }).canFree p)
/-- BUS_OFF_RECOVERY (R411): 128 occurrences of 11 recessive bits after RECOVER. -/
def execBusOffRecovery (p : CanIx) (s : State) : Host.Outcome State Fault Refusal :=
  if s.canBusOff p && (s.canX p).recov then
    let s := (s.setFld (R.CF_STAT p) F.CF_STAT_STATE 0).setFld (R.CF_ERRCNT p) F.CF_ERRCNT_TEC 0
    .next (((s.canRec p 0).setCanX p { (s.canRec p 0).canX p with recov := false }).canFree p)
  else .next s
/-- RECOVER (R411). -/
def State.canRecover (s : State) (p : Nat) : State :=
  s.when (s.canBusOff p) (fun s => s.setCanX p { s.canX p with recov := true })
def execRecover (p : CanIx) (s : State) : Host.Outcome State Fault Refusal := .next (s.canRecover p)
/-- CANCEL (R413). -/
def execCancel (p : CanIx) (entry : Fin 64) (s : State) : Host.Outcome State Fault Refusal :=
  .next (s.canCancel p entry)
/-- ABD_RESTART (R403): the candidates are tried again from the first. -/
def State.abdRestart (s : State) (p : Nat) (tag : Word) : State :=
  if s.canEff p = 3 then s.abdNext p 0 tag else s.canMode p 3 tag
def execAbdRestart (p : CanIx) (s : State) : Host.Outcome State Fault Refusal := .next (s.abdRestart p (s.tag 0))
/-- ABD_WINDOW_EXPIRY (R403). -/
def execAbdWindowExpiry (p : CanIx) (s : State) : Host.Outcome State Fault Refusal :=
  if s.canEff p = 3 then .next (s.abdNext p ((s.canX p).abd + 1) (s.tag 0)) else .next s
/-- CAN_TIMING_WRITE (R401): with the key in PROGRAM or REMOTE; CF_PRESC is read-only but on port 4g (R417). -/
def execCanTimingWrite (p : CanIx) (reg : Fin 3) (v : Word) (s : State) : Host.Outcome State Fault Refusal :=
  .next (if s.mode ≠ 1 ∧ s.mode ≠ 2 then s.werr false (R.CF_NBT p + 4 * reg) 1
    else if reg = 2 ∧ p.val % 4 ≠ 0 then s.werr false (R.CF_PRESC p) 3 else s.canTiming p reg v)
/-- CAN_MODE_REQUEST (R402). -/
def execCanModeRequest (p : CanIx) (req : BitVec 2) (s : State) : Host.Outcome State Fault Refusal :=
  .next (s.canMode p req.toNat (s.tag 0))
/-- CAN_CLOCK_GOOD (R402): CLK_CAN has been good for 100 µs. -/
def execCanClockGood (s : State) : Host.Outcome State Fault Refusal :=
  .next ({ s with canBad := false }.canUpdateAll (s.tag 0))

end Sys2Proof.Machine
end

