-- ==== Sys2Proof/Machine/Fp.lean ====
section
/-!
DEFINITION. binary32 arithmetic as IEEE 754 gives it, rounded to nearest with ties to even (R154, R166, R199,
R200), with the status bits of R198 to R200 beside each result.
-/
namespace Sys2Proof.Machine

/-- The status bits that an operation sets: saturation, division by zero, invalid. -/
structure Fx where
  sat : Bool
  divz : Bool
  inv : Bool
  deriving DecidableEq, Repr, Inhabited

/-- No status bit. -/
def Fx.none : Fx := ⟨false, false, false⟩
/-- The result of an invalid operation (R199). -/
def F32.invalid : Word × Fx := (F32.qNaN, ⟨false, false, true⟩)
/-- A result without a status bit. -/
def F32.ok (w : Word) : Word × Fx := (w, Fx.none)
/-- The word with its sign inverted. -/
def F32.flip (w : Word) : Word := w ^^^ 0x80000000
/-- An exact value rounded once; an exact zero takes the given sign. -/
def F32.ofSum (d : Dy) (negZero : Bool) : Word := if d.m = 0 then F32.zero negZero else F32.ofDy d

/-- The exact sum of some words, rounded once (R197 ADD). -/
def F32.sum (ws : List Word) : Word × Fx :=
  if ws.any F32.isNaN then F32.invalid
  else
    let infs := ws.filter F32.isInf
    match infs with
    | [] => F32.ok (F32.ofSum (ws.foldl (fun a w => a.add (F32.toDy w)) Dy.zero)
        (ws.all (fun w => F32.isZero w && F32.sign w)))
    | w :: t => if t.all (fun x => x = w) then F32.ok w else F32.invalid
/-- A + B. -/
def F32.add (a b : Word) : Word × Fx := F32.sum [a, b]
/-- A − B; a NaN operand stays one. -/
def F32.sub (a b : Word) : Word × Fx := F32.sum [a, F32.flip b]
/-- A × B. -/
def F32.mul (a b : Word) : Word × Fx :=
  let n := F32.sign a != F32.sign b
  if F32.isNaN a || F32.isNaN b then F32.invalid
  else if F32.isInf a || F32.isInf b then
    if F32.isZero a || F32.isZero b then F32.invalid else F32.ok (F32.inf n)
  else F32.ok (F32.ofSum ((F32.toDy a).mul (F32.toDy b)) n)
/-- A × B + C, rounded once. -/
def F32.muladd (a b c : Word) : Word × Fx :=
  let n := F32.sign a != F32.sign b
  if F32.isNaN a || F32.isNaN b || F32.isNaN c then F32.invalid
  else if F32.isInf a || F32.isInf b then
    if F32.isZero a || F32.isZero b then F32.invalid
    else if F32.isInf c && F32.sign c != n then F32.invalid
    else F32.ok (F32.inf n)
  else if F32.isInf c then F32.ok c
  else
    let p := (F32.toDy a).mul (F32.toDy b)
    F32.ok (F32.ofSum (p.add (F32.toDy c)) (p.m = 0 && n && F32.isZero c && F32.sign c))
/-- A magnitude quotient m / n × 2^e rounded, with the remainder kept as a sticky bit. -/
def F32.quot (neg : Bool) (m n : Nat) (e : Int) : Word :=
  let k : Nat := 60
  let q := m * 2 ^ k / n
  let sticky := if m * 2 ^ k % n = 0 then 0 else 1
  F32.round neg (2 * q + sticky) (e - k - 1)
/-- A / B (R199). -/
def F32.div (a b : Word) : Word × Fx :=
  let n := F32.sign a != F32.sign b
  if F32.isNaN a || F32.isNaN b then F32.invalid
  else if F32.isInf a then (if F32.isInf b then F32.invalid else F32.ok (F32.inf n))
  else if F32.isInf b then F32.ok (F32.zero n)
  else if F32.isZero b then
    if F32.isZero a then F32.invalid else (F32.inf n, ⟨false, true, false⟩)
  else if F32.isZero a then F32.ok (F32.zero n)
  else
    let x := F32.toDy a
    let y := F32.toDy b
    F32.ok (F32.quot n x.m.natAbs y.m.natAbs (x.e - y.e))
/-- The integer square root of n, found bit by bit from 2^k. -/
def Nat.isqrt (k n : Nat) : Nat :=
  match k with
  | 0 => if 1 ≤ n then 1 else 0
  | j + 1 =>
    -- the bits above bit j are in r; bit j is tried last
    let r := Nat.isqrt j (n / 4)
    let t := 2 * r + 1
    if t * t ≤ n then t else 2 * r
/-- √A (R199). -/
def F32.sqrt (a : Word) : Word × Fx :=
  if F32.isNaN a then F32.invalid
  else if F32.isZero a then F32.ok a
  else if F32.sign a then F32.invalid
  else if F32.isInf a then F32.ok a
  else
    let x := F32.toDy a
    -- an even exponent, and at least 60 bits below the point
    let odd := x.e % 2 ≠ 0
    let m := x.m.natAbs * (if odd then 2 else 1) * 2 ^ 60
    let e := (if odd then x.e - 1 else x.e) - 60
    let r := Nat.isqrt 48 m
    let sticky := if r * r = m then 0 else 1
    F32.ok (F32.round false (2 * r + sticky) (e / 2 - 1))
/-- A = B; false for a NaN. -/
def F32.eq (a b : Word) : Bool :=
  !F32.isNaN a && !F32.isNaN b && (a = b || (F32.isZero a && F32.isZero b))
/-- A < B; false for a NaN. -/
def F32.lt (a b : Word) : Bool :=
  if F32.isNaN a || F32.isNaN b then false
  else if F32.isInf a then F32.sign a && a ≠ b
  else if F32.isInf b then !F32.sign b
  else (F32.toDy a).lt (F32.toDy b)
/-- A ≤ B; false for a NaN. -/
def F32.le (a b : Word) : Bool := F32.lt a b || F32.eq a b
/-- The smaller; the operand that is not NaN (R199). -/
def F32.min (a b : Word) : Word :=
  if F32.isNaN a then (if F32.isNaN b then F32.qNaN else b)
  else if F32.isNaN b then a else if F32.lt b a then b else a
/-- The larger; the operand that is not NaN (R199). -/
def F32.max (a b : Word) : Word :=
  if F32.isNaN a then (if F32.isNaN b then F32.qNaN else b)
  else if F32.isNaN b then a else if F32.lt a b then b else a
/-- |A|; a NaN operand is invalid. -/
def F32.abs (a : Word) : Word × Fx := if F32.isNaN a then F32.invalid else F32.ok (a &&& 0x7FFFFFFF)
/-- −A; a NaN operand is invalid. -/
def F32.neg (a : Word) : Word × Fx := if F32.isNaN a then F32.invalid else F32.ok (F32.flip a)
/-- An integer as binary32 (R166, R197). -/
def F32.ofInt (i : Int) : Word := F32.ofDy (Dy.ofInt i)
/-- A binary32 value as an integer in [lo, hi] (R200): NaN gives 0 and INVALID; a value beyond saturates. -/
def F32.toInt (lo hi : Int) (trunc : Bool) (a : Word) : Int × Fx :=
  if F32.isNaN a then (0, ⟨false, false, true⟩)
  else if F32.isInf a then (if F32.sign a then lo else hi, ⟨true, false, false⟩)
  else
    let d := F32.toDy a
    let v : Int := if trunc then (if d.m < 0 then -(d.neg.floorTo 0) else d.floorTo 0) else d.rneTo 0
    if v > hi then (hi, ⟨true, false, false⟩) else if v < lo then (lo, ⟨true, false, false⟩) else (v, Fx.none)

end Sys2Proof.Machine
end

