-- ==== Sys2Proof/Machine/Record.lean ====
section
/-!
DEFINITION. The record streamer (R317 to R331): specifications, groups, blocks, streams with their gaps, and the
marks that other units insert.
-/
namespace Sys2Proof.Machine

-- streams

/-- A stream is enabled (R351). -/
def State.streamOn (s : State) (st : Nat) : Bool := (s.fld R.RS_CTRL F.RS_CTRL_ENABLE).testBit st
/-- The enabled streams. -/
def State.streamsOn (s : State) : List Nat := (List.range 8).filter s.streamOn
/-- Blocks that the share of a stream holds at most (R327). -/
def State.streamCap (s : State) (st : Nat) : Nat := s.fld (R.RS_S_CFG st) F.RS_S_CFG_SIZE_MIB * 16384
/-- Show the fill of a share. -/
def State.streamShow (s : State) (st : Nat) : State :=
  let n := (s.streamX st).blocks.length
  let s := (s.setFld (R.RS_S_FILL st) F.RS_S_FILL_BLOCKS n).maxFld (R.RS_S_FILL_MAX st) F.RS_S_FILL_MAX_BLOCKS n
  s.setB (R.RS_S_STAT st) F.RS_S_STAT_FULL (n ≥ s.streamCap st)
/-- A stream discards blocks: its share is full, or has not yet drained to 1 MiB of free space (R329). -/
def State.streamFull (s : State) (st : Nat) : Bool :=
  (s.streamX st).blocks.length ≥ s.streamCap st || s.bit (R.RS_S_STAT st) F.RS_S_STAT_GAP_OPEN
/-- Write a block into a stream (R322, R327), or discard it while the share is full (R329). -/
def State.blkWrite (s : State) (st : Nat) (b : Blk) : State :=
  if !s.streamOn st then s
  else
    let x := s.streamX st
    if s.streamFull st then
      let s := (s.incr (R.RS_S_LOST st)).set1 (R.RS_S_STAT st) F.RS_S_STAT_GAP_OPEN
      s.setStreamX st { x with lost := x.lost + 1, lostA := if x.lost = 0 then b.t else x.lostA, lostB := b.t }
    else
      let q := s.rd (R.RS_S_BSEQ st)
      let s := s.setStreamX st { x with blocks := x.blocks ++ [{ b with bseq := q }] }
      let s := { s with recBytes := s.recBytes + 64 }
      (s.incr (R.RS_S_BSEQ st)).streamShow st
/-- The 16 words of a block (R322). -/
def Blk.words (b : Blk) : List Word :=
  let head := [tagOf b.t, Word.ofN (b.typ + b.n * 2 ^ 8 + b.spec * 2 ^ 16), b.bseq, Word.ofN b.interval]
  (head ++ b.ws ++ List.replicate 12 0).take 16
/-- A mark: a block without entries (R323). -/
def Blk.mark (t typ : Nat) (ws : List Word) : Blk := ⟨t, typ, 0, 0xFFFF, 0, 0, ws⟩
/-- Seconds of a device time, low and high word, and its nanoseconds. -/
def secLo (t : Nat) : Word := Word.ofN (t / 1000000000)
def secHi (t : Nat) : Word := Word.ofN (t / 1000000000 / 2 ^ 32 % 2 ^ 16)
def nsOf (t : Nat) : Word := Word.ofN (t % 1000000000)
/-- An EPOCH block (R323, R325) at a device time, with STEP and FIRST. -/
def State.epochBlk (s : State) (t : Nat) (step first : Bool) : Blk :=
  let fl := (if s.fld R.TM_STATE F.TM_STATE_STATE = 0 then 1 else 0) + (if step then 2 else 0) +
    (if first then 4 else 0)
  .mark t 8 [secLo t, secHi t + Word.ofN (fl * 2 ^ 16), nsOf t,
    Word.ofN (s.fld R.TM_RTC_UTC F.TM_RTC_UTC_UTC_OFS)]
/-- A GAP block (R329, R330). One that is written shows in RS_STAT and is a WARN against the ring. -/
def State.gapWrite (s : State) (st cause lost a b t : Nat) : State :=
  let room : Bool := s.streamOn st && !s.streamFull st
  let s := s.blkWrite st (.mark t 11 [Word.ofN cause, Word.ofN (min lost (2 ^ 32 - 1)), secLo a, secHi a, nsOf a,
    secLo b, secHi b, nsOf b])
  s.when room (fun s => ((s.incr (R.RS_S_GAPS st)).set1 R.RS_STAT F.RS_STAT_GAP).eventU false 0x6001 1 0xC (16 + st) [])
/-- A USER block in every enabled stream (R331). -/
def State.userMark (s : State) (arg : Word) (lane : Nat) (seq : Word) (step t : Nat) : State :=
  s.each s.streamsOn (fun s st => s.blkWrite st (.mark t 12 [arg, Word.ofN lane, seq, Word.ofN step]))
/-- A TRIGGER mark in the streams of a mask (R323, R339, R350). -/
def State.trigMark (s : State) (mask src kind : Nat) (uncal : Bool) (cnt : Word) (t : Nat) (win row : Word) :
    State :=
  let w := Word.ofN (src + kind * 2 ^ 16 + (if uncal then 2 ^ 24 else 0))
  s.each (s.streamsOn.filter mask.testBit) (fun s st =>
    s.blkWrite st (.mark t 9 [w, cnt, secLo t, secHi t, nsOf t, win, row]))
/-- A SUPPRESSED mark in the streams of a mask (R341). -/
def State.suppMark (s : State) (mask src kind n a b : Nat) (win : Word) (t : Nat) : State :=
  s.each (s.streamsOn.filter mask.testBit) (fun s st =>
    s.blkWrite st (.mark t 10 [Word.ofN (src + kind * 2 ^ 16), Word.ofN n, tagOf a, tagOf b, win]))

-- specifications

/-- A word of a specification (R318). -/
def State.specWord (s : State) (i w : Nat) : Word := Smap.get (fun _ => 0) s.specs (4 * i + w)
def specKind (w0 : Word) : Nat := w0.toNat % 4
def specDiscrete (w0 : Word) : Bool := w0.getLsbD 2
def specDmode (w0 : Word) : Nat := w0.toNat / 8 % 4
def specStream (w0 : Word) : Nat := w0.toNat / 32 % 8
/-- The specifications that record into an enabled stream. -/
def State.specsOn (s : State) : List Nat :=
  s.specs.filterMap (fun e =>
    if e.1 % 4 = 0 ∧ e.2.getLsbD 8 = true ∧ s.streamOn (specStream e.2) = true then some (e.1 / 4) else none)
/-- A reference that the variant has (R53, R318). -/
def State.refExists (s : State) (ref : Nat) : Bool :=
  let i := Ref.index ref
  ref < 2 ^ 20 && ref ≠ Ref.none &&
    (match Ref.space ref with
    | 2 => i < 4 * s.dies * 8192
    | 3 => i < 4 * s.dies * 8192
    | 4 => i < 1024 * s.dies * 32
    | 5 => i < 32 * s.dies * 32
    | 6 => i < 4096
    | 7 => i < 6 || (0x100 ≤ i && i < 0x100 + 504) || (0x400 ≤ i && i < 0x400 + 256 * s.dies) || (0x800 ≤ i && i < 0x804)
    | _ => true)
/-- The rules of R318 for a specification. -/
def State.specOk (s : State) (i : Nat) (w : List Word) : Bool :=
  let w0 := w.getD 0 0
  let w1 := w.getD 1 0
  let w2 := (w.getD 2 0).toNat
  let src := w1.toNat
  i < 65535 && w0.toNat < 512 && src < 2 ^ 20 && w2 < 2 ^ 16 && w.getD 3 0 = 0 &&
    (if specDiscrete w0 then w2 = 1 else specDmode w0 ≠ 3 && w2 ≠ 0) &&
    (match specKind w0 with
    | 0 => s.refExists src
    | 1 => src < 2 ^ 17 && src % 4096 < 1024 * s.dies
    | 2 => src < 2 ^ 9 && src % 256 < 48 * s.dies
    | _ => false)
/-- The region that a reference reads, if it is not the hub's (R330). -/
def refRegion (ref : Nat) : Option Nat :=
  let i := Ref.index ref
  match Ref.space ref with
  | 2 => some (i / 8192)
  | 3 => some (i / 8192)
  | 4 => some (i / 32 / 256)
  | 5 => some (i / 32 / 8)
  | _ => none
/-- The region of a specification's source. -/
def State.specRegion (s : State) (i : Nat) : Option Nat :=
  let src := (s.specWord i 1).toNat
  match specKind (s.specWord i 0) with
  | 0 => refRegion src
  | 1 => some (src % 4096 / 256)
  | _ => some (src % 256 / 12)
/-- The source cannot be recorded: its region's DRAM port or its die is fenced (R330). -/
def State.specCut (s : State) (i : Nat) : Bool :=
  match s.specRegion i with
  | some r => s.bit (R.CE_STAT r) F.CE_STAT_FENCED || s.fenced (r / 4)
  | none => false
/-- The type of a source; none for the s1.31 output of a filter. -/
def State.specTy (s : State) (i : Nat) : Option Ty :=
  let src := (s.specWord i 1).toNat
  match specKind (s.specWord i 0) with
  | 0 => some (s.refTy src)
  | 1 => some (slotFieldTy (src / 4096 % 32))
  | _ => none
/-- INTERVAL in u28.4 ns (R324), to the nearest step; above the range it is 0. -/
def State.specInterval (s : State) (i : Nat) : Nat :=
  let src := (s.specWord i 1).toNat
  let dec := (s.specWord i 2).toNat % 2 ^ 16
  let v := match specKind (s.specWord i 0) with
    | 0 => 16 * dec * s.period
    | 1 => 16 * dec * s.slotPeriod (src % 4096)
    | _ =>
      let ch := src % 256
      let osr := if src / 256 = 1 then s.fld (R.SD_CFG ch) F.SD_CFG_FAST_OSR else s.fld (R.SD_CFG ch) F.SD_CFG_MAIN_OSR
      let f := s.fld (R.SD_GRP_CFG (ch / 4)) F.SD_GRP_CFG_FNOM
      if f = 0 then 0 else (16 * dec * osr * 1000000 + f / 2) / f
  if v < 2 ^ 32 then v else 0

-- open blocks

/-- Close the open block of a key and write it (R324). -/
def State.blkClose (s : State) (key : Nat) : State :=
  match Smap.find s.opens key with
  | none => s
  | some o =>
    let s := { s with opens := Smap.erase s.opens key }
    s.blkWrite o.stream ⟨o.t, o.typ, o.ents.length, if o.typ = 2 then 0xFFFF else o.spec, 0, o.interval,
      o.ents.flatten⟩
/-- Add an entry to the open block of a key (R322 to R324): type 0, 1 or 2. -/
def State.blkPut (s : State) (key st typ spec interval t : Nat) (ent : List Word) : State :=
  let s := match Smap.find s.opens key with
    | some o =>
      let d : Int := 16 * (t : Int) - (16 * o.t + o.ents.length * o.interval : Nat)
      s.when (typ ≠ 2 && d.natAbs ≥ 16) (fun s => s.blkClose key)
    | none => s
  let o := match Smap.find s.opens key with
    | some o => { o with ents := o.ents ++ [ent] }
    | none => ⟨st, typ, spec, t, interval, [ent]⟩
  let cap := if typ = 2 then 4 else if interval = 0 then 1 else if typ = 0 then 12 else 6
  ({ s with opens := Smap.put s.opens key o }).when (o.ents.length ≥ cap) (fun s => s.blkClose key)
/-- Quarters of a byte that the staging area holds at a device time: the streamer writes 1 GB/s of blocks, which hold 48 value
bytes in 64, so three quarters of a value byte leave in each nanosecond (R328; log 86). -/
def State.stageNow (s : State) (t : Nat) : Nat := s.stageQ - 3 * (t - s.stageAt)
/-- A value of a stream that finds the staging area full is discarded; the next one that finds room comes after a GAP of
cause RATE (R328, R330). -/
def State.stagePut (s : State) (key st typ spec interval t : Nat) (ent : List Word) : State :=
  let x := s.streamX st
  let n := s.stageNow t + 16 * ent.length
  if n > 4 * 1048576 then
    let a := match x.rate with
      | some r => r.1
      | none => t
    (s.setStreamX st { x with rate := some (a, t) }).set1 R.RS_STAT F.RS_STAT_RATE
  else
    let s := { s with stageQ := n, stageAt := max t s.stageAt }.maxFld R.RS_STAGE_MAX F.RS_STAGE_MAX_BYTES ((n + 3) / 4)
    let s := match x.rate with
      | some (a, b) => (s.setStreamX st { x with rate := none }).gapWrite st 2 0 a b t
      | none => s
    s.blkPut key st typ spec interval t ent
/-- The key of a specification's block: a stream has one open DISCRETE block. -/
def State.specKey (s : State) (i : Nat) : Nat :=
  let w0 := s.specWord i 0
  if specDiscrete w0 then 65536 + specStream w0 else i

-- groups

/-- A dyadic rounded to binary64, to nearest with ties to even (R320). -/
def roundB64 (d : Dy) : Dy :=
  let q : Int := max ((Nat.log2 d.m.natAbs : Int) + d.e - 52) (-1074)
  if q ≤ d.e then d else ⟨d.rneTo q, q⟩
/-- Order of two words of a source's type (R320). -/
def srcLt (ty : Option Ty) (a b : Word) : Bool :=
  match ty with
  | some .u32 => a.toNat < b.toNat
  | some .f32 => F32.lt a b
  | _ => a.toInt < b.toInt
/-- A source word as a number. -/
def srcDy (ty : Option Ty) (w : Word) : Dy :=
  match ty with
  | some t => (Ty.toDy t w).getD Dy.zero
  | none => ⟨w.toInt, -31⟩
/-- Take one instant into a group (R320). -/
def GroupX.take (g : GroupX) (ty : Option Ty) (v : Option Word) : GroupX :=
  let g := { g with n := g.n + 1, last := v }
  match v with
  | none => g
  | some w =>
    if ty = some .f32 ∧ F32.isNaN w = true then g
    else
      let inf := ty = some .f32 ∧ F32.isInf w = true
      { g with
        cnt := g.cnt + 1
        sum := roundB64 (g.sum.add (srcDy ty w))
        infP := g.infP || (inf && !F32.sign w)
        infN := g.infN || (inf && F32.sign w)
        mn := if g.cnt = 0 ∨ srcLt ty w g.mn = true then w else g.mn
        mx := if g.cnt = 0 ∨ srcLt ty g.mx w = true then w else g.mx }
/-- The mean of a group as binary32 (R320). -/
def GroupX.mean (g : GroupX) : Word :=
  if g.infP && g.infN then F32.qNaN
  else if g.infP then F32.inf false
  else if g.infN then F32.inf true
  else F32.quot (g.sum.m < 0) g.sum.m.natAbs g.cnt g.sum.e
/-- The entry that a full group yields for a DMODE, if any. -/
def GroupX.entry (g : GroupX) (dmode : Nat) : Option (List Word) :=
  match dmode with
  | 0 => g.last.map (fun w => [w])
  | 1 => if g.cnt = 0 then none else some [g.mean]
  | _ => if g.cnt = 0 then none else some [g.mn, g.mx]

/-- One source instant of a specification (R319 to R321): its time, and its value if there is one. -/
def State.recSource (s : State) (i t : Nat) (v : Option Word) : State :=
  let w0 := s.specWord i 0
  if s.specCut i then s
  else if specDiscrete w0 then
    match v with
    | none => s
    | some w =>
      if Smap.find s.recLast i = some w then s
      else
        { s with recLast := Smap.put s.recLast i w }.stagePut (s.specKey i) (specStream w0) 2 i 0 t
          [tagOf t, Word.ofN i, w]
  else
    let g := ((Smap.find s.groups i).getD default).take (s.specTy i) v
    if g.n ≥ (s.specWord i 2).toNat % 2 ^ 16 then
      let s := { s with groups := Smap.erase s.groups i }
      match g.entry (specDmode w0) with
      | some e => s.stagePut (s.specKey i) (specStream w0) (if specDmode w0 = 2 then 1 else 0) i (s.specInterval i) t e
      | none => s
    else { s with groups := Smap.put s.groups i g }
/-- The specifications in force of a kind whose source satisfies a test. -/
def State.specsOf (s : State) (kind : Nat) (p : Nat → Bool) : List Nat :=
  s.specsOn.filter (fun i => specKind (s.specWord i 0) = kind && p (s.specWord i 1).toNat)
/-- A variable as the close sees it (R319). -/
def State.closeRead (s : State) (ref : Nat) : Word :=
  if Ref.space ref = 1 ∧ Ref.index ref < 65536 then s.snapVal (Ref.index ref) else s.readRef false ref
/-- The open block that holds entries of a specification is written as it is rewritten (R324, Coincidences). -/
def State.specShut (s : State) (i : Nat) : State :=
  s.when (!specDiscrete (s.specWord i 0) || (Smap.find s.recLast i).isSome) (fun s => s.blkClose (s.specKey i))
/-- Forget the groups and last values of some specifications. -/
def State.recForget (s : State) (is : List Nat) : State :=
  { s with groups := s.groups.filter (fun e => !is.contains e.1), recLast := s.recLast.filter (fun e => !is.contains e.1) }
/-- The REF sources at a close at a device time (R319); rewritten specifications come into force (R351). -/
def State.recClose (s : State) (t : Nat) : State :=
  let new := (s.specPend.filterMap (fun e => if e.1 % 4 = 0 then some (e.1 / 4) else none))
  let s := (s.each new (fun s i => s.specShut i)).recForget new
  let s := { s with specs := Smap.setAll (fun _ => 0) s.specs s.specPend, specPend := [] }
  let s := s.setFld R.RS_SPEC_CMD F.RS_SPEC_CMD_WRITE 0
  s.each (s.specsOf 0 (fun _ => true)) (fun s i =>
    s.recSource i t (some (s.closeRead (s.specWord i 1).toNat)))
/-- An executed sample of a slot, or a skipped one (R319, R320). -/
def State.recSlot (s : State) (k t : Nat) (done : Bool) : State :=
  s.each (s.specsOf 1 (fun src => src % 4096 = k)) (fun s i =>
    s.recSource i t (if done then some (s.slotField k ((s.specWord i 1).toNat / 4096 % 32)) else none))
/-- An output of a filter path of a channel (R319). -/
def State.recSdi (s : State) (ch : Nat) (fast : Bool) (v : Word) (t : Nat) : State :=
  s.each (s.specsOf 2 (fun src => src % 256 = ch && (src / 256 = 1) = fast)) (fun s i => s.recSource i t (some v))

-- commands of the streamer

/-- Write every open block of some streams (R324, R325). -/
def State.recFlush (s : State) (sts : List Nat) : State :=
  s.each ((s.opens.filter (fun e => sts.contains e.2.stream)).map (fun e => e.1)) (fun s k => s.blkClose k)
/-- The specifications of a stream. -/
def State.specsIn (s : State) (st : Nat) : List Nat :=
  s.specs.filterMap (fun e => if e.1 % 4 = 0 ∧ specStream e.2 = st then some (e.1 / 4) else none)
/-- Enable a stream (R321, R325). -/
def State.streamEnable (s : State) (st t : Nat) : State :=
  let s := (s.setB R.RS_CTRL ⟨st, 1⟩ true).recForget (s.specsIn st)
  s.blkWrite st (s.epochBlk t false true)
/-- Disable a stream: its open blocks are written (R324). -/
def State.streamDisable (s : State) (st : Nat) : State := (s.recFlush [st]).setB R.RS_CTRL ⟨st, 1⟩ false
/-- A write of the ENABLE field (R351). -/
def State.streamMask (s : State) (m t : Nat) : State :=
  s.each (List.range 8) (fun s st =>
    if m.testBit st && !s.streamOn st then s.streamEnable st t
    else if !m.testBit st && s.streamOn st then s.streamDisable st else s)
/-- Store the staged specification (R318, R324). -/
def State.specWrite (s : State) : State :=
  let i := s.fld R.RS_SPEC_IDX F.RS_SPEC_IDX_INDEX
  let w := s.rdAll (R.RS_SPEC_D 0) 4
  if s.specOk i w then
    let s := (s.specShut i).set1 R.RS_SPEC_CMD F.RS_SPEC_CMD_WRITE
    { s with specPend := s.specPend.filter (fun e => e.1 / 4 ≠ i) ++
        (List.range 4).map (fun j => (4 * i + j, w.getD j 0)) }
  else s.set1 R.RS_STAT F.RS_STAT_SPEC_REJ
/-- A second boundary (R325, R351): the EPOCH of every enabled stream, and the rate of the completed second. -/
def State.recEpoch (s : State) (t : Nat) : State :=
  let kb := s.recBytes / 1000
  let s := ({ s with recBytes := 0 }.wr R.RS_RATE (Word.ofN kb)).maxFld R.RS_RATE_MAX F.RS_RATE_MAX_KBPS kb
  s.each s.streamsOn (fun s st => s.blkWrite st (s.epochBlk t false false))
/-- A step of the time base (R325): open blocks are written, then an EPOCH with STEP and the new time. -/
def State.recStep (s : State) (t : Nat) : State :=
  let s := { s with stageAt := t }
  s.each s.streamsOn (fun s st => (s.recFlush [st]).blkWrite st (s.epochBlk t true false))
/-- The streams that record from a region. -/
def State.streamsOf (s : State) (p : Nat → Bool) : List Nat :=
  s.streamsOn.filter (fun st => s.specsOn.any (fun i => specStream (s.specWord i 0) = st &&
    (match s.specRegion i with
    | some r => p r
    | none => false)))
/-- The streams of the image start with the DRAM (R325, R513); after a warm restart each says what it has lost (R330). -/
def State.streamsStart (s : State) (t : Nat) : State :=
  let s := s.streamMask s.boot.streams t
  match s.boot.undrained with
  | none => s
  | some (a, ns) =>
    let s := s.each s.streamsOn (fun s st => s.gapWrite st 5 (Smap.get (fun _ => 0) ns st) a t t)
    { s with boot := { s.boot with undrained := none } }
/-- A fence ends the values of some regions (R330): one GAP for each stream that records from them. -/
def State.recFence (s : State) (p : Nat → Bool) (cause t : Nat) : State :=
  s.each (s.streamsOf p) (fun s st => s.gapWrite st cause 0 t t t)
/-- Drain whole blocks of a stream into the next posted buffer of its ring, at most `len` bytes (R327, R463). -/
def State.recDrain (s : State) (st len : Nat) : State :=
  let k := 16 + st
  let x := s.hringX k
  match x.posted with
  | [] => s
  | d :: rest =>
    let bs := (s.streamX st).blocks
    let n := min (min len d.len / 64) bs.length
    if n = 0 || !s.ringServed k then s
    else
      let out := bs.take n
      let s := (s.setStreamX st { s.streamX st with blocks := bs.drop n }).streamShow st
      let s := s.setHringX k { x with posted := rest }
      let q := match bs with
        | [] => 0
        | b :: _ => b.bseq
      s.bufferSend k (64 * n) [q, Word.ofN n] (out.map Blk.words).flatten d.irq

/-- BLOCK_AGE_EXPIRY (R324): the block that holds the specification's entries is written once RS_FLUSH milliseconds have passed
since the time of its first entry, an instant that lies before the next t0. -/
def execBlockAgeExpiry (spec : Fin 65535) (s : State) : Host.Outcome State Fault Refusal :=
  let age := s.fld R.RS_FLUSH F.RS_FLUSH_MS * 1000000
  .next (match Smap.find s.opens (s.specKey spec) with
    | some o => s.when (decide (o.t + age < s.t0 + s.period)) (fun s => s.blkClose (s.specKey spec))
    | none => s)
/-- EPOCH (R325): a second boundary of the time base. -/
def execEpoch (off : Nat) (s : State) : Host.Outcome State Fault Refusal :=
  .next (s.when (s.now off % 1000000000 = 0) (fun s => s.recEpoch (s.now off)))
/-- FLUSH (R351). -/
def execFlush (s : State) : Host.Outcome State Fault Refusal := .next (s.recFlush (List.range 8))
/-- USER_MARK (R331). -/
def execUserMark (arg : Word) (off : Nat) (s : State) : Host.Outcome State Fault Refusal :=
  .next (s.userMark arg 0xFF 0 0 (s.now off))
/-- SPEC_WRITE (R318). -/
def execSpecWrite (s : State) : Host.Outcome State Fault Refusal := .next s.specWrite
/-- STREAM_ENABLE (R325). -/
def execStreamEnable (st : Fin 8) (off : Nat) (s : State) : Host.Outcome State Fault Refusal :=
  .next (if s.streamOn st then s else s.streamEnable st (s.now off))
/-- STREAM_RECOVERY (R329): 1 MiB of the share is free again. -/
def execStreamRecovery (st : Fin 8) (off : Nat) (s : State) : Host.Outcome State Fault Refusal :=
  let x := s.streamX st
  let t := s.now off
  if s.bit (R.RS_S_STAT st) F.RS_S_STAT_GAP_OPEN && x.blocks.length + 16384 ≤ s.streamCap st then
    let s := (s.setStreamX st { x with lost := 0 }).setFld (R.RS_S_STAT st) F.RS_S_STAT_GAP_OPEN 0
    let s := s.blkWrite st (s.epochBlk (t / 1000000000 * 1000000000) false false)
    .next (s.gapWrite st 1 x.lost x.lostA x.lostB t)
  else .next s

end Sys2Proof.Machine
end

