-- ==== Sys2Proof/Machine/Capture.lean ====
section
/-!
DEFINITION. Capture engines, windows with their pool, and the trigger bus (R332 to R350).
-/
namespace Sys2Proof.Machine

-- the pool and the windows

/-- Free bytes of a region's share of the window pool (R335). -/
def State.poolFree (s : State) (r : Nat) : Nat :=
  s.fld (R.CE_POOL_CFG r) F.CE_POOL_CFG_SIZE_MIB * 2 ^ 20 - Smap.get (fun _ => 0) s.pools r
/-- Set the used bytes of a share; the free space is shown in KiB. -/
def State.setPool (s : State) (r used : Nat) : State :=
  let s := { s with pools := Smap.set (fun _ => 0) s.pools r used }
  s.wr (R.CE_POOL_FREE r) (Word.ofN (s.poolFree r / 1024))
def State.poolTake (s : State) (r n : Nat) : State := s.setPool r (Smap.get (fun _ => 0) s.pools r + n)
def State.poolGive (s : State) (r n : Nat) : State := s.setPool r (Smap.get (fun _ => 0) s.pools r - n)
/-- The reservation of a window (R335): streaming or not, and its bytes; none when it is refused. -/
def State.poolAsk (s : State) (r pre post rb : Nat) : Option (Bool × Nat) :=
  let whole := (192 + (pre + post) * rb + 63) / 64 * 64
  let part := pre * rb + 2 ^ 20
  if whole ≤ s.poolFree r then some (false, whole)
  else if part ≤ s.poolFree r then some (true, part)
  else none
/-- Pad words with zeros to a multiple of 64 bytes. -/
def padWords (ws : List Word) : List Word := ws ++ List.replicate ((16 - ws.length % 16) % 16) 0
/-- The bytes of a row (R334). -/
def Win.rowBytes (w : Win) : Nat := 4 + 4 * w.cols.length
/-- The header and the column table (R343). -/
def Win.head (w : Win) : List Word :=
  let t := match w.trig with
    | some (t, _) => t
    | none => 0
  let kind := match w.trig with
    | some (_, k) => k
    | none => 0
  let fl := (if w.swatch then 1 else 0) + (if w.streaming then 2 else 0)
  padWords [w.id, Word.ofN (w.src + w.cols.length * 2 ^ 16 + fl * 2 ^ 24), Word.ofN w.period, Word.ofN w.pre,
    Word.ofN w.preAct, Word.ofN w.post, tagOf t, secLo t, secHi t + Word.ofN (kind * 2 ^ 16), nsOf t,
    Word.ofN w.rowBytes] ++ padWords w.cols
/-- The words of rows (R334). -/
def rowWords (rs : List Row) : List Word := (rs.map (fun r => tagOf r.t :: r.vals)).flatten
/-- The trailer (R344). -/
def Win.tail (w : Win) (end_ lost : Nat) (first : Word) : List Word :=
  let step := w.rows.findIdx? (fun r => r.step)
  let fl := (if w.preAct < w.pre then 1 else 0) + (if w.streaming then 2 else 0) + (if step.isSome then 4 else 0)
  let last := match w.rows.getLast? with
    | some r => tagOf r.t
    | none => 0
  padWords [Word.ofN w.rows.length, Word.ofN (end_ + fl * 2 ^ 16), Word.ofN w.supp, Word.ofN lost, first,
    (match step with
    | some i => Word.ofN i
    | none => 0xFFFFFFFF), last, w.id, Word.ofN (w.rows.filter (fun r => r.spacer)).length]
/-- Queue words of a window on its ring (R345, R463): the last ones with `done`. -/
def State.winSend (s : State) (r : Nat) (w : Win) (ws : List Word) (done : Bool) : State :=
  let q := s.winQ w.ring
  if q.any (fun c => c.id = w.id) then
    s.setWinQ w.ring (q.map (fun c => if c.id = w.id then { c with words := c.words ++ ws, done := done } else c))
  else s.setWinQ w.ring (q ++ [⟨w.id, r, 0, ws, done, w.resv⟩])
/-- Bytes of a streaming window that await delivery. -/
def State.winHeld (s : State) (w : Win) : Nat :=
  match (s.winQ w.ring).find? (fun c => c.id = w.id) with
  | some c => 4 * c.words.length
  | none => 0
/-- Close a window with an END code (R344): it is delivered. -/
def State.winClose (s : State) (r : Nat) (w : Win) (end_ lost : Nat) (first : Word) : State :=
  let tail := List.replicate ((16 - (rowWords w.rows).length % 16) % 16) 0 ++ w.tail end_ lost first
  if w.streaming && w.told then s.winSend r w tail true
  else s.winSend r w (w.head ++ rowWords w.rows ++ tail) true
/-- Add a row to an open window; a streaming window that has its trigger sends it at once (R345). -/
def State.winRow (s : State) (r : Nat) (w : Win) (row : Row) : State × Win :=
  let w := { w with rows := w.rows ++ [row], stepPend := false }
  (s.when (w.streaming && w.told) (fun s => s.winSend r w (rowWords [row]) false), w)
/-- A streaming window has no room for a further row (R345). -/
def State.winFull (s : State) (w : Win) : Bool :=
  w.streaming && w.told && s.winHeld w + w.rowBytes > w.resv
/-- Rows before the trigger row of a trigger time (R338): the trigger row is the first one at or after it. Rows from before the
last step of the time base come first, whatever their times (Coincidences). -/
def Win.split (w : Win) (t : Nat) : Nat :=
  if w.stepPend then w.rows.length
  else
    let old := w.rows.length - (w.rows.reverse.takeWhile (fun row => !row.step)).length - 1
    let old := if w.rows.any (fun row => row.step) then old else 0
    old + ((w.rows.drop old).takeWhile (fun row => decide (row.t < t))).length
/-- Rows before the trigger row of an accepted trigger (R339): a condition in the row that completes the pre-trigger leaves all
PRE rows before it (Coincidences). -/
def Win.before (w : Win) (t : Nat) : Nat :=
  let n := w.split t
  if w.rows.length = w.pre ∧ n + 1 = w.pre ∧ w.rows.getLast?.any (fun row => row.t = t) then w.pre else n
/-- Give a window its number and its trigger (R338, R339, R343): at most PRE rows before the trigger row are kept. -/
def State.winTrig (s : State) (w : Win) (t kind : Nat) : State × Win :=
  let id := s.winId + 1
  let n := w.before t
  let w := { w with
    id := id
    trig := some (t, kind)
    preAct := min n w.pre
    rows := w.rows.drop (n - w.pre) }
  ({ s with winId := id }, w)
/-- The trigger of a window is told: a streaming window delivers its header and its rows (R335). -/
def State.winTell (s : State) (r : Nat) (w : Win) : State × Win :=
  let w := { w with told := true }
  (s.when w.streaming (fun s => s.winSend r w (w.head ++ rowWords w.rows) false), w)
/-- A condition falls in the trigger row of a window (Coincidences): that row is still to come, or its instant is not before the
condition's time. -/
def Win.inRow (w : Win) (t : Nat) : Bool :=
  w.trig.isSome && (match w.rows.drop w.preAct with
    | [] => true
    | row :: _ => decide (t ≤ row.t))
/-- Deliver queued words of a ring into its next posted buffer, at most `len` bytes (R463); the space returns to the
share. -/
def State.winDrain (s : State) (k len : Nat) : State :=
  let x := s.hringX k
  match x.posted, (s.winQ k).find? (fun c => c.words ≠ []) with
  | d :: rest, some c =>
    let n := min (min len d.len / 4) c.words.length
    if n = 0 || !s.ringServed k then s
    else
      let last := c.done && n = c.words.length
      let back := if last then c.resv else if c.done then min (4 * n) c.resv else 0
      let c' := { c with off := c.off + 4 * n, words := c.words.drop n, resv := c.resv - back }
      let q := s.winQ k
      let s := s.setWinQ k (if last then q.filter (fun e => e.id ≠ c.id)
        else q.map (fun e => if e.id = c.id then c' else e))
      let s := (s.poolGive c.region back).setHringX k { x with posted := rest }
      let fl := (if c.off = 0 then 1 else 0) + (if last then 2 else 0)
      s.bufferSend k (4 * n) [c.id, Word.ofN c.off, Word.ofN fl] (c.words.take n) d.irq
  | _, _ => s

-- probes and rows

/-- KIND and SOURCE of probe j. -/
def State.probeKind (s : State) (r j : Nat) : Nat := s.fld (R.CE_PROBE r j) F.CE_PROBE_KIND
def State.probeSrc (s : State) (r j : Nat) : Nat := s.fld (R.CE_PROBE r j) F.CE_PROBE_SOURCE
/-- What a probe reads (R332). -/
def State.probeVal (s : State) (r j : Nat) : Word :=
  let src := s.probeSrc r j
  match s.probeKind r j with
  | 0 => s.readRef true src
  | 1 => s.slotField (256 * r + src % 256) (src / 256 % 32)
  | _ => if src / 16 % 2 = 0 then s.rd (R.SD_MAIN (12 * r + src % 16)) else s.rd (R.SD_FAST (12 * r + src % 16))
/-- The value of a probe as binary32, for the PROBE trigger (R337). -/
def State.probeF32 (s : State) (r j : Nat) : Word :=
  let w := s.probeVal r j
  let of (t : Ty) : Word := match t with
    | .f32 => w
    | .i32 => F32.ofInt w.toInt
    | .u32 => F32.ofInt w.toNat
  match s.probeKind r j with
  | 0 => of (s.refTy (s.probeSrc r j))
  | 1 => of (slotFieldTy (s.probeSrc r j / 256 % 32))
  | _ => F32.ofDy ⟨w.toInt, -31⟩
/-- A probe follows the rules of R82 and R332. -/
def State.probeOk (s : State) (r j : Nat) : Bool :=
  let src := s.probeSrc r j
  let i := Ref.index src
  match s.probeKind r j with
  | 0 => s.refExists src &&
    (match Ref.space src with
    | 2 => i / 8192 = r
    | 4 => i / 32 / 256 = r
    | 5 => i / 32 / 8 = r
    | 6 => false
    | 7 => false
    | _ => true)
  | 1 => true
  | 2 => src % 16 < 12
  | _ => false
def State.ceState (s : State) (r : Nat) : Nat := s.fld (R.CE_STAT r) F.CE_STAT_STATE
def State.setCeState (s : State) (r v : Nat) : State := s.setFld (R.CE_STAT r) F.CE_STAT_STATE v
def State.ceProbes (s : State) (r : Nat) : Nat := s.fld (R.CE_CFG r) F.CE_CFG_NPROBE
/-- The slot of SYNC SLOT. -/
def State.ceSlot (s : State) (r : Nat) : Nat := 256 * r + s.fld (R.CE_CFG r) F.CE_CFG_SLOT
/-- The nominal row period (R343). -/
def State.cePeriod (s : State) (r : Nat) : Nat :=
  match s.fld (R.CE_CFG r) F.CE_CFG_SYNC with
  | 0 => s.fld (R.CE_PERIOD r) F.CE_PERIOD_NS
  | 1 => s.period
  | _ => s.slotPeriod (s.ceSlot r)
/-- The configuration that an ARM refuses (R332, R337, R352). -/
def State.ceBad (s : State) (r : Nat) : Bool :=
  let n := s.ceProbes r
  let sync := s.fld (R.CE_CFG r) F.CE_CFG_SYNC
  let p := s.fld (R.CE_PERIOD r) F.CE_PERIOD_NS
  let src := s.fld (R.CE_TRG r) F.CE_TRG_SRC
  let ix := s.fld (R.CE_TRG r) F.CE_TRG_INDEX
  n = 0 || n > 64 || sync = 3 || !(List.range n).all (s.probeOk r) ||
    (sync = 0 && (p < 1000 || p > 1000000 || 1000000000 % p ≠ 0 ||
      s.fld (R.CE_PHASE r) F.CE_PHASE_NS ≥ p)) ||
    (s.rd (R.CE_POST r)).toNat = 0 || s.fld (R.CE_TRG r) F.CE_TRG_DIR = 3 ||
    (src = 0 && ix ≥ n) || (src = 1 && ix ≥ 8) ||
    (s.bit (R.CE_TRG r) F.CE_TRG_OUT_EN && src = 1 && ix = s.fld (R.CE_TRG r) F.CE_TRG_OUT_LINE)
/-- Reserve a window for an engine (R335); false when it is refused. -/
def State.ceReserve (s : State) (r : Nat) : State × Bool :=
  let pre := s.fld (R.CE_PRE r) F.CE_PRE_ROWS
  let post := (s.rd (R.CE_POST r)).toNat
  let n := s.ceProbes r
  match s.poolAsk r pre post (4 + 4 * n) with
  | none => (s.set1 (R.CE_STAT r) F.CE_STAT_REFUSED, false)
  | some (streaming, resv) =>
    let w : Win := ⟨0, 0x3000 + r, false, 24 + s.fld (R.CE_CFG r) F.CE_CFG_RING,
      (List.range n).map (fun j => s.rd (R.CE_PROBE r j)), s.cePeriod r, pre, post, streaming, resv, none, false, 0, [], 0, false⟩
    let s := (s.poolTake r resv).when streaming (fun s => s.set1 (R.CE_STAT r) F.CE_STAT_STREAMING)
    let x := s.ceX r
    (s.setCeX r { x with win := some w, up := false, dn := false, closed := false }, true)
/-- The mark of the suppressed triggers that an engine has collected (R341). -/
def State.ceSuppMark (s : State) (r now : Nat) : State :=
  let x := s.ceX r
  match x.supp with
  | none => s
  | some (n, a, b, id) =>
    (s.setCeX r { x with supp := none }).suppMark (s.fld (R.CE_CFG r) F.CE_CFG_MARK_MASK) (0x3000 + r) x.suppKind n a b id now
/-- A suppressed trigger condition (R341), in POST counted for the window too. -/
def State.ceSuppress (s : State) (r kind t : Nat) (post : Bool) : State :=
  let s := s.incr (R.CE_SUPP_CNT r)
  let s := match (s.ceX r).supp with
    | some (_, a, _, _) => s.when (t ≥ a + 1000000) (fun s => s.ceSuppMark r t)
    | none => s
  let x := s.ceX r
  let id := match x.win, post with
    | some w, true => w.id
    | _, _ => 0xFFFFFFFF
  s.setCeX r { x with
    hoN := x.hoN + 1
    win := if post then x.win.map (fun w => { w with supp := w.supp + 1 }) else x.win
    suppKind := if x.supp.isSome then x.suppKind else kind
    supp := match x.supp with
      | some (n, a, _, i) => some (n + 1, a, t, i)
      | none => some (1, t, t, id) }

-- triggers and the bus

/-- An event on a line, or a trigger condition of an engine: the unit, the kind, its time, and the instant at which
it is acted on. -/
structure TrigEv where
  isLine : Bool
  unit : Nat
  kind : Nat
  t : Nat
  now : Nat
  pin : Bool
  deriving DecidableEq, Repr
/-- The mark of an accepted trigger (R339), once its trigger row stands or can no longer come. -/
def State.ceTell (s : State) (r : Nat) : State :=
  match (s.ceX r).win with
  | none => s
  | some w =>
    match w.told, w.trig with
    | false, some (t, kind) =>
      let (s, w) := s.winTell r w
      let s := s.setCeX r { s.ceX r with win := some w }
      s.trigMark (s.fld (R.CE_CFG r) F.CE_CFG_MARK_MASK) (0x3000 + r) kind false (s.rd (R.CE_TRG_CNT r)) t w.id
        (Word.ofN w.preAct)
    | _, _ => s
/-- The window of an engine closes, and hold-off goes on (R339, R342). -/
def State.ceClose (s : State) (r : Nat) (end_ lost : Nat) (first : Word) : State :=
  let s := s.ceTell r
  match (s.ceX r).win with
  | some w =>
    let s := (s.winClose r w end_ lost first).setCeState r 4
    s.setCeX r { s.ceX r with win := none, closed := true }
  | none => s
/-- The window is complete when POST rows stand from the trigger row on. -/
def State.ceDone (s : State) (r : Nat) : State :=
  match (s.ceX r).win with
  | some w => if w.trig.isSome && w.rows.length - w.preAct ≥ w.post then s.ceClose r 0 0 0 else s
  | none => s
/-- The KIND that CE_TRG selects (R337). -/
def State.ceKind (s : State) (r : Nat) : Nat := s.fld (R.CE_TRG r) F.CE_TRG_SRC
/-- An engine accepts a trigger (R338 to R340); the bus event that it drives, if any (R337). -/
def State.ceAccept (s : State) (r kind t now : Nat) : State × List TrigEv :=
  match (s.ceX r).win with
  | none => (s, [])
  | some w =>
    let (s, w) := s.winTrig w t kind
    let short := w.preAct < w.pre
    let s := s.incr (R.CE_TRG_CNT r)
    let s := ((s.wr (R.CE_TRG_T r) (tagOf t)).wr (R.CE_WIN_ID r) w.id).setFld (R.CE_PRE_ACT r)
      F.CE_PRE_ACT_ROWS w.preAct
    let s := s.when short (fun s => s.set1 (R.CE_STAT r) F.CE_STAT_SHORT_PRE)
    let s := (s.setCeX r { s.ceX r with win := some w, hoT := t, hoN := 0 }).setCeState r 3
    let s := (s.when (kind = s.ceKind r || decide (w.preAct < w.rows.length)) (fun s => s.ceTell r)).ceDone r
    if s.bit (R.CE_TRG r) F.CE_TRG_OUT_EN then
      let (d, s) := s.draw
      (s, [⟨true, s.fld (R.CE_TRG r) F.CE_TRG_OUT_LINE, 1, now + d.toNat % 21, now + d.toNat % 21, true⟩])
    else (s, [])
/-- A condition in POST (R341): one in the trigger row is not suppressed, and the trigger takes the configured source's KIND
(Coincidences). -/
def State.cePost (s : State) (r kind t : Nat) : State :=
  match (s.ceX r).win with
  | some w =>
    if w.inRow t then
      s.when (kind = s.ceKind r && !w.told) (fun s =>
        (s.setCeX r { s.ceX r with win := some { w with trig := w.trig.map (fun e => (e.1, kind)) } }).ceTell r)
    else s.ceSuppress r kind t true
  | none => s.ceSuppress r kind t true
/-- A trigger condition of an engine in the state that it is in (R336); one at the instant at which hold-off ends belongs to
the hold-off (Coincidences). -/
def State.ceCond (s : State) (r kind t now : Nat) : State × List TrigEv :=
  let late : Bool := decide (t < (s.ceX r).hoEnd)
  match s.ceState r with
  | 3 => (s.cePost r kind t, [])
  | 4 => (s.ceSuppress r kind t false, [])
  | st =>
    if late then ((s.ceSuppress r kind t false).ceSuppMark r now, [])
    else if st = 1 ∨ st = 2 then s.ceAccept r kind t now else (s, [])
/-- Engines of dies that run whose trigger source and index are the given ones. -/
def State.ceSelect (s : State) (src ix : Nat) : List Nat :=
  s.activeRegions.filter (fun r => s.fld (R.CE_TRG r) F.CE_TRG_SRC = src && s.fld (R.CE_TRG r) F.CE_TRG_INDEX = ix)
/-- A SHARED line whose marks carry UNCAL (R349). -/
def State.tbUncal (s : State) (l : Nat) : Bool :=
  s.fld (R.TB_CFG l) F.TB_CFG_PIN = 3 &&
    (!(s.fld R.TB_STAT F.TB_STAT_SH_CAL).testBit l || s.fld (R.TB_PIN_DLY l) F.TB_PIN_DLY_PS > 20000)
/-- An event on a line with its origin (R347, R350): merged within 1 µs of the previous one, else counted, marked and
seen by every engine that waits for it, 120 ns later. -/
def State.tbEvent (s : State) (l origin : Nat) (pin : Bool) : State × List TrigEv :=
  let near := match Smap.find s.tbLast l with
    | some o => decide (origin < o + 1000)
    | none => false
  if near then (s, [])
  else
    let s := ({ s with tbLast := Smap.put s.tbLast l origin }.incr (R.TB_CNT l)).wr (R.TB_LAST_T l) (tagOf origin)
    let s := s.set1 R.TB_STAT ⟨8 + l, 1⟩
    let m := s.fld (R.TB_CFG l) F.TB_CFG_PIN
    let s := s.emit (.bus l (tagOf origin) (pin && (m = 1 || m = 3)))
    let s := s.trigMark (s.fld (R.TB_CFG l) F.TB_CFG_MARK_MASK) (0xE100 + l) 1 (s.tbUncal l) (s.rd (R.TB_CNT l)) origin
      0xFFFFFFFF 0
    (s, (s.ceSelect 1 l).map (fun r => ⟨false, r, 1, origin, origin + 120, false⟩))
/-- Carry out line events and trigger conditions with those that they cause; a line event within 1 µs of the last of
its line causes none, so the bound is never reached. -/
def State.trigRun (s : State) (fuel : Nat) (work : List TrigEv) : State :=
  match fuel, work with
  | n + 1, e :: rest =>
    let (s, more) := if e.isLine then s.tbEvent e.unit e.t e.pin else s.ceCond e.unit e.kind e.t e.now
    s.trigRun n (rest ++ more)
  | _, _ => s
/-- A trigger condition of one engine. -/
def State.ceTrigger (s : State) (r kind t now : Nat) : State := s.trigRun 1000 [⟨false, r, kind, t, now, false⟩]
/-- An event on a line. -/
def State.busPulse (s : State) (l origin : Nat) (pin : Bool) : State :=
  s.trigRun 1000 [⟨true, l, 1, origin, origin, pin⟩]
/-- A term transition as the engines see it (R337). -/
def State.ceTerm (s : State) (t : Nat) (up : Bool) (now : Nat) : State :=
  s.each (s.ceSelect 2 t) (fun s r =>
    let d := s.fld (R.CE_TRG r) F.CE_TRG_DIR
    s.when (d = 2 || (d = 0 && up) || (d = 1 && !up)) (fun s => s.ceTrigger r 2 now now))

/-- The PROBE trigger on a row (R337): whether it fires, with the directions armed from then on. -/
def probeFire (dir : Nat) (v level hyst : Word) (up dn : Bool) : Bool × Bool × Bool :=
  if F32.isNaN v then (false, up, dn)
  else
    let fr := up && F32.le level v && dir ≠ 1
    let ff := dn && F32.le v level && dir ≠ 0
    (fr || ff, (up && !fr) || F32.le v (F32.sub level hyst).1, (dn && !ff) || F32.le (F32.add level hyst).1 v)
/-- An engine takes a row at an instant, if it takes rows (R334, R336, R345). -/
def State.ceRow (s : State) (r t : Nat) (spacer : Bool) : State :=
  let x := s.ceX r
  let s := s.when x.arm (fun s =>
    ((s.setCeX r { x with arm := false }).setFld (R.CE_CTRL r) F.CE_CTRL_ARM 0).setCeState r 1)
  let st := s.ceState r
  let x := s.ceX r
  match x.win with
  | none => s
  | some w =>
    if st = 0 || st > 3 || s.bit (R.CE_STAT r) F.CE_STAT_FENCED || s.dieState (r / 4) ≠ 0 then s
    else
      let n := s.ceProbes r
      let row : Row := ⟨t, (List.range n).map (s.probeVal r), spacer, w.stepPend⟩
      if st = 3 ∧ s.winFull w = true then
        (s.set1 (R.CE_STAT r) F.CE_STAT_TRUNC).ceClose r 1 (w.post - (w.rows.length - w.preAct)) (tagOf t)
      else
        let (s, w) := s.winRow r w row
        let keep := if st = 3 then w.rows else w.rows.drop (w.rows.length - (w.pre + 1))
        let s := s.when (st = 1 && w.rows.length ≥ w.pre) (fun s => s.setCeState r 2)
        let s := s.setCeX r { s.ceX r with win := some { w with rows := keep } }
        let s :=
          if s.fld (R.CE_TRG r) F.CE_TRG_SRC = 0 then
            let x := s.ceX r
            let (fire, up, dn) := probeFire (s.fld (R.CE_TRG r) F.CE_TRG_DIR)
              (s.probeF32 r (s.fld (R.CE_TRG r) F.CE_TRG_INDEX)) (s.rd (R.CE_LEVEL r)) (s.rd (R.CE_HYST r)) x.up x.dn
            (s.setCeX r { x with up := up, dn := dn }).when fire (fun s => s.ceTrigger r 0 t t)
          else s
        (s.when (st = 3) (fun s => s.ceTell r)).ceDone r
/-- The rows of SYNC FIELD at t0 (R333). -/
def State.ceField (s : State) : State :=
  s.each (s.activeRegions.filter (fun r => s.fld (R.CE_CFG r) F.CE_CFG_SYNC = 1)) (fun s r => s.ceRow r s.t0 false)
/-- The row of SYNC SLOT at an executed sample (R333). -/
def State.ceSample (s : State) (k t : Nat) : State :=
  let r := k / 256
  s.when (s.fld (R.CE_CFG r) F.CE_CFG_SYNC = 2 && s.ceSlot r = k) (fun s => s.ceRow r t false)

-- commands of an engine

/-- ARM (R336, R335). -/
def State.ceArm (s : State) (r : Nat) : State :=
  let st := s.ceState r
  if (st ≠ 0 ∧ st ≠ 5) ∨ (s.ceX r).arm = true ∨ s.bit (R.CE_STAT r) F.CE_STAT_FENCED = true ∨
      s.dieState (r / 4) ≠ 0 then s
  else if s.ceBad r then s.set1 (R.CE_STAT r) F.CE_STAT_BAD_CFG
  else
    let (s, ok) := (s.setCeState r 0).ceReserve r
    if ok then (s.setCeX r { s.ceX r with arm := true, hoEnd := 0 }).set1 (R.CE_CTRL r) F.CE_CTRL_ARM else s
/-- Drop the window of an engine: it is closed with a code if it has its trigger, else discarded (R336). -/
def State.ceDrop (s : State) (r end_ : Nat) : State :=
  let s := (s.ceTell r).setFld (R.CE_CTRL r) F.CE_CTRL_ARM 0
  let s := match (s.ceX r).win with
    | none => s
    | some w => if w.trig.isSome then s.winClose r w end_ 0 0 else s.poolGive r w.resv
  (s.setCeX r { s.ceX r with win := none, arm := false, hoEnd := 0 }).setCeState r 0
/-- DISARM (R336). -/
def State.ceDisarm (s : State) (r now : Nat) : State := (s.ceSuppMark r now).ceDrop r 2
/-- Hold-off ends (R342). -/
def State.ceHoldoff (s : State) (r now : Nat) : State :=
  let x := s.ceX r
  let v := (s.rd (R.CE_HOLDOFF r)).toNat
  let past := if s.bit (R.CE_CFG r) F.CE_CFG_HO_MODE then decide (x.hoN ≥ v) else decide (now ≥ x.hoT + v)
  if s.ceState r = 4 && x.closed && past then
    let s := s.ceSuppMark r now
    let s := s.setCeX r { s.ceX r with hoEnd := now + 1 }
    if s.bit (R.CE_CFG r) F.CE_CFG_AUTO then
      let (s, ok) := s.ceReserve r
      s.setCeState r (if ok then 1 else 0)
    else s.setCeState r 5
  else s

/-- CE_ARM (R336). -/
def execCeArm (r : RegionIx) (_off : Nat) (s : State) : Host.Outcome State Fault Refusal :=
  .next (s.regionRow r (R.CE_CTRL r) (fun s => s.ceArm r))
/-- CE_DISARM (R336). -/
def execCeDisarm (r : RegionIx) (off : Nat) (s : State) : Host.Outcome State Fault Refusal :=
  .next (s.regionRow r (R.CE_CTRL r) (fun s => s.ceDisarm r (s.now off)))
/-- CE_FORCE (R336): a condition of KIND SOFTWARE. -/
def execCeForce (r : RegionIx) (off : Nat) (s : State) : Host.Outcome State Fault Refusal :=
  .next (s.regionRow r (R.CE_CTRL r) (fun s => s.ceTrigger r 3 (s.now off) (s.now off)))
/-- CAPTURE_ROW (R333) of an engine of SYNC TIMER whose timer matches, once for a computed instant (R79). -/
def execCaptureRow (r : RegionIx) (off : Nat) (s : State) : Host.Outcome State Fault Refusal :=
  let t := s.now off
  let p := s.fld (R.CE_PERIOD r) F.CE_PERIOD_NS
  let x := s.ceX r
  if s.fld (R.CE_CFG r) F.CE_CFG_SYNC = 0 && p ≠ 0 && (t + p - s.fld (R.CE_PHASE r) F.CE_PHASE_NS % p) % p = 0 &&
      x.rels.all (fun i => t < i.1 || i.2 < t) then
    .next ((s.setCeX r { x with rels := relNote x.rels p t }).ceRow r t false)
  else .next s
/-- HOLDOFF_END (R342). -/
def execHoldoffEnd (r : RegionIx) (off : Nat) (s : State) : Host.Outcome State Fault Refusal :=
  .next (s.ceHoldoff r (s.now off))
/-- PULSE (R347). -/
def execPulse (line : Fin 8) (off : Nat) (s : State) : Host.Outcome State Fault Refusal :=
  .next (s.busPulse line (s.now off) true)
/-- The calibration of the SHARED lines begins (R349): the unit with the lower ID drives a pulse on each, once a partner is
discovered (DEDUCED, log 271). -/
def State.tbCalStart (s : State) : State :=
  let ls := (List.range 8).filter (fun l => s.fld (R.TB_CFG l) F.TB_CFG_PIN = 3)
  if s.xl.partner.isNone || ls = [] then s
  else { s with tbShared := true }.when (s.unit = 0) (fun s => s.each ls (fun s l => s.emit (.trigCal l false)))
/-- TB_CAL (R348, R349): the branches, and the SHARED lines with their round trips. -/
def execTbCal (branches : List (RegionIx × Branch)) (shared : List (Fin 8 × Nat)) (s : State) :
    Host.Outcome State Fault Refusal :=
  let s := s.each branches (fun s e =>
    (s.setFld (R.TB_RTT e.1) F.TB_RTT_PS e.2.ps).setFld (R.TB_RTT e.1) F.TB_RTT_TAP e.2.tap)
  let s := (s.set1 R.TB_STAT F.TB_STAT_CAL_DONE).setFld R.TB_CMD F.TB_CMD_CAL 0
  let s := s.when (branches.any (fun e => !e.2.matched))
    (fun s => s.raise 2 0xE 0x108 R.TB_STAT F.TB_STAT_CAL_FAIL (s.tag 0))
  .next ({ s with tbShared := false }.each shared (fun s e =>
    if s.fld (R.TB_CFG e.1) F.TB_CFG_PIN = 3 ∧ s.xl.partner.isSome = true then
      (s.setFld (R.TB_PIN_DLY e.1) F.TB_PIN_DLY_PS (min 65535 ((e.2 - 100000) / 2))).set1 R.TB_STAT ⟨16 + e.1.val, 1⟩
    else s))
/-- TRIG_PIN_EDGE (R348, R349): the origin of an edge at a ball; while the SHARED lines are calibrated, the unit with the higher
ID echoes the edge after 100 ns, and the other takes it for its own pulse. -/
def execTrigPinEdge (line : Fin 8) (off : Nat) (s : State) : Host.Outcome State Fault Refusal :=
  match s.fld (R.TB_CFG line) F.TB_CFG_PIN with
  | 2 => .next (s.busPulse line (s.now off - Config.padLatency) false)
  | 3 =>
    if s.tbShared then .next (s.when (s.unit = 1) (fun s => s.emit (.trigCal line true)))
    else .next (s.busPulse line (s.now off - 40 - (s.fld (R.TB_PIN_DLY line) F.TB_PIN_DLY_PS + 500) / 1000) false)
  | _ => .next s
/-- BUFFER_WRITEBACK (R463): the next posted buffer of a ring takes up to `len` bytes of what is ready. -/
def execBufferWriteback (k : HRingIx) (len : Nat) (s : State) : Host.Outcome State Fault Refusal :=
  if 16 ≤ k.val ∧ k.val < 24 then .next (s.recDrain (k - 16) len)
  else if 24 ≤ k.val ∧ k.val < 32 then .next (s.winDrain k len)
  else .next s

end Sys2Proof.Machine
end

