-- ==== Sys2Proof/Machine/Law.lean ====
section
/-!
DEFINITION. The arithmetic of a law (R83 to R96, R106): conversion of inputs, the accumulator in units of
2^(E_k - 63), the eight stage types, and the renormalisation at a stage exit. Values are exact dyadics; every
product and every operand of another exponent is truncated toward minus infinity as it enters the accumulator.
-/
namespace Sys2Proof.Machine

/-- The largest magnitude of an input or output: (1 − 2^−31) × 2^127 (R83, R88). -/
def Law.top : Dy := ⟨2 ^ 31 - 1, 96⟩

/-- Conversion of an input (R83): none for a NaN or an infinity, and whether it was clamped. -/
def Law.input (t : Ty) (w : Word) : Option Dy × Bool :=
  match t with
  | .f32 =>
    if F32.finite w then
      let d := F32.toDy w
      if F32.expo w = 254 then
        (some (if F32.sign w then Law.top.neg else Law.top), true)
      else (some d, false)
    else (none, false)
  | .i32 => (some ⟨w.toInt, 0⟩, false)
  | .u32 =>
    if w.toNat < 2 ^ 31 then (some ⟨w.toNat, 0⟩, false)
    else (some ⟨min (Nat.rne w.toNat 1) (2 ^ 31 - 1), 1⟩, false)

/-- A stage as the slot block and law memory hold it (R94, R95). -/
structure Stage where
  typ : Nat
  opt0 : Bool
  a : Nat
  b : Nat
  c : Nat
  exp : Int
  /-- The 16 words. -/
  words : List Word
  deriving DecidableEq, Repr, Inhabited

/-- Word w of a stage. -/
def Stage.word (g : Stage) (w : Nat) : Word := g.words.getD w 0
/-- Coefficient w. -/
def Stage.coef (g : Stage) (w : Nat) : Dy := F32.toDy (g.word w)
/-- A two-word state that starts at word w, in units of 2^(E - 63). -/
def Stage.st2 (g : Stage) (w : Nat) : Int :=
  (BitVec.ofNat 64 ((g.word w).toNat + (g.word (w + 1)).toNat * 2 ^ 32)).toInt
/-- A one-word state at word w, in units of 2^(E - 63). -/
def Stage.st1 (g : Stage) (w : Nat) : Int := (g.word w).toInt * 2 ^ 32

/-- A new state value: its word, whether it takes two words, and its value in units of 2^(E - 63). -/
structure StVal where
  w : Nat
  two : Bool
  v : Int
  deriving DecidableEq, Repr

/-- What the evaluation of a stage forms before its exit: output and new states in units of 2^(E - 63), the
terms P and D of a PID, and whether its limits were crossed (R96). -/
structure StOut where
  y : Int
  sts : List StVal
  p : Int
  d : Int
  bad : Bool
  deriving DecidableEq, Repr

/-- Lower and upper limit in units of 2^u (R96): a HI coefficient below the LO coefficient gives LO for both. -/
def Law.lims (lo hi : Dy) (u : Int) : Int × Int × Bool :=
  if hi.lt lo then (lo.floorTo u, lo.floorTo u, true) else (lo.floorTo u, hi.floorTo u, false)

/-- What the 72-bit accumulator holds of a product, a sum or an aligned operand, in units of 2^-63 (R86): the value itself
within its nine bits above the binary point, and beyond them a free value (log 208). -/
def Law.hold (e v : Int) : Int := if -(2 ^ 71) ≤ v ∧ v < 2 ^ 71 then v else (Config.accBeyond e v).toInt

/-- The gain of GAINSCHED (R95) in units of 2^(e - 63): every operand and product is truncated as it enters the accumulator
(R86); 0, 7 and i are compared and subtracted as they are. -/
def Law.gain (g : Stage) (z : Dy) (e : Int) : Int :=
  let u := e - 63
  let dy (v : Int) : Dy := ⟨v, u⟩
  let acc (d : Dy) : Int := Law.hold e (d.floorTo u)
  let sub (a b : Int) : Int := Law.hold e (a - b)
  let t := Dy.clamp (dy (acc ((dy (sub (acc z) (acc (g.coef 8)))).mul (g.coef 9)))) Dy.zero (Dy.ofInt 7)
  let i := (t.floorTo 0).toNat
  if i ≥ 7 then acc (g.coef 7)
  else
    let f := t.sub (Dy.ofInt i)
    Law.hold e (acc (g.coef i) + acc (f.mul (dy (sub (acc (g.coef (i + 1))) (acc (g.coef i))))))

/-- The equations of a stage (R95): every product, sum and operand of one is held in the accumulator of R86, and limits are
compared as they are. `op` gives an operand by its code (R94). -/
def Law.eval (g : Stage) (op : Nat → Dy) : StOut :=
  let u0 := g.exp - 63
  let hold (v : Int) : Int := Law.hold g.exp v
  let acc (d : Dy) : Int := hold (d.floorTo u0)
  let mul (i : Nat) (d : Dy) : Int := acc ((g.coef i).mul d)
  let add (a b : Int) : Int := hold (a + b)
  let sub (a b : Int) : Int := hold (a - b)
  let dy (v : Int) : Dy := ⟨v, u0⟩
  let u := op g.a
  match g.typ with
  | 0 =>
    let x := if g.opt0 then (op g.b).neg else u
    let p := mul 0 u
    let d := add (mul 2 (dy (g.st1 14))) (mul 3 (dy (sub (acc x) (g.st1 15))))
    let w := add (add p (g.st2 12)) d
    let (lo, hi, bad) := Law.lims (g.coef 6) (g.coef 5) u0
    let y := min (max w lo) hi
    ⟨y, [⟨12, true, add (add (g.st2 12) (mul 1 u)) (mul 4 (dy (sub y w)))⟩, ⟨14, false, d⟩, ⟨15, false, acc x⟩], p, d, bad⟩
  | 1 =>
    let y := add (mul 0 u) (g.st2 12)
    ⟨y, [⟨12, true, add (sub (mul 1 u) (mul 3 (dy y))) (g.st2 14)⟩, ⟨14, true, sub (mul 2 u) (mul 4 (dy y))⟩], 0, 0, false⟩
  | 2 =>
    let y := add (mul 0 u) (g.st2 12)
    ⟨y, [⟨12, true, sub (mul 1 u) (mul 2 (dy y))⟩], 0, 0, false⟩
  | 3 =>
    let x1 := dy (g.st2 12)
    let x2 := dy (g.st2 14)
    let row (i j k : Nat) : Int := add (add (mul i x1) (mul j x2)) (mul k u)
    ⟨row 6 7 8, [⟨12, true, row 0 1 4⟩, ⟨14, true, row 2 3 5⟩], 0, 0, false⟩
  | 4 =>
    let r := if g.opt0 then min (max (acc u) (sub (g.st1 12) (acc (g.coef 3)))) (add (g.st1 12) (acc (g.coef 2))) else acc u
    let (lo, hi, bad) := Law.lims (g.coef 1) (g.coef 0) u0
    let y := min (max r lo) hi
    ⟨y, [⟨12, false, y⟩], 0, 0, bad⟩
  | 5 =>
    let v := acc u
    let w := (g.coef 0).floorTo u0
    let y := if v.natAbs ≤ w then 0 else if g.opt0 then v else if v > 0 then sub v (acc (g.coef 0)) else add v (acc (g.coef 0))
    ⟨y, [], 0, 0, false⟩
  | 6 => ⟨acc ((dy (Law.gain g (op g.b) g.exp)).mul u), [], 0, 0, false⟩
  | _ => ⟨add (add (mul 0 u) (mul 1 (op g.b))) (mul 2 (op g.c)), [], 0, 0, false⟩

/-- A value in units of 2^-63 rounded to a width of 31 or 63 fraction bits after a rise of the exponent by r. -/
def Law.rnd (v : Int) (two : Bool) (r : Int) : Int :=
  (⟨v, 0⟩ : Dy).rneTo (r + if two then 0 else 32)
/-- Whether a rounded value stays below 1. -/
def Law.fits (v : Int) (two : Bool) (r : Int) : Bool :=
  (Law.rnd v two r).natAbs < 2 ^ (if two then 63 else 31)

/-- The smallest rise from r on at which every value stays below 1 after rounding (R87), up to a bound. -/
def Law.rise (vals : List (Int × Bool)) (r : Int) (room : Nat) (fuel : Nat) : Option Int :=
  match fuel with
  | 0 => none
  | n + 1 =>
    if (room : Int) < r then none
    else if vals.all (fun x => Law.fits x.1 x.2 r) then some r
    else Law.rise vals (r + 1) room n

/-- The bits of a magnitude. -/
def Law.bits (n : Nat) : Nat := if n = 0 then 0 else Nat.log2 n + 1

/-- What the exit of a stage gives (R87, R88): the new exponent, the rounded output and states, OVF and UNF. -/
structure StExit where
  exp : Int
  y : Int
  sts : List StVal
  ovf : Bool
  unf : Bool
  deriving DecidableEq, Repr

/-- Renormalisation and rounding at the exit of a stage (R87, R88). -/
def Law.exit (e : Int) (y : Int) (sts : List StVal) : StExit :=
  let vals : List (Int × Bool) := (y, false) :: sts.map (fun v => (v.v, v.two))
  let m := vals.foldl (fun acc x => max acc x.1.natAbs) 0
  let r0 : Int := if m ≥ 2 ^ 63 then (Law.bits m : Int) - 63 else if m < 2 ^ 61 ∧ e > -128 then -1 else 0
  match Law.rise vals r0 (127 - e).toNat 4 with
  | some r =>
    let e' := e + r
    let y' := Law.rnd y false r
    let sts' := sts.map (fun v => { v with v := Law.rnd v.v v.two r })
    let unf := e' = -128 && ((y ≠ 0 && y' = 0) || (sts.any (fun v => v.v ≠ 0 && Law.rnd v.v v.two r = 0)))
    ⟨e', y', sts', false, unf⟩
  | none =>
    let r := 127 - e
    let sat (v : Int) (two : Bool) : Int :=
      let lim : Int := 2 ^ (if two then 63 else 31) - 1
      max (-lim) (min lim (Law.rnd v two r))
    ⟨127, sat y false, sts.map (fun v => { v with v := sat v.v v.two }), true, false⟩

/-- Store rounded states in the words of a stage (R95). -/
def Law.store (ws : List Word) (sts : List StVal) : List Word :=
  sts.foldl (fun ws v =>
    let b := BitVec.ofInt 64 v.v
    if v.two then (ws.set v.w (Word.ofN b.toNat)).set (v.w + 1) (Word.ofN (b.toNat >>> 32))
    else ws.set v.w (Word.ofN b.toNat)) ws

/-- The value limits of a PID or LIMIT stage, for the tracking of R106. -/
def Law.vlim (g : Stage) (y : Dy) : Dy :=
  let go (lo hi : Dy) : Dy := Dy.min (Dy.max y lo) (Dy.max hi lo)
  if g.typ = 0 then go (g.coef 6) (g.coef 5)
  else if g.typ = 4 then go (g.coef 1) (g.coef 0)
  else y

/-- What tracking does (R106, R107): the tracking stage, the value y_t that its integrator follows, and the applied
output. A slot that is not bumpless has no y_t: its integrators stay as AUTO left them. -/
structure Track where
  stage : Nat
  yt : Option Dy
  out : Dy
  deriving DecidableEq, Repr

/-- The states of stage k under tracking (R106, R107): the integrator of the tracking stage becomes y_t − P − D, and
y_prev of a later rate-limiting LIMIT becomes the applied output. -/
def Law.track (g : Stage) (k : Nat) (o : StOut) (tr : Option Track) : List StVal :=
  match tr with
  | none => o.sts
  | some x =>
    let integ (v : Int) : List StVal := o.sts.map (fun s => if s.w = 12 then { s with v := v } else s)
    if x.stage < k ∧ g.typ = 4 ∧ g.opt0 = true then o.sts.map (fun s => { s with v := x.out.floorTo (g.exp - 63) })
    else match x.yt with
      | some yt => if k = x.stage then integ (yt.floorTo (g.exp - 63) - o.p - o.d) else o.sts
      | none => if g.typ = 0 then integ (g.st2 12) else o.sts

/-- The result of a law: the stages with new exponents and states, the outputs, the overflow and underflow bits
by stage, and whether a pair of limits was crossed (R96). -/
structure LawOut where
  stages : List Stage
  outs : List Dy
  ovf : Nat
  unf : Nat
  bad : Bool
  deriving DecidableEq, Repr

/-- Evaluate the stages in order (R93), with the tracking of R106. -/
def Law.run (gs : List Stage) (k : Nat) (inp : Nat → Dy) (tr : Option Track) (acc : LawOut) : LawOut :=
  match gs with
  | [] => acc
  | g :: rest =>
    let op (c : Nat) : Dy := if c ≥ 8 then acc.outs.getD (c - 8) Dy.zero else inp c
    let o := Law.eval g op
    let x := Law.exit g.exp o.y (Law.track g k o tr)
    let g' := { g with exp := x.exp, words := Law.store g.words x.sts }
    Law.run rest (k + 1) inp tr
      ⟨acc.stages ++ [g'], acc.outs ++ [⟨x.y, x.exp - 31⟩], acc.ovf + (if x.ovf then 2 ^ k else 0),
        acc.unf + (if x.unf then 2 ^ k else 0), acc.bad || o.bad⟩

/-- y_t of R106: the applied output clamped into the value limits of the tracking stage and every later one. -/
def Law.yt (gs : List Stage) (ts : Nat) (y : Dy) : Dy := (gs.drop ts).foldl (fun acc g => Law.vlim g acc) y

/-- The cycles of a sample (R93). -/
def Law.cost (gs : List Stage) : Nat :=
  8 + (gs.map (fun g => match g.typ with
    | 0 => 6 | 1 => 5 | 2 => 4 | 3 => 8 | 4 => 2 | 5 => 2 | 6 => 4 | _ => 2)).sum

end Sys2Proof.Machine
end

