-- ==== Sys2Proof/Machine/PwmOps.lean ====
section
/-!
DEFINITION. The commit of a PWM pair's shadows (R270, R275, R277): the checks, the pending set, and the write of
a fraction by a slot.
-/
namespace Sys2Proof.Machine

/-- The shadows of a pair. -/
def State.pwShadow (s : State) (p : Nat) : PwmSet :=
  ⟨s.fld (R.PW_PER p) F.PW_PER_TICKS, (s.rd (R.PW_DUTY p)).toNat, s.fld (R.PW_TOFF p) F.PW_TOFF_TICKS,
    s.fld (R.PW_PHASE p) F.PW_PHASE_TICKS⟩
/-- The on-time D of a set (R277): a fraction of PER in u1.31, rounded to nearest even, or the ticks. -/
def State.pwOn (s : State) (p : Nat) (x : PwmSet) : Nat :=
  if s.bit (R.PW_CFG p) F.PW_CFG_DUTY_FRAC then Nat.rne (min x.duty (2 ^ 31) * x.per) 31
  else x.duty % 2 ^ 29
/-- PW_MIN + DT_MAX of a pair. -/
def State.pwMinDt (s : State) (p : Nat) : Nat :=
  s.fld (R.PW_PWMIN p) F.PW_PWMIN_TICKS + s.fld (R.PW_DT p) F.PW_DT_DT_MAX
/-- The pair that SYNC_SRC names (R274). -/
def State.pwSrc (s : State) (p : Nat) : Nat := p / 12 * 12 + s.fld (R.PW_CFG p) F.PW_CFG_SYNC_SRC
/-- The period of the source of a PAIR slave: its shadow when it is committed together, else its pending or
loaded set. -/
def State.pwSrcPer (s : State) (p : Nat) (group : List Nat) : Nat :=
  let q := s.pwSrc p
  if group.contains q then (s.pwShadow q).per
  else match (s.pairX q).pend with
    | some x => x.per
    | none => (s.pairX q).cur.per
/-- The first failing check of a commit (R275), 0 for none. -/
def State.pwCheck (s : State) (p : Nat) (group : List Nat) (x : PwmSet) : Nat :=
  let mode := s.fld (R.PW_CFG p) F.PW_CFG_MODE
  let sync := s.fld (R.PW_CFG p) F.PW_CFG_SYNC
  let d := s.pwOn p x
  if x.per < 2048 || x.per < 2 * s.pwMinDt p then 1
  else if d > x.per && !s.bit (R.PW_CFG p) F.PW_CFG_DUTY_FRAC && !s.bit (R.PW_CFG p) F.PW_CFG_AUTO_COMMIT then 2
  else if (mode = 2 && x.toff ≥ x.per) || (mode = 3 && (x.toff < s.pwMinDt p || d + x.toff > x.per)) then 3
  else if ((sync = 1 || sync = 2) && x.phase ≥ x.per) || (sync = 1 && x.per ≠ s.pwSrcPer p group) then 4
  else 0
/-- Commit the shadows of a pair (R275): a refused commit sets COMMIT_REJ and REJ_CAUSE and leaves an earlier set
pending. A set committed at another instant stays beside the new one, for a reload at the instant of the new commit (R278). -/
def State.pwCommit (s : State) (p : Nat) (group : List Nat) (tag : Word) : State :=
  let x := s.pwShadow p
  let c := s.pwCheck p group x
  if c = 0 then
    let q := s.pairX p
    let old := if q.pend.isSome && q.pendAt ≠ tag then q.pend else q.earlier
    (s.setPairX p { q with pend := some x, pendAt := tag, earlier := old }).set1 (R.PW_STAT p) F.PW_STAT_PENDING
  else
    (s.setFld (R.PW_STAT p) F.PW_STAT_REJ_CAUSE c).raise 1 6 p (R.PW_STAT p) F.PW_STAT_COMMIT_REJ tag
/-- A slot writes a fraction in [0, 1] to a pair and commits it (R90, R102, R277). -/
def State.pwFraction (s : State) (p : Nat) (f : Dy) (tag : Word) : State :=
  let n := ((Dy.clamp f Dy.zero (Dy.ofInt 1)).rneTo (-31)).toNat
  (s.wr (R.PW_DUTY p) (Word.ofN n)).pwCommit p [] tag

end Sys2Proof.Machine
end

