-- ==== Sys2Proof/Machine/Vars.lean ====
section
/-!
DEFINITION. Writes of variables (R53, R114, R115, R132, R183, R267, R532), the destination of a slot (R90, R102),
and the fallow causes of a slot (R105).
-/
namespace Sys2Proof.Machine

/-- The station that supplies an input word (R47, R382). -/
def State.wordStn (s : State) (w : Nat) : Option Nat :=
  match s.io.find? (fun e => 0x101000 ≤ e.1 && e.1 < 0x180000 && e.1 % 0x20000 < 0x2F80 && e.1 % 0x40 = 0x14 &&
      F.FP_S_LEN_USED.get e.2 = 1 && s.fld (e.1 - 4) F.FP_S_MAP_IN_BASE ≤ w &&
      w < s.fld (e.1 - 4) F.FP_S_MAP_IN_BASE + F.FP_S_LEN_ILEN.get e.2 / 4) with
  | some (a, _) => some (126 * ((a - 0x100000) / 0x20000) + (a % 0x20000 - 0x1000) / 0x40)
  | none => none

/-- A WARN raised against a slot for a write that is ignored (R104, R115, R132, R532). -/
def State.slotWarn (s : State) (k a : Nat) (tag : Word) : State := s.statusEvent 1 1 k a 0 tag

/-- A negative binary32 value that is not a zero. -/
def F32.negative (w : Word) : Bool := F32.sign w && !F32.isZero w

/-- A write to TPn (R115): a NaN or infinity is ignored with a WARN; another value waits for the next release. -/
def State.slotTp (s : State) (k n : Nat) (v tag : Word) : State :=
  if F32.finite v then
    let x := s.slotX k
    (s.setSlotX k { x with tp := Smap.put x.tp n v }).wr (R.LE_TP k n) v
  else s.slotWarn k (R.LE_TP k n) tag

/-- A write to a slot field other than MODE (R106, R114, R115, R132, R532). -/
def State.writeSlotPlain (s : State) (k f : Nat) (v tag : Word) : State :=
  match slotFieldReg k f with
  | none => s
  | some a =>
    if 13 ≤ f ∧ f ≤ 20 then s.slotTp k (f - 13) v tag
    else if f = 31 then s.when (v.toNat % 2 = 1) (fun s => s.set1 a F.LE_SUP_CMD_REENGAGE)
    else if 6 ≤ f ∧ f ≤ 9 then
      if !F32.finite v || (f = 9 && F32.negative v) then s.slotWarn k a tag
      else
        let hi := R.LE_OUT_HI k
        let lo := R.LE_OUT_LO k
        let cross (s : State) : Bool := (F32.toDy (s.rd hi)).lt (F32.toDy (s.rd lo))
        let was := cross s
        let s := s.wr a v
        let s := s.when (!was && cross s) (fun s => s.raise 1 1 k (R.LE_STAT k) F.LE_STAT_BAD_IN tag)
        s.when (f = 6) (fun s => s.setSlotX k { s.slotX k with manW := true })
    else if f = 26 ∨ f = 28 ∨ f = 29 then
      if !F32.finite v || F32.negative v then s.slotWarn k a tag else s.wr a v
    else if f = 27 then (if !F32.finite v then s.slotWarn k a tag else s.wr a v)
    else if f = 0 ∨ (10 ≤ f ∧ f ≤ 12) then s.wr a v
    else s

/-- A write to an axis field (R267): fields 0 to 8 are writable. A write of a latched limit while the axis is MOVING
or STOPPING shows LATCHED (R250). -/
def State.writeAxisField (s : State) (a f : Nat) (v : Word) : State :=
  if f ≤ 8 then
    match axisFieldReg a f with
    | some r =>
      let st := s.fld (R.AX_STATE a) F.AX_STATE_STATE
      let v := if f = 6 then v &&& 0x1FFFF else if f = 7 then v &&& 7 else v
      (s.wr r v).when (2 ≤ f && f ≤ 5 && (st = 1 || st = 2)) (fun s => s.set1 (R.AX_STAT a) F.AX_STAT_LATCHED)
    | none => s
  else s

/-- A write to a lane field (R183): CMD and CMD_ARG, the recipe counters, and the lane variables. -/
def State.writeLaneField (s : State) (l f : Nat) (v : Word) : State :=
  let x := s.laneX l
  if f = 6 then s.setLaneX l { x with cmd := v }
  else if f = 7 then s.setLaneX l { x with arg := v }
  else if 8 ≤ f ∧ f < 12 then s.wr (R.SQ_RC l (f - 8)) v
  else if 32 ≤ f ∧ f < 64 then s.setLaneX l { x with lv := Smap.set (fun _ => 0) x.lv (f - 32) v }
  else s

-- jobs of a cluster's engine

/-- The slot that names the job of a slot: the head of its cascade, or itself (R97). -/
def State.jobHead (s : State) (k : Nat) : Nat :=
  let c := R.LE_CFG k
  if s.bit c F.LE_CFG_CASC then k / 32 * 32 + s.fld c F.LE_CFG_CASC_HEAD else k
/-- The slots of the cluster of a slot. -/
def clusterSlots (c : Nat) : List Nat := (List.range 32).map (fun i => 32 * c + i)
/-- The slots of a job in position order (R97). -/
def State.jobSlots (s : State) (h : Nat) : List Nat :=
  if s.bit (R.LE_CFG h) F.LE_CFG_CASC then
    (List.range 4).flatMap (fun p => (clusterSlots (h / 32)).filter (fun k =>
      s.bit (R.LE_CFG k) F.LE_CFG_USED && s.bit (R.LE_CFG k) F.LE_CFG_CASC &&
        s.fld (R.LE_CFG k) F.LE_CFG_CASC_HEAD = h % 32 && s.fld (R.LE_CFG k) F.LE_CFG_CASC_POS = p))
  else [h]
/-- The oldest sample of a job, with the first slot in position order that holds it. -/
def State.jobNext (s : State) (h : Nat) : Option (Nat × Ready) :=
  (s.jobSlots h).foldl (fun (acc : Option (Nat × Ready)) k =>
    match (s.slotX k).ready, acc with
    | [], _ => acc
    | r :: _, none => some (k, r)
    | r :: _, some (_, q) => if r.rel < q.rel then some (k, r) else acc) none
/-- Whether a job of a sample comes before another (R100): at an earlier start, then by its deadline, then
field-synchronous work, then the lower number. -/
def State.jobBefore (s : State) (free : Nat) (h : Nat) (r : Ready) (g : Nat) (q : Ready) : Bool :=
  let a := max free r.rel
  let b := max free q.rel
  let fh := s.bit (R.LE_CFG h) F.LE_CFG_TIMING
  let fg := s.bit (R.LE_CFG g) F.LE_CFG_TIMING
  a < b || (a = b && (r.deadline < q.deadline || (r.deadline = q.deadline && ((fh && !fg) || (fh = fg && h < g)))))
/-- The job that a cluster's engine has started, as its head, the slot that completes next and its sample (R97, R100):
the cascade in progress, else the first of the jobs that could start by their deadlines. -/
def State.engineJob (s : State) (c : Nat) : Option (Nat × Nat × Ready) :=
  let x := s.clusterX c
  let going : Option (Nat × Nat × Ready) := match x.run with
    | some (h, rel) => (match s.jobNext h with
      | some (k, r) => if r.rel = rel then some (h, k, r) else none
      | none => none)
    | none => none
  match going with
  | some j => some j
  | none => ((clusterSlots c).filter (fun h => s.jobHead h = h)).foldl (fun (acc : Option (Nat × Nat × Ready)) h =>
      match s.jobNext h, acc with
      | none, _ => acc
      | some (k, r), none => if max x.free r.rel ≤ r.deadline then some (h, k, r) else none
      | some (k, r), some (g, j, q) =>
        if max x.free r.rel ≤ r.deadline && s.jobBefore x.free h r g q then some (h, k, r) else some (g, j, q)) none
/-- The engine of the cluster runs the oldest sample of a slot. -/
def State.slotRunning (s : State) (k : Nat) : Bool :=
  match s.engineJob (k / 32) with
  | some (_, j, _) => j = k
  | none => false

-- effective mode

/-- A supervision action of a code is in force (R126, R127). -/
def State.supAct (s : State) (k code : Nat) : Bool :=
  let st := R.LE_SUP_STAT k
  let cf := R.LE_SUP_CFG k
  (s.bit st F.LE_SUP_STAT_FE_ACT && s.fld cf F.LE_SUP_CFG_FE_ACTION = code) ||
    ((s.bit st F.LE_SUP_STAT_AGE_ACT || s.bit st F.LE_SUP_STAT_FRZ_ACT) && s.fld cf F.LE_SUP_CFG_FB_ACTION = code)
/-- A slot fault with an action code is in force (R110). -/
def State.fltAct (s : State) (k code : Nat) : Bool :=
  (s.slotX k).fault && s.fld (R.LE_CFG k) F.LE_CFG_FLT_ACT = code
/-- The next member of the slot's cascade (R97): the slot whose SP this slot drives. -/
def State.cascNext (s : State) (k : Nat) : Option Nat :=
  let c := R.LE_CFG k
  let d := R.LE_OUT_DST k
  if s.bit c F.LE_CFG_CASC ∧ s.fld d F.LE_OUT_DST_KIND = 1 ∧ Ref.space (s.fld d F.LE_OUT_DST_REF) = 4 ∧
      Ref.index (s.fld d F.LE_OUT_DST_REF) % 32 = 0 then
    let j := Ref.index (s.fld d F.LE_OUT_DST_REF) / 32
    if j / 32 = k / 32 ∧ s.bit (R.LE_CFG j) F.LE_CFG_CASC = true ∧
        s.fld (R.LE_CFG j) F.LE_CFG_CASC_HEAD = s.fld c F.LE_CFG_CASC_HEAD then some j else none
  else none
/-- The effective mode that R105 gives, over the members of a cascade that follow (at most 3). -/
def State.effModeN (s : State) (fuel : Nat) (k : Nat) : Nat :=
  if s.fld (R.LE_STAT k) F.LE_STAT_FCAUSE ≠ 0 then 4
  else if s.fltAct k 2 || s.supAct k 2 then 6
  else if s.fltAct k 0 || s.supAct k 0 then 5
  else
    let req := s.fld (R.LE_MODE k) F.LE_MODE_REQ
    match fuel with
    | 0 => req
    | n + 1 => match s.cascNext k with
      | some j => if s.effModeN n j ≠ 2 then 3 else req
      | none => req
/-- The effective mode of a slot (R105, R99). -/
def State.effMode (s : State) (k : Nat) : Nat := s.effModeN 4 k
/-- R99 applies: a later member of the cascade is not in AUTO. -/
def State.cascTrack (s : State) (k : Nat) : Option Nat :=
  match s.cascNext k with
  | some j => if s.effMode j ≠ 2 then some j else none
  | none => none

/-- OUT shows an output that is applied, and OUT_SAT a saturation (R90, R102). -/
def State.outShow (s : State) (k : Nat) (d : Dy) (sat : Bool) : State :=
  let s := s.setSlotX k { s.slotX k with last := d }
  (s.wr (R.LE_OUT k) (F32.ofDy d)).when sat (fun s => s.set1 (R.LE_STAT k) F.LE_STAT_OUT_SAT)

/-- The slot fallow value (R312), exact. -/
def State.slotFallow (s : State) (k : Nat) : Dy := F32.toDy (s.rd (R.SLOT_FALLOW k))

/-- What decides the effective mode of a slot beside the image (R105). -/
def State.modeOf (s : State) (k : Nat) : Nat × Nat × Nat × Bool :=
  (k, s.fld (R.LE_MODE k) F.LE_MODE_REQ, s.fld (R.LE_STAT k) F.LE_STAT_FCAUSE, (s.slotX k).fault)
/-- The sample that runs in the job of a slot keeps what decided the slot's mode when it started (R120): noted before it
changes. -/
def State.modeKeep (s : State) (k : Nat) : State :=
  match s.engineJob (k / 32) with
  | some (h, j, _) =>
    let x := s.slotX j
    s.when (h = s.jobHead k) (fun s => s.setSlotX j { x with ready := match x.ready with
      | [] => []
      | r :: t => (if r.keep.any (fun e => e.1 = k) then r else { r with keep := r.keep ++ [s.modeOf k] }) :: t })
  | none => s
/-- The mode in which the running sample of a slot started (R120). -/
def State.modeStart (s : State) (k : Nat) : Nat :=
  let keep := match (s.slotX k).ready with
    | r :: _ => r.keep
    | [] => []
  State.effMode (s.each keep (fun s e => ((s.setFld (R.LE_MODE e.1) F.LE_MODE_REQ e.2.1).setFld (R.LE_STAT e.1)
    F.LE_STAT_FCAUSE e.2.2.1).setSlotX e.1 { s.slotX e.1 with fault := e.2.2.2 })) k
/-- Clear a fallow cause; the effective mode is decided again at the next sample (R105). -/
def State.clrFcause (s : State) (k b : Nat) : State := (s.modeKeep k).setFld (R.LE_STAT k) ⟨8 + b, 1⟩ 0
/-- A cause that ends the running swatch of a cluster at the next sample of its slot (R133, R140): the first that comes. -/
def State.swatchDue (s : State) (c cause : Nat) : State :=
  let st := s.fld (R.LC_SW_STAT c) F.LC_SW_STAT_STATE
  let x := s.clusterX c
  if 1 ≤ st ∧ st ≤ 3 ∧ x.due = 0 then s.setClusterX c { x with due := cause } else s
/-- Set a fallow cause of a slot (R105): 0 HEDGEROW, 1 STOP, 2 SUPERVISION, 3 SLOT_FAULT, 4 COMMAND. The first one
drops the output of a sample that runs and of one whose output has not taken effect (R103), and `app` applies the fallow
value, which stands from that moment. -/
def State.causeWith (app : State → State) (s : State) (k b : Nat) : State :=
  if !s.bit (R.LE_CFG k) F.LE_CFG_USED then s
  else
    let old := s.fld (R.LE_STAT k) F.LE_STAT_FCAUSE
    let run := s.slotRunning k
    let mode := s.modeStart k
    let s := (s.modeKeep k).setFld (R.LE_STAT k) ⟨8 + b, 1⟩ 1
    let s := s.when ((s.clusterX (k / 32)).slot = k % 32) (fun s => s.swatchDue (k / 32) 7)
    if old ≠ 0 then s
    else
      let x := s.slotX k
      let s := s.setSlotX k { x with wait := none, ready := match x.ready with
        | [] => []
        | r :: t => (if run then { r with dead := some mode } else r) :: t }
      app (s.setFld (R.LE_MODE k) F.LE_MODE_EFF 4)
/-- A mode code is requested (R104): a code that is not requestable is ignored with a WARN. -/
def State.modeWith (app : State → State) (s : State) (k code : Nat) (tag : Word) : State :=
  if code ≤ 4 then
    let s := (s.modeKeep k).setFld (R.LE_MODE k) F.LE_MODE_REQ code
    if code = 4 then s.causeWith app k 4 else s.clrFcause k 4
  else s.slotWarn k (R.LE_MODE k) tag

/-- Store an output in the destination of a slot, converted to its type (R90, R102); true when the conversion
saturated, which the clamp of a duty fraction into [0, 1] counts as (DESIGN CHOICE, log 207). Fields are stored as they
stand. A destination that is the MODE field of another slot may put that slot in FALLOW, whose value then reaches its own
destination: `n` bounds that chain, which takes each slot at most once. -/
def State.destStoreN (n : Nat) (s : State) (k : Nat) (d : Dy) (tag : Word) : State × Bool :=
  let a := R.LE_OUT_DST k
  match s.fld a F.LE_OUT_DST_KIND with
  | 1 =>
    let ref := s.fld a F.LE_OUT_DST_REF
    let (v, sat) := Ty.ofDy (s.refTy ref) d
    let i := Ref.index ref
    let s' := match Ref.space ref with
      | 1 => if i < 65536 then s.setOut i v else s
      | 2 => s.wr (R.LOCAL (i / 8192) (i % 8192)) v
      | 4 =>
        if i % 32 = 4 then
          let j := i / 32
          s.modeWith (fun s => match n with
            | 0 => s
            | n + 1 =>
              let d := s.slotFallow j
              let (s, sat) := State.destStoreN n s j d tag
              s.outShow j d sat) j v.toNat tag
        else s.writeSlotPlain (i / 32) (i % 32) v tag
      | 5 => s.writeAxisField (i / 32) (i % 32) v
      | _ => s
    (s', sat)
  | 2 =>
    let p := k / 256 * 12 + s.fld a F.LE_OUT_DST_PAIR
    (s.pwFraction p d tag, Dy.lt d Dy.zero || Dy.lt (Dy.ofInt 1) d)
  | _ => (s, false)
/-- Store an output in the destination of a slot (R90, R102): no chain of MODE writes is longer than the 4,096 slots. -/
def State.destStore (s : State) (k : Nat) (d : Dy) (tag : Word) : State × Bool := s.destStoreN 4096 k d tag

/-- An output of a slot reaches its destination: OUT shows it, and OUT_SAT a saturation (R90, R102). -/
def State.slotApply (s : State) (k : Nat) (d : Dy) (tag : Word) : State :=
  let (s, sat) := s.destStore k d tag
  s.outShow k d sat
/-- Set a fallow cause of a slot (R105), whose fallow value reaches its destination. -/
def State.setFcause (s : State) (k b : Nat) (tag : Word) : State :=
  s.causeWith (fun s => s.slotApply k (s.slotFallow k) tag) k b
/-- A mode code is requested (R104). -/
def State.slotMode (s : State) (k code : Nat) (tag : Word) : State :=
  s.modeWith (fun s => s.slotApply k (s.slotFallow k) tag) k code tag

/-- A write to a slot field (R104, R114). -/
def State.writeSlotField (s : State) (k f : Nat) (v tag : Word) : State :=
  if f = 4 then s.slotMode k v.toNat tag else s.writeSlotPlain k f v tag

/-- A write of a variable by its writer (R53): spaces 0 and 3, read-only indices and the null reference take no
write (R55). -/
def State.writeVar (s : State) (ref : Nat) (v tag : Word) : State :=
  let i := Ref.index ref
  match Ref.space ref with
  | 1 => if i < 65536 then s.setOut i v else s
  | 2 => s.wr (R.LOCAL (i / 8192) (i % 8192)) v
  | 4 => s.writeSlotField (i / 32) (i % 32) v tag
  | 5 => s.writeAxisField (i / 32) (i % 32) v
  | 6 => s.writeLaneField (i / 256) (i % 256) v
  | _ => s

end Sys2Proof.Machine
end

