-- ==== Sys2Proof/Machine/Loop.lean ====
section
/-!
DEFINITION. Loop slots: release, inputs, effective mode, the sample with its supervision and its swatch, slot
faults and skips (chapters "Loop engine" and "Loop supervision, fallback and swatch tuning").
-/
namespace Sys2Proof.Machine

-- the stages of a slot

/-- Key of a law word in State.lawMem (R95). -/
def lawKey (k stage w : Nat) : Nat := 4096 * (k / 32) + 128 * (k % 32) + 16 * stage + w
/-- A law word of a slot. -/
def State.lawWord (s : State) (k stage w : Nat) : Word := Smap.get (fun _ => 0) s.lawMem (lawKey k stage w)
def State.setLawKey (s : State) (key : Nat) (v : Word) : State :=
  { s with lawMem := Smap.set (fun _ => 0) s.lawMem key v }
/-- Set law words. -/
def State.setLaws (s : State) (ws : List (Nat × Word)) : State := s.each ws (fun s e => s.setLawKey e.1 e.2)
/-- Stage i of a slot as it stands. -/
def State.slotStage (s : State) (k i : Nat) : Stage :=
  let a := R.LE_STG k i
  ⟨s.fld a F.LE_STG_TYPE, s.bit a F.LE_STG_OPT0, s.fld a F.LE_STG_IN_A, s.fld a F.LE_STG_IN_B,
    s.fld a F.LE_STG_IN_C, s.fldI a F.LE_STG_EXP, (List.range 16).map (fun w => s.lawWord k i w)⟩
/-- The stages of a slot's law. -/
def State.slotStages (s : State) (k : Nat) : List Stage :=
  (List.range (s.fld (R.LE_CFG k) F.LE_CFG_NSTG + 1)).map (s.slotStage k)
/-- Write back the exponents and states of a law (R91). -/
def State.storeStages (s : State) (k : Nat) (gs : List Stage) : State :=
  s.each ((List.range gs.length).zip gs) (fun s ig =>
    let s := s.setFld (R.LE_STG k ig.1) F.LE_STG_EXP (ig.2.exp % 256).toNat
    s.each [12, 13, 14, 15] (fun s w => s.setLawKey (lawKey k ig.1 w) (ig.2.word w)))

/-- The slot is configured, its die runs, its region is not held (R480), and the loops have started (R511). -/
def State.slotRuns (s : State) (k : Nat) : Bool :=
  s.bit (R.LE_CFG k) F.LE_CFG_USED && s.dieState (k / 1024) = 0 && !s.regionHeld (k / 256) && s.boot.loops

-- inputs

/-- The input selectors in the order SP, PV, AUX0, AUX1, TRK. -/
def slotInReg (k i : Nat) : Nat := R.LE_IN_SP k + 4 * i
/-- The slot field that KIND 3 (OWN) names (R81). The kind is not permitted for PV, so no image that loads has it there;
SP stands in its arm (DESIGN CHOICE, log 73). -/
def ownField (i : Nat) : Nat := match i with | 2 => 10 | 3 => 11 | 4 => 12 | _ => 0
/-- Take one input (R80, R81, R83). -/
def State.slotInput (s : State) (k i : Nat) : Option Dy × Bool :=
  let a := slotInReg k i
  let ch := k / 256 * 12 + s.fld a F.LE_IN_SP_SDI
  match s.fld a F.LE_IN_SP_KIND with
  | 0 =>
    let ref := s.fld a F.LE_IN_SP_REF
    Law.input (s.refTy ref) (s.readRef true ref)
  | 1 => (some ⟨(s.rd (R.SD_MAIN ch)).toInt, -31⟩, false)
  | 2 => (some ⟨(s.rd (R.SD_FAST ch)).toInt, -31⟩, false)
  | _ => Law.input .f32 (s.slotField k (ownField i))
/-- Whether an input is a field of an earlier member of the slot's own cascade, or the slot's own SP, which such a
member writes: it is read when the sample is evaluated (R97, R98). -/
def State.slotEarly (s : State) (k i : Nat) : Bool :=
  let c := R.LE_CFG k
  let a := slotInReg k i
  let pos := s.fld c F.LE_CFG_CASC_POS
  if !s.bit c F.LE_CFG_CASC || pos = 0 then false
  else if s.fld a F.LE_IN_SP_KIND = 3 then i = 0
  else if s.fld a F.LE_IN_SP_KIND = 0 ∧ Ref.space (s.fld a F.LE_IN_SP_REF) = 4 then
    let j := Ref.index (s.fld a F.LE_IN_SP_REF) / 32
    let cj := R.LE_CFG j
    Ref.index (s.fld a F.LE_IN_SP_REF) = 32 * k || j / 32 = k / 32 && s.bit cj F.LE_CFG_CASC &&
      s.fld cj F.LE_CFG_CASC_HEAD = s.fld c F.LE_CFG_CASC_HEAD && s.fld cj F.LE_CFG_CASC_POS < pos
  else false

/-- TP writes that wait are copied into the law words that LE_TPMAP binds (R115). -/
def State.copyTp (s : State) (k : Nat) : State :=
  let x := s.slotX k
  let s := s.each x.tp (fun s nv =>
    let m := (s.rd (if nv.1 < 4 then R.LE_TPMAP0 k else R.LE_TPMAP1 k)).toNat >>> (8 * (nv.1 % 4)) % 256
    s.when (m ≥ 128) (fun s => s.setLawKey (lawKey k (m % 8) (m / 8 % 16)) nv.2))
  s.setSlotX k { x with tp := [] }

/-- Release a sample of a slot (R77, R78, R80, R100). -/
def State.slotRelease (s : State) (k : Nat) (t deadline : Nat) : State :=
  let s := s.copyTp k
  let x := s.slotX k
  let s := s.setSlotX k { x with
    ready := x.ready ++ [⟨none, [], t, t, deadline, (List.range 5).map (s.slotInput k), []⟩] }
  s.wr (R.LE_SAMPLE_T k) (tagOf t)

-- feedback age

/-- The input age of the station that supplies an input word (R52, R122). -/
def State.wordAge (s : State) (w : Nat) : Nat :=
  match s.wordStn w with
  | some k => (s.stnX k).age
  | none => 0
/-- The age of a filter path of an SDI channel (R296): main or fast. -/
def State.sdiAge (s : State) (ch : Nat) (main : Bool) (now : Nat) : Nat :=
  let x := s.sdiX ch
  let last := if main then x.tMain else x.tFast
  let osr := if main then s.fld (R.SD_CFG ch) F.SD_CFG_MAIN_OSR else s.fld (R.SD_CFG ch) F.SD_CFG_FAST_OSR
  min 255 ((now - last) * s.fld (R.SD_GRP_CFG (ch / 4)) F.SD_GRP_CFG_FNOM / (osr * 1000000))
/-- The ages that SD_STAT shows at a device time (R296). -/
def State.sdiAges (s : State) (ch now : Nat) : State :=
  let a := R.SD_STAT ch
  s.when (s.bit (R.SD_CFG ch) F.SD_CFG_USED) (fun s =>
    (s.setFld a F.SD_STAT_AGE_MAIN (s.sdiAge ch true now)).setFld a F.SD_STAT_AGE_FAST (s.sdiAge ch false now))
/-- The age of an output word (R38): the cycles since the die of its writer was fenced, 0 while it runs (DEDUCED, log
209). -/
def State.fenceAge (s : State) (w : Nat) : Nat :=
  let die : Option Nat := match Smap.find s.img.owners (Ref.outWord w) with
    | some (.slot k) => some (k.val / 1024)
    | some (.axis a) => some (a.val / 32)
    | some (.task r _) => some (r.val / 4)
    | _ => none
  match die with
  | none => 0
  | some d => match Smap.find s.fences d with
    | some n => min 255 (s.seq - n).toNat
    | none => 0
/-- The age S of the PV source (R122). A CAN word that no reception has written reads 255, and one written in this cycle,
held as 256 until the next cut-off, 0 (log 210). -/
def State.pvAge (s : State) (k now : Nat) : Nat :=
  let a := R.LE_IN_PV k
  let ch := k / 256 * 12 + s.fld a F.LE_IN_PV_SDI
  match s.fld a F.LE_IN_PV_KIND with
  | 1 => s.sdiAge ch true now
  | 2 => s.sdiAge ch false now
  | 0 =>
    let ref := s.fld a F.LE_IN_PV_REF
    let w := Ref.index ref
    if Ref.space ref = 0 ∧ w < 0xE000 then s.wordAge w
    else if Ref.space ref = 0 ∧ w < 0xF000 then Smap.get (fun _ => 255) s.canAge w % 256
    else if Ref.space ref = 1 then s.fenceAge w
    else 0
  | _ => 0

-- slot faults

/-- A slot fault (R110): P0 1 residue, 2 overrun, 3 SRAM, 4 sentinel (R489). -/
def State.slotFault (s : State) (k cause : Nat) (tag : Word) : State :=
  let s := s.setSlotX k { s.slotX k with fault := true }
  let s := s.eventU false 0x1003 2 1 k [Word.ofN cause]
  s.when (s.fld (R.LE_CFG k) F.LE_CFG_FLT_ACT = 1) (fun s => s.setFcause k 3 tag)

-- limits and output

/-- The slot limits (R106): rate against the last applied output, then the value limits, as R95 orders them in a LIMIT stage
(DESIGN CHOICE, log 244); whether they changed the output, and whether HI is below LO. -/
def State.slotLimit (s : State) (k : Nat) (y : Dy) : Dy × Bool × Bool :=
  let hi := F32.toDy (s.rd (R.LE_OUT_HI k))
  let lo := F32.toDy (s.rd (R.LE_OUT_LO k))
  let rate := F32.toDy (s.rd (R.LE_OUT_RATE k))
  let last := (s.slotX k).last
  let bad := hi.lt lo
  let hi := if bad then lo else hi
  let r := if rate.m = 0 then y else Dy.clamp y (last.sub rate) (last.add rate)
  let z := Dy.clamp r lo hi
  (z, !z.same y, bad)

/-- What a sample works on: the numbers of its inputs after R84, ERR, and the injection of a swatch. -/
structure SampleIn where
  sp : Dy
  pv : Dy
  aux0 : Dy
  aux1 : Dy
  trk : Dy
  err : Dy
  deriving DecidableEq, Repr

/-- The operands of a stage by code (R94). -/
def SampleIn.op (x : SampleIn) (c : Nat) : Dy :=
  match c with
  | 0 => x.err | 1 => x.sp | 2 => x.pv | 3 => x.aux0 | 4 => x.aux1 | 5 => x.trk | _ => Dy.zero

/-- The law, with a tracking where it tracks. -/
def State.slotLaw (s : State) (k : Nat) (x : SampleIn) (tr : Option Track) : LawOut :=
  Law.run (s.slotStages k) 0 x.op tr ⟨[], [], 0, 0, false⟩
/-- The output of a law. -/
def LawOut.out (o : LawOut) : Dy := o.outs.getLast?.getD Dy.zero

/-- A slot tracks in an effective mode (R106). -/
def State.slotTracks (s : State) (k mode : Nat) : Bool :=
  s.bit (R.LE_CFG k) F.LE_CFG_TRK_EN && mode ≠ 2 && mode ≠ 0
/-- The output that an effective mode gives before its limits (R104, R99). `ahead` is the state in which the modes of
later members of the cascade are decided. -/
def State.modeOut (s ahead : State) (k mode : Nat) (x : SampleIn) (law : LawOut) : Dy :=
  match mode with
  | 1 => F32.toDy (s.rd (R.LE_MAN_OUT k))
  | 2 => law.out
  | 3 => match ahead.cascTrack k with
    | some j =>
      if s.bit (R.LE_CFG j) F.LE_CFG_SP_TRACK && s.slotTracks j (ahead.effMode j) then F32.toDy (s.rd (R.LE_PV j))
      else F32.toDy (s.rd (R.LE_SP j))
    | none => x.trk
  | 4 => s.slotFallow k
  | 6 => F32.toDy (s.rd (R.LE_OPEN_OUT k))
  | _ => (s.slotX k).last

-- supervision

/-- A detector trips (R128): its SEEN and action bits, the count, the instant, the event, and FALLOW at once when
that is its action. Detectors: 0 following error, 1 lost feedback, 2 frozen feedback. -/
def State.supTrip (s : State) (k det : Nat) (q : Word) (t : Word) : State :=
  let st := R.LE_SUP_STAT k
  let act := if det = 0 then s.fld (R.LE_SUP_CFG k) F.LE_SUP_CFG_FE_ACTION
    else s.fld (R.LE_SUP_CFG k) F.LE_SUP_CFG_FB_ACTION
  let s := (s.set1 st ⟨det, 1⟩).set1 st ⟨3 + det, 1⟩
  let s := (s.incr (R.LE_SUP_EVT_CNT k)).wr (R.LE_SUP_T k) t
  let s := s.event 0x1001 2 1 k (Word.ofN (det + 1)) (Word.ofN act) q
  s.when (act = 1) (fun s => s.setFld (R.LE_STAT k) ⟨10, 1⟩ 1)

/-- End the action of a detector; FCAUSE.SUPERVISION clears with the last FALLOW action. -/
def State.supEnd (s : State) (k det : Nat) : State :=
  let s := s.setFld (R.LE_SUP_STAT k) ⟨det, 1⟩ 0
  if s.supAct k 1 then s else s.clrFcause k 2

/-- Whether any supervision action is in force. -/
def State.supAny (s : State) (k : Nat) : Bool := s.fld (R.LE_SUP_STAT k) ⟨0, 3⟩ ≠ 0

/-- Re-engagement at a sample (R129 to R131), for each detector in force: its clear condition counted, the command,
and the end of the action. `clr` says for each that its clear condition holds. REENG_N = 0, which no image that loads has,
acts as 1 (DESIGN CHOICE, log 248). -/
def State.supReengage (s : State) (k : Nat) (clr : List Bool) : State :=
  let cmd := s.bit (R.LE_SUP_CMD k) F.LE_SUP_CMD_REENGAGE
  let auto := s.bit (R.LE_SUP_CFG k) F.LE_SUP_CFG_REENG_AUTO
  let n := s.fld (R.LE_SUP_CFG k) F.LE_SUP_CFG_REENG_N
  let s := s.setFld (R.LE_SUP_CMD k) F.LE_SUP_CMD_REENGAGE 0
  let had := s.supAny k
  let s := s.each [0, 1, 2] (fun s det =>
    let c := clr.getD det false
    if !s.bit (R.LE_SUP_STAT k) ⟨det, 1⟩ then s
    else
      let x := s.slotX k
      let cnt := if c then (match det with | 0 => x.clrFe | 1 => x.clrAge | _ => x.clrFrz) + 1 else 0
      let s := s.setSlotX k (match det with
        | 0 => { x with clrFe := cnt } | 1 => { x with clrAge := cnt } | _ => { x with clrFrz := cnt })
      if (auto && c && cnt ≥ n) || (cmd && (det ≠ 1 || c)) then s.supEnd k det
      else s.when (cmd && det = 1) (fun s => s.set1 (R.LE_SUP_STAT k) F.LE_SUP_STAT_REENG_DENIED))
  if had && !s.supAny k then
    (s.setFld (R.LE_FE_CNT k) F.LE_FE_CNT_COUNT 0).setFld (R.LE_FRZ_CNT k) F.LE_FRZ_CNT_COUNT 0
  else s

/-- Restart the frozen window (R125). -/
def State.frzRestart (s : State) (k : Nat) (pv out : Dy) : State :=
  let x := s.slotX k
  (s.setSlotX k { x with frzRef := some pv, frzMin := out, frzMax := out }).setFld (R.LE_FRZ_CNT k)
    F.LE_FRZ_CNT_COUNT 0

/-- The frozen-feedback detector of an AUTO sample (R125): the state, and the output range when it trips. -/
def State.frzDetect (s : State) (k : Nat) (pv out : Dy) : State × Option Dy :=
  let x := s.slotX k
  let band := F32.toDy (s.rd (R.LE_FRZ_BAND k))
  let moved := match x.frzRef with
    | some r => band.le (pv.sub r).abs
    | none => true
  if moved then (s.frzRestart k pv out, none)
  else
    let n := s.fld (R.LE_FRZ_CNT k) F.LE_FRZ_CNT_COUNT + 1
    let lo := Dy.min x.frzMin out
    let hi := Dy.max x.frzMax out
    let s := (s.setSlotX k { x with frzMin := lo, frzMax := hi }).setFld (R.LE_FRZ_CNT k) F.LE_FRZ_CNT_COUNT n
    if n ≥ s.fld (R.LE_FRZ_N k) F.LE_FRZ_N_SAMPLES then
      if (F32.toDy (s.rd (R.LE_MOVE_MIN k))).lt (hi.sub lo) then (s, some (hi.sub lo))
      else (s.frzRestart k pv out, none)
    else (s, none)

/-- The detectors of a sample (R119 to R125): the state, and whether one tripped. `mode` is the effective mode at
the start, `next` the one that the sample would apply, `out` the law output after the slot limits, `mask` holds LE_FE_CNT at 0
(R140). -/
def State.supDetect (s : State) (k mode next : Nat) (x : SampleIn) (out : Dy) (age : Nat) (mask : Bool) (t fin : Word) :
    State × Bool :=
  let cf := R.LE_SUP_CFG k
  if mode = 0 then (s, false)
  else
    -- following error
    let (s, feTrip) :=
      if mode = 2 ∧ s.bit cf F.LE_SUP_CFG_FE_EN = true ∧ mask = false then
        let n := if (F32.toDy (s.rd (R.LE_FE_LIMIT k))).lt x.err.abs then
          s.fld (R.LE_FE_CNT k) F.LE_FE_CNT_COUNT + 1 else 0
        (s.setFld (R.LE_FE_CNT k) F.LE_FE_CNT_COUNT n,
          decide (n > 0 ∧ n ≥ s.fld (R.LE_FE_TIME k) F.LE_FE_TIME_SAMPLES))
      else (s.setFld (R.LE_FE_CNT k) F.LE_FE_CNT_COUNT 0, false)
    -- lost feedback: an episode ends with a sample whose feedback is good
    let lost := s.bit cf F.LE_SUP_CFG_AGE_EN && decide (age > s.fld (R.LE_FB_AGE k) F.LE_FB_AGE_MAX)
    let new := lost && (mode = 1 || mode = 3) && !(s.slotX k).episode
    let s := s.setSlotX k { s.slotX k with episode := lost && ((s.slotX k).episode || new) }
    let s := s.when new (fun s => s.raise 1 1 k (R.LE_SUP_STAT k) F.LE_SUP_STAT_AGE_SEEN fin)
    let ageTrip := lost && (mode = 2 || ((mode = 1 || mode = 3) && next = 2))
    -- frozen feedback
    let (s, frzTrip) :=
      if mode = 2 ∧ s.bit cf F.LE_SUP_CFG_FRZ_EN = true then s.frzDetect k x.pv out
      else (s.frzRestart k x.pv out, none)
    let s := s.when feTrip (fun s =>
      (s.supTrip k 0 (F32.ofDy x.err.abs) t).setSlotX k { s.slotX k with clrFe := 0 })
    let s := s.when ageTrip (fun s => (s.supTrip k 1 (Word.ofN age) t).setSlotX k { s.slotX k with clrAge := 0 })
    let s := match frzTrip with
      | some rng => (s.supTrip k 2 (F32.ofDy rng) t).setSlotX k { s.slotX k with clrFrz := 0, pvTrip := x.pv }
      | none => s
    (s, feTrip || ageTrip || frzTrip.isSome)

-- the swatch

/-- The swatch of a cluster runs on a slot (R133). -/
def State.swatchOn (s : State) (k : Nat) : Bool :=
  let c := k / 32
  let st := s.fld (R.LC_SW_STAT c) F.LC_SW_STAT_STATE
  1 ≤ st && st ≤ 3 && (s.clusterX c).slot = k % 32
/-- The length of the injection (R137): a DOUBLET takes 2 × HOLD. -/
def State.swatchLen (s : State) (c : Nat) : Nat :=
  if s.fld (R.LC_SW_CFG c) F.LC_SW_CFG_TYPE = 1 then 2 * s.fld (R.LC_SW_HOLD c) F.LC_SW_HOLD_SAMPLES
  else s.fld (R.LC_SW_LEN c) F.LC_SW_LEN_SAMPLES
/-- The taps of the PRBS (R137), as bits of the register. -/
def prbsTaps (n : Nat) : Nat :=
  match n with
  | 7 => 0x60 | 8 => 0xB8 | 9 => 0x110 | 10 => 0x240 | 11 => 0x500 | 12 => 0xE08 | 13 => 0x1C80
  | 14 => 0x3802 | _ => 0x6000
/-- The parity of the low n bits. -/
def parity (n x : Nat) : Nat :=
  match n with
  | 0 => 0
  | m + 1 => (x % 2 + parity m (x / 2)) % 2
/-- One step of the PRBS register of an order (R137): toward the higher bits, the parity of the taps entering at
bit 0 (log 31). -/
def prbsStep (n reg : Nat) : Nat := (2 * reg + parity 15 (reg &&& prbsTaps n)) % 2 ^ n
/-- inc_k of the chirp (R137): f_k × P × 2^32 / 10^9 rounded to nearest, ties to even (log 31). -/
def chirpInc (f0 f1 : Dy) (k len p : Nat) : Nat :=
  let f := (f0.mul (Dy.ofInt len)).add ((f1.sub f0).mul (Dy.ofInt k))
  -- f / len × p × 2^32 / 10^9 with f = m × 2^e
  let num : Nat := f.m.natAbs * p * 2 ^ 32 * 2 ^ f.e.toNat
  let den : Nat := len * 1000000000 * 2 ^ (-f.e).toNat
  if den = 0 then 0
  else
    let q := num / den
    let r := num % den
    (if 2 * r > den then q + 1 else if 2 * r = den then q + q % 2 else q) % 2 ^ 32
/-- d(k) of R137 at an injected sample, with the PRBS register and phase as they stand at it. -/
def State.swatchD (s : State) (c k : Nat) : Dy :=
  let amp := F32.toDy (s.rd (R.LC_SW_AMP c))
  let x := s.clusterX c
  match s.fld (R.LC_SW_CFG c) F.LC_SW_CFG_TYPE with
  | 0 => amp
  | 1 => if k < s.fld (R.LC_SW_HOLD c) F.LC_SW_HOLD_SAMPLES then amp else amp.neg
  | 2 => if x.lfsr.testBit (s.fld (R.LC_SW_CFG c) F.LC_SW_CFG_ORDER - 1) then amp else amp.neg
  | _ => amp.mul (Dy.nearSine ⟨Config.chirp (Word.ofN x.phase), -60⟩ x.phase 20)
/-- Advance PRBS and chirp after injected sample k. -/
def State.swatchAdvance (s : State) (c k p : Nat) : State :=
  let x := s.clusterX c
  let hold := s.fld (R.LC_SW_HOLD c) F.LC_SW_HOLD_SAMPLES
  let n := s.fld (R.LC_SW_CFG c) F.LC_SW_CFG_ORDER
  let inc := chirpInc (F32.toDy (s.rd (R.LC_SW_F0 c))) (F32.toDy (s.rd (R.LC_SW_F1 c))) k (s.swatchLen c) p
  s.setClusterX c { x with
    lfsr := if hold ≠ 0 ∧ (k + 1) % hold = 0 then prbsStep n x.lfsr else x.lfsr
    phase := (x.phase + inc) % 2 ^ 32 }
/-- The window of a swatch closes (R139, R140, R344): one without an injected sample takes its number now. -/
def State.swatchWin (s : State) (c end_ lost : Nat) (first : Word) : State :=
  let x := s.clusterX c
  match x.win with
  | none => s
  | some w =>
    let s := s.setClusterX c { x with win := none }
    if w.trig.isSome then s.winClose (c / 8) w end_ lost first
    else
      let id := s.winId + 1
      { s with winId := id }.winClose (c / 8) { w with id := id, preAct := w.rows.length } end_ lost first
/-- The swatch ends: DONE or ABORTED with a cause (R135, R140). -/
def State.swatchEnd (s : State) (c state cause : Nat) : State :=
  let k := c * 32 + (s.clusterX c).slot
  let s := (s.setFld (R.LC_SW_STAT c) F.LC_SW_STAT_STATE state).setFld (R.LC_SW_STAT c) F.LC_SW_STAT_CAUSE cause
  let s := s.swatchWin c (if state = 4 then 0 else 2) 0 0
  s.setFld (R.LE_SUP_STAT k) F.LE_SUP_STAT_SWATCH 0
/-- Add a row to the window of a swatch (R139), or truncate a streaming window that has no room (R345). -/
def State.swatchRow (s : State) (c : Nat) (row : Row) : State :=
  match (s.clusterX c).win with
  | none => s
  | some w =>
    if s.winFull w then s.swatchWin c 1 (w.preAct + w.post - w.rows.length) (tagOf row.t)
    else
      let (s, w) := s.winRow (c / 8) w row
      s.setClusterX c { s.clusterX c with win := some w }
/-- The coefficients and TP fields of a slot, to see a change (R133 cause 12). -/
def State.lawSig (s : State) (k : Nat) : List Word :=
  ((List.range (s.fld (R.LE_CFG k) F.LE_CFG_NSTG + 1)).map (fun i =>
    (List.range 12).map (fun w => s.lawWord k i w))).flatten ++ (List.range 8).map (fun n => s.rd (R.LE_TP k n))
/-- The abort cause that a sample finds before it runs (R133, R140), 0 for none. -/
def State.swatchAbortCause (s : State) (k mode : Nat) : Nat :=
  let x := s.clusterX (k / 32)
  if x.due ≠ 0 then x.due
  else if s.stopped then 10
  else if s.mode ≠ 1 ∧ s.mode ≠ 2 then 9
  else if s.fld (R.LE_STAT k) F.LE_STAT_FCAUSE ≠ 0 then 7
  else if mode ≠ x.mode0 then 8
  else if mode = 2 ∧ s.lawSig k ≠ x.law0 then 12
  else 0
/-- Where the sample stands in the swatch (R135): none outside one, else (phase 1 PRE, 2 INJECT, 3 POST; index in the
phase). `t` is the release time of the sample. -/
def State.swatchPos (s : State) (k t : Nat) : Option (Nat × Nat) :=
  if s.swatchOn k && (s.clusterX (k / 32)).start ≤ t then
    let c := k / 32
    let n := (s.clusterX c).cnt
    let pre := s.fld (R.LC_SW_PRE c) F.LC_SW_PRE_SAMPLES
    let len := s.swatchLen c
    if n < pre then some (1, n) else if n < pre + len then some (2, n - pre) else some (3, n - pre - len)
  else none
/-- Record a counted sample of the swatch and advance its phase (R135, R139, R343). -/
def State.swatchCount (s : State) (k : Nat) (pos : Nat × Nat) (t : Nat) (sp pv out : Word) : State :=
  let c := k / 32
  let s := s.when (pos.1 = 2 ∧ pos.2 = 0) (fun s =>
    let s := s.wr (R.LC_SW_T0 c) (tagOf t)
    match (s.clusterX c).win with
    | none => s
    | some w =>
      let (s, w) := s.winTrig w t 4
      let (s, w) := s.winTell (c / 8) w
      s.setClusterX c { s.clusterX c with win := some w })
  let s := s.when (pos.1 = 2) (fun s => s.swatchAdvance c pos.2 (s.slotPeriod k))
  let step := match (s.clusterX c).win with
    | some w => w.stepPend
    | none => false
  let s := s.swatchRow c ⟨t, [sp, pv, out], false, step⟩
  let n := (s.clusterX c).cnt + 1
  let pre := s.fld (R.LC_SW_PRE c) F.LC_SW_PRE_SAMPLES
  let len := s.swatchLen c
  let s := (s.setClusterX c { s.clusterX c with cnt := n }).setFld (R.LC_SW_CNT c) F.LC_SW_CNT_SAMPLES n
  if n ≥ pre + len + s.fld (R.LC_SW_POST c) F.LC_SW_POST_SAMPLES then s.swatchEnd c 4 0
  else s.setFld (R.LC_SW_STAT c) F.LC_SW_STAT_STATE (if n < pre then 1 else if n < pre + len then 2 else 3)

-- the sample

/-- The effect time of an output that is written at once, or the wait for the frame or reload that carries it
(R102, R103). -/
def State.slotDelay (s : State) (k now t : Nat) : State :=
  let d := Word.ofN (min (now - t) (2 ^ 32 - 1))
  let s := s.wr (R.LE_LAST_DELAY k) d
  s.when ((s.rd (R.LE_MAX_DELAY k)).toNat < d.toNat) (fun s => s.wr (R.LE_MAX_DELAY k) d)
/-- The output of a sample has been applied: record when it takes effect (R103). -/
def State.slotEffect (s : State) (k now t : Nat) : State :=
  let a := R.LE_OUT_DST k
  let toWord := s.fld a F.LE_OUT_DST_KIND = 1 ∧ Ref.space (s.fld a F.LE_OUT_DST_REF) = 1
  if s.fld a F.LE_OUT_DST_KIND = 0 then s
  else if toWord ∨ s.fld a F.LE_OUT_DST_KIND = 2 then
    let x := s.slotX k
    let s := s.when x.wait.isSome (fun s => s.incr (R.LE_SUPERSEDED k))
    s.setSlotX k { s.slotX k with wait := some t }
  else s.slotDelay k now t

/-- The inputs of a sample: those of earlier members of its cascade are read now, the others were taken at its
release (R98). -/
def State.sampleIns (s : State) (k : Nat) (r : Ready) : List (Option Dy × Bool) :=
  (List.range 5).map (fun i => if s.slotEarly k i then s.slotInput k i else r.ins.getD i (none, false))
/-- The numbers of the five inputs: a NaN or infinity keeps the value of the previous executed sample (R84). -/
def State.sampleVals (s : State) (k : Nat) (r : Ready) : List Dy :=
  (s.sampleIns k r).zipIdx.map (fun p => match p.1.1 with
    | some d => d
    | none => (s.slotX k).prevIn.getD p.2 Dy.zero)
/-- B of a sample (R122): the consecutive samples with a NaN or infinite PV. -/
def State.sampleBad (s : State) (k : Nat) (r : Ready) : Nat :=
  if ((s.sampleIns k r).getD 1 (none, false)).1.isNone then min 255 (s.fld (R.LE_FB_AGE k) F.LE_FB_AGE_BADPV + 1) else 0
/-- The feedback age A of a sample (R122). -/
def State.sampleAge (s : State) (k : Nat) (r : Ready) : Nat := min 255 (max (s.pvAge k r.rel) (s.sampleBad k r))
/-- The operands of a sample with d added to SP (R85, R136). -/
def sampleOps (v : List Dy) (d : Dy) : SampleIn :=
  let x (i : Nat) : Dy := v.getD i Dy.zero
  let sp := (x 0).add d
  ⟨sp, x 1, x 2, x 3, x 4, sp.sub (x 1)⟩
/-- The clear conditions of the three detectors in a sample (R129). -/
def State.sampleClears (s : State) (k age : Nat) (x : SampleIn) : List Bool :=
  [x.err.abs.le (F32.toDy (s.rd (R.LE_FE_LIMIT k))), decide (age ≤ s.fld (R.LE_FB_AGE k) F.LE_FB_AGE_MAX),
    (F32.toDy (s.rd (R.LE_FRZ_BAND k))).le (x.pv.sub (s.slotX k).pvTrip).abs]
/-- The state in which the modes of the later members of a cascade are decided: with the re-engagements that their own
samples of this job reach, judged with SP as it stands (R99, R131; DEDUCED, log 211). -/
def State.cascAhead (s : State) (k rel : Nat) : State :=
  let later := (s.jobSlots (s.jobHead k)).filter (fun j =>
    s.fld (R.LE_CFG k) F.LE_CFG_CASC_POS < s.fld (R.LE_CFG j) F.LE_CFG_CASC_POS)
  s.each later (fun s j => match (s.slotX j).ready with
    | r :: _ => if r.rel = rel then
        s.supReengage j (s.sampleClears j (s.sampleAge j r) (sampleOps (s.sampleVals j r) Dy.zero)) else s
    | [] => s)

/-- What a sample adds for a swatch (R136): d at the setpoint or at the output, and whether the sample is counted. -/
structure Inject where
  pos : Option (Nat × Nat)
  atSp : Dy
  atOut : Dy
  deriving DecidableEq, Repr
/-- No injection. -/
def Inject.off : Inject := ⟨none, Dy.zero, Dy.zero⟩
/-- The injection of a sample of a running swatch (R135 to R137). -/
def State.inject (s : State) (k rel : Nat) : Inject :=
  let c := k / 32
  match s.swatchPos k rel with
  | none => Inject.off
  | some p =>
    let d := if p.1 = 2 then s.swatchD c p.2 else Dy.zero
    if s.bit (R.LC_SW_CFG c) F.LC_SW_CFG_POINT then ⟨some p, Dy.zero, d⟩ else ⟨some p, d, Dy.zero⟩

/-- An output of a mode within its limits: its value, whether a limit changed it, and whether OUT_HI is below OUT_LO. -/
structure Limited where
  y : Dy
  ch : Bool
  bad : Bool
  deriving DecidableEq, Repr
/-- The output of an effective mode with an injection, after the slot limits (R106) and, while a swatch counts the sample,
the clamp of R138; FALLOW is not limited (R104). -/
def State.outOf (s ahead : State) (k mode : Nat) (x : SampleIn) (law : LawOut) (j : Inject) : Limited :=
  let c := k / 32
  let y := s.modeOut ahead k mode x law
  if mode = 4 then ⟨y, false, false⟩
  else
    let y := if mode = 1 ∨ mode = 2 then y.add j.atOut else y
    let (z, ch, bad) := s.slotLimit k y
    if j.pos.isSome then
      let w := Dy.clamp z (F32.toDy (s.rd (R.LC_SW_OUT_LO c))) (F32.toDy (s.rd (R.LC_SW_OUT_HI c)))
      ⟨w, ch || !w.same z, bad⟩
    else ⟨z, ch, bad⟩

/-- The inputs, BAD_IN and the feedback age of a sample show (R83, R84, R122). -/
def State.sampleTake (s : State) (k now : Nat) (r : Ready) : State :=
  let raw := s.sampleIns k r
  let vals := s.sampleVals k r
  let b := s.sampleBad k r
  let age := s.sampleAge k r
  let s := s.when (raw.any (fun p => p.2)) (fun s => s.set1 (R.LE_STAT k) F.LE_STAT_BAD_IN)
  let s := s.when (raw.any (fun p => p.1.isNone)) (fun s =>
    s.raise 1 1 k (R.LE_STAT k) F.LE_STAT_BAD_IN (tagOf now))
  let s := s.setSlotX k { s.slotX k with prevIn := vals }
  (s.setFld (R.LE_FB_AGE k) F.LE_FB_AGE_BADPV b).setFld (R.LE_FB_AGE k) F.LE_FB_AGE_AGE age
/-- A law is written back (R91): its states and exponents, and its OVF, UNF and BAD_IN; each of OVF and UNF that rises
raises a WARN (R88, R96). -/
def State.lawBack (s : State) (k : Nat) (law : LawOut) (tag : Word) : State :=
  let f := R.LE_STG_FLAG k
  let s := s.storeStages k law.stages
  let s := s.wr f (s.rd f ||| Word.ofN (law.ovf + 256 * law.unf))
  let s := s.when (law.ovf ≠ 0) (fun s => s.raiseEdge 1 1 k (R.LE_STAT k) F.LE_STAT_OVF tag)
  let s := s.when (law.unf ≠ 0) (fun s => s.raiseEdge 1 1 k (R.LE_STAT k) F.LE_STAT_UNF tag)
  s.when law.bad (fun s => s.set1 (R.LE_STAT k) F.LE_STAT_BAD_IN)
/-- The law of a sample is written back in AUTO, and with the tracking of R106 and R107 outside it: y is the applied
output. -/
def State.lawKeep (s : State) (k m : Nat) (x : SampleIn) (law : LawOut) (y : Dy) (tag : Word) : State :=
  if s.slotTracks k m then
    let ts := s.fld (R.LE_CFG k) F.LE_CFG_TRK_STAGE
    let yt := if s.bit (R.LE_CFG k) F.LE_CFG_NOT_BUMPLESS then none else some (Law.yt (s.slotStages k) ts y)
    s.lawBack k (s.slotLaw k x (some ⟨ts, yt, y⟩)) tag
  else if m = 2 then s.lawBack k law tag
  else s
/-- MAN_OUT takes the last applied output on a transfer to MANUAL, unless it has been written since the previous sample
(R108). `x0` is the slot before the sample. -/
def State.manCopy (s : State) (k m : Nat) (x0 : SlotX) : State :=
  let eff := s.fld (R.LE_MODE k) F.LE_MODE_EFF
  let s := s.when (m = 1 ∧ (eff = 2 ∨ eff = 3 ∨ eff = 5 ∨ eff = 6) ∧ x0.manW = false)
    (fun s => s.wr (R.LE_MAN_OUT k) (F32.ofDy x0.last))
  s.setSlotX k { s.slotX k with manW := false }

/-- A sample that finds its swatch at an end: the causes that stand before it runs (R140), and the limit of R138. -/
def State.swatchSees (s : State) (k m0 : Nat) (v : List Dy) (r : Ready) : State :=
  let c := k / 32
  let s := s.when (s.swatchPos k r.rel).isSome (fun s => match s.swatchAbortCause k m0 with
    | 0 => s
    | cause => s.swatchEnd c 5 cause)
  let j := s.inject k r.rel
  let x := sampleOps v j.atSp
  let lim := j.pos.isSome && (s.outOf s k m0 x (s.slotLaw k x none) j).ch
  let s := s.when lim (fun s => s.set1 (R.LC_SW_STAT c) F.LC_SW_STAT_LIMITED)
  s.when (lim && s.bit (R.LC_SW_CFG c) F.LC_SW_CFG_ABORT_ON_LIMIT) (fun s => s.swatchEnd c 5 11)
/-- LE_FE_CNT is held at 0 in a sample of a masked swatch (R140). -/
def State.feMasked (s : State) (k : Nat) (j : Inject) : Bool :=
  s.bit (R.LC_SW_CFG (k / 32)) F.LC_SW_CFG_FE_MASK && (match j.pos with
    | some (p, _) => p ≠ 1
    | none => false)

/-- The effect of a sample from its mode on (R104 to R108, R125, R131, R135, R139): the output, the law that is written
back, the fields, and the row of a swatch. -/
def State.sampleOut (s : State) (k now : Nat) (r : Ready) (v : List Dy) (j : Inject) (x0 : SlotX) : State :=
  let x := sampleOps v j.atSp
  let law := s.slotLaw k x none
  let ahead := s.cascAhead k r.rel
  let m := ahead.effMode k
  let s := (s.manCopy k m x0).setFld (R.LE_MODE k) F.LE_MODE_EFF m
  let o := s.outOf ahead k m x law j
  let s := s.when (m ≠ 0 ∧ o.bad = true) (fun s => s.set1 (R.LE_STAT k) F.LE_STAT_BAD_IN)
  let s := s.lawKeep k m x law o.y (tagOf now)
  let s := (s.wr (R.LE_PV k) (F32.ofDy x.pv)).wr (R.LE_ERR k) (F32.ofDy x.err)
  let s := s.when (s.bit (R.LE_CFG k) F.LE_CFG_SP_TRACK && m ≠ 2 && m ≠ 0) (fun s => s.wr (R.LE_SP k) (F32.ofDy x.pv))
  let s := s.when (s.fld (R.LE_FRZ_CNT k) F.LE_FRZ_CNT_COUNT = 0) (fun s =>
    s.setSlotX k { s.slotX k with frzMin := o.y, frzMax := o.y })
  let s := s.when (m ≠ 0) (fun s => (s.slotApply k o.y (tagOf r.t)).slotEffect k now r.t)
  match j.pos with
  | some p => s.swatchCount k p r.t (F32.ofDy x.sp) (F32.ofDy x.pv) (F32.ofDy o.y)
  | none => s

/-- Evaluate a sample of a slot (R83 to R131, R135 to R140) at device time `now`. A sample during whose run a fallow
cause was set is supervised in the mode it started with, and its output and states are dropped (R105, R119). A member of a
cascade whose inner members return to AUTO while its own feedback is lost takes FB_ACTION in place of AUTO (R124). -/
def State.slotSample (s : State) (k now : Nat) (r : Ready) : State :=
  let x0 := s.slotX k
  let m0 := r.dead.getD (s.effMode k)
  let v := s.sampleVals k r
  let age := s.sampleAge k r
  let s := (s.sampleTake k now r).swatchSees k m0 v r
  let j := s.inject k r.rel
  let x := sampleOps v j.atSp
  let s := s.supReengage k (s.sampleClears k age x)
  let out := (s.outOf s k m0 x (s.slotLaw k x none) j).y
  let next := (s.cascAhead k r.rel).effMode k
  let (s, trip) := s.supDetect k m0 next x out age (s.feMasked k j) (tagOf r.t) (tagOf now)
  let s := s.when (trip && j.pos.isSome) (fun s => s.swatchEnd (k / 32) 5 6)
  match r.dead with
  | some _ => s
  | none => s.sampleOut k now r v (if trip then Inject.off else j) x0

/-- A residue mismatch in a sample (R92): the retry, and the slot fault when the re-execution mismatches too. -/
def State.slotResidue (s : State) (k : Nat) (p0 : Nat) (again : Bool) (tag : Word) : State :=
  let s := (s.set1 (R.LE_STAT k) F.LE_STAT_RES_RETRY).incr (R.LC_RES_RETRY_CNT (k / 32))
  let s := s.set1 (R.LC_STAT (k / 32)) F.LC_STAT_RES_RETRY
  let s := s.eventU false 0x1002 0 1 k [Word.ofN p0]
  s.when again (fun s => (s.set1 (R.LE_STAT k) F.LE_STAT_RES_FAULT).slotFault k 1 tag)

/-- Count one skipped sample of a slot (R111). -/
def State.slotSkip (s : State) (k : Nat) (tag : Word) : State :=
  let s := (s.incr (R.LE_SKIP_CNT k)).incr (R.LC_SKIP_CNT (k / 32))
  let s := s.incrSat (R.LE_OVR k) F.LE_OVR_RUN
  let lim := s.fld (R.LE_OVR k) F.LE_OVR_LIMIT
  if lim ≠ 0 ∧ s.fld (R.LE_OVR k) F.LE_OVR_RUN = lim then
    (s.set1 (R.LE_STAT k) F.LE_STAT_OVR_FAULT).slotFault k 2 tag
  else s

/-- No field-synchronous sample of a die is left: the die reports Phase L done (R70). -/
def State.dieDone (s : State) (d : Nat) : Bool :=
  s.usedSlots.all (fun k => k / 1024 ≠ d || !s.bit (R.LE_CFG k) F.LE_CFG_TIMING || (s.slotX k).ready = [])
/-- The last sample of a die in Phase L gives the offset of its report (R70). -/
def State.dieReport (s : State) (k off : Nat) : State :=
  s.when (s.bit (R.LE_CFG k) F.LE_CFG_TIMING && s.cyc.lOpen && s.dieDone (k / 1024))
    (fun s => s.maxFld R.TM_PH_MAX_L F.TM_PH_MAX_L_OFFSET off)
/-- The oldest sample of a slot leaves its list. -/
def State.readyPop (s : State) (k : Nat) : State :=
  s.setSlotX k { s.slotX k with ready := (s.slotX k).ready.drop 1 }
/-- The engine goes on after a member of a job (R97): with the next member of the cascade, or it is free. -/
def State.engineStep (s : State) (h rel now : Nat) : State :=
  let c := h / 32
  let more := (s.jobSlots h).any (fun j => match (s.slotX j).ready with
    | r :: _ => r.rel = rel
    | [] => false)
  s.setClusterX c { s.clusterX c with run := if more then some (h, rel) else none, free := now }
/-- What decides the mode of a slot is set to a note of it (R105). -/
def State.setModeOf (s : State) (e : Nat × Nat × Nat × Bool) : State :=
  let (k, req, fc, flt) := e
  let s := (s.setFld (R.LE_MODE k) F.LE_MODE_REQ req).setFld (R.LE_STAT k) F.LE_STAT_FCAUSE fc
  s.setSlotX k { s.slotX k with fault := flt }
/-- What came during a sample stands again after it, but for what the sample itself changed: `o` is the note of the start,
`b` what stood at the end of the run and `a` what the sample leaves. -/
def modeMerge (o b a : Nat × Nat × Nat × Bool) : Nat × Nat × Nat × Bool :=
  let ch := o.2.2.1 ^^^ a.2.2.1
  (o.1, if a.2.1 = o.2.1 then b.2.1 else a.2.1, (b.2.2.1 &&& (31 ^^^ ch)) ||| (a.2.2.1 &&& ch),
    if a.2.2.2 = o.2.2.2 then b.2.2.2 else a.2.2.2)
/-- A sample runs with the modes that stood when it started (R120). -/
def State.withModes (s : State) (keep : List (Nat × Nat × Nat × Bool)) (f : State → State) : State :=
  let was := keep.map (fun e => s.modeOf e.1)
  let t := f (s.each keep State.setModeOf)
  t.each ((keep.zip was).map (fun e => modeMerge e.1 e.2 (t.modeOf e.1.1))) State.setModeOf

/-- The sample that the engine of the cluster runs completes, when it is the oldest of the slot (R92, R100, R102, R111,
R112). A sample that fails, or that a fallow cause has dropped, does not count as completed; a slot in OFF takes no sample for
records and capture rows (R319, R346). -/
def State.sampleComplete (s : State) (k off : Nat) (mismatch : Option (Nat × Bool)) : State :=
  match s.engineJob (k / 32) with
  | none => s
  | some (h, j, r) =>
    if j ≠ k ∨ s.slotRuns k = false then s
    else
      let now := s.now off
      let tag := tagOf now
      let s := match mismatch with
        | some (p0, again) => s.slotResidue k p0 again tag
        | none => s
      let failed := match mismatch with
        | some (_, again) => again
        | none => false
      let done := !failed && r.dead.isNone
      let asleep : Bool := (s.each r.keep State.setModeOf).effMode k = 0
      let new := r.old.map (fun e => (e.1, Smap.get (fun _ => (0 : Word)) s.lawMem e.1))
      let s := s.when (!failed) (fun s => (s.withModes r.keep (fun s => (s.setLaws r.old).slotSample k now r)).setLaws new)
      let s := s.recSlot k r.t (done && !asleep)
      let s := s.when (done && !asleep) (fun s => s.ceSample k r.t)
      let s := s.when done (fun s => s.setFld (R.LE_OVR k) F.LE_OVR_RUN 0)
      let s := s.when (done && now > r.deadline) (fun s => s.set1 (R.LE_STAT k) F.LE_STAT_LATE)
      ((s.readyPop k).engineStep h r.rel now).dieReport k off

-- the commands

/-- The job of a slot has not started by its deadline (R111, R112): at `now` the deadline has come, and the engine runs
another job or none. -/
def State.jobSkips (s : State) (k now : Nat) (r : Ready) : Bool :=
  r.deadline ≤ now && (match s.engineJob (k / 32) with
    | some (h, _, q) => h ≠ s.jobHead k || q.rel ≠ r.rel
    | none => true)
/-- SAMPLE_SKIP (R111): the oldest ready sample of the slot is skipped when it has not started by its deadline, with those
of the other members of its cascade (R97). -/
def execSampleSkip (k : SlotIx) (off : Nat) (s : State) : Host.Outcome State Fault Refusal :=
  match (s.slotX k).ready with
  | [] => .next s
  | r :: _ =>
    if s.slotRuns k && s.jobSkips k (s.now off) r then
      let js := (s.jobSlots (s.jobHead k)).filter (fun j => match (s.slotX j).ready with
        | q :: _ => q.rel = r.rel
        | [] => false)
      .next ((s.each js (fun s j => ((s.readyPop j).slotSkip j (s.tag off)).recSlot j r.t false)).dieReport k off)
    else .next s

end Sys2Proof.Machine
end

