-- ==== Sys2Proof/Machine/Frames.lean ====
section
/-!
DEFINITION. Rings, stations, and where the words of a train stand in its frames (R354, R355, R356, R359, R363).
-/
namespace Sys2Proof.Machine

/-- The configured stations of a ring, as global numbers, and the used rings (R355). -/
def State.ringUsed (s : State) (r : Nat) : Bool := s.bit (R.FP_RING_CFG r) F.FP_RING_CFG_USED
def State.usedRings (s : State) : List Nat := (List.range 4).filter s.ringUsed
def State.stnUsed (s : State) (k : Nat) : Bool := s.bit (R.FP_S_LEN k) F.FP_S_LEN_USED
def State.ringStns (s : State) (r : Nat) : List Nat :=
  ((List.range 126).map (fun i => 126 * r + i)).filter s.stnUsed
def State.usedStns (s : State) : List Nat := (s.usedRings.map s.ringStns).flatten
/-- The output words of a station's segment. -/
def State.stnOut (s : State) (k : Nat) : List Nat :=
  (List.range (s.fld (R.FP_S_LEN k) F.FP_S_LEN_OLEN / 4)).map
    (fun i => s.fld (R.FP_S_MAP k) F.FP_S_MAP_OUT_BASE + i)
/-- The bytes of a station's segment (R359, R363). -/
def State.segBytes (s : State) (k : Nat) : Nat :=
  20 + s.fld (R.FP_S_LEN k) F.FP_S_LEN_OLEN + s.fld (R.FP_S_LEN k) F.FP_S_LEN_ILEN
/-- The time of a byte on a ring, in tenths of a nanosecond (R354). -/
def State.byteTime (s : State) (r : Nat) : Nat :=
  match s.fld (R.FP_CFG (2 * r)) F.FP_CFG_SPEED with
  | 0 => 80
  | 1 => 32
  | _ => 8
/-- The next segment stands in the last frame of the train if the frame then holds at most 1,476 segment bytes, and opens a
frame of its own otherwise (R359; log 233). Each entry is a station with its bytes. -/
def framePut (fs : List (List (Nat × Nat))) (g : Nat × Nat) : List (List (Nat × Nat)) :=
  match fs.getLast? with
  | some f => if (f.map Prod.snd).sum + g.2 ≤ 1476 then fs.dropLast ++ [f ++ [g]] else fs ++ [[g]]
  | none => [[g]]
/-- The frames that the segments of a ring fill, in order of stations. -/
def State.trainFrames (s : State) (r : Nat) : List (List (Nat × Nat)) :=
  ((s.ringStns r).map (fun k => (k, s.segBytes k))).foldl framePut []
/-- Where the segments of a frame begin, from a byte on. -/
def segsFrom (pos : Nat) : List (Nat × Nat) → List (Nat × Nat)
  | [] => []
  | g :: t => (g.1, pos) :: segsFrom (pos + g.2) t
/-- Where the segments of a train begin, in bytes from its start (R363): the preamble, the MAC header and the Mbaxis header
precede a frame's first segment, and a frame has 22 bytes of them at least (R358). -/
def framesFrom (pos : Nat) : List (List (Nat × Nat)) → List (Nat × Nat)
  | [] => []
  | f :: t => segsFrom (pos + 46) f ++ framesFrom (pos + 62 + max 22 (f.map Prod.snd).sum) t
/-- The stations of a ring whose segment carries an output word, with the byte of the train at which the word begins. -/
def State.wordPlaces (s : State) (r w : Nat) : List (Nat × Nat) :=
  (framesFrom 0 (s.trainFrames r)).filterMap (fun e =>
    match (s.stnOut e.1).findIdx? (fun v => v = w) with
    | some i => some (e.1, e.2 + 8 + 4 * i)
    | none => none)

end Sys2Proof.Machine
end

