-- ==== Sys2Proof/Machine/Plan.lean ====
section
/-!
DEFINITION. The plans of an axis (R251 to R253): the trajectory of a cycle (R248), what a plan must keep, and the planner. A
plan is a free value that R251 bounds; where the free value breaks a bound, the planner's own plan stands (log 20).
-/
namespace Sys2Proof.Machine

-- the trajectory

/-- One cycle of the trajectory (R248): each line exact, then rounded to nearest with ties to even. -/
def Traj.step (x : Traj) : Traj :=
  ⟨Int.rneDiv (6 * (x.p * 2 ^ 32 + x.v * 2 ^ 16) + 3 * x.a * 2 ^ 8 + x.j) (6 * 2 ^ 32),
    Int.rneDiv (2 * (x.v * 2 ^ 16 + x.a * 2 ^ 8) + x.j) (2 * 2 ^ 16),
    Int.rneDiv (x.a * 2 ^ 8 + x.j) (2 ^ 8), x.j⟩
/-- The jerks of a plan, cycle by cycle. -/
def planJerks (segs : List PlanSeg) : List Int := (segs.map (fun g => List.replicate g.cycles g.jerk)).flatten
/-- The states that a plan passes from a state, the state after each cycle. -/
def planStates (x : Traj) (js : List Int) : List Traj :=
  match js with
  | [] => []
  | j :: t => let y := Traj.step { x with j := j }; y :: planStates y t
/-- The state in which a plan ends. -/
def planEnd (x : Traj) (segs : List PlanSeg) : Traj := ((planStates x (planJerks segs)).getLast?).getD x
/-- The state from which a query plans. -/
def planFrom (q : PlanQuery) : Traj := ⟨q.p, q.v, q.a, 0⟩

-- changes of velocity, in counts and cycles

/-- The larger of two. -/
def Rat.top (x y : Rat) : Rat := if x ≤ y then y else x
/-- The magnitude. -/
def Rat.mag (x : Rat) : Rat := if x < 0 then -x else x
/-- A square root, to 2^-32. -/
def Rat.root (x : Rat) : Rat := mkRat (Nat.sqrt (x * 2 ^ 64).floor.toNat) (2 ^ 32)
/-- The fields of a query as numbers. -/
def planPos (q : PlanQuery) : Rat := mkRat q.p (2 ^ 16)
def planVel (q : PlanQuery) : Rat := mkRat q.v (2 ^ 32)
def planAcc (q : PlanQuery) : Rat := mkRat q.a (2 ^ 40)
def planDist (q : PlanQuery) : Rat := mkRat (q.goal - q.p) (2 ^ 16)
def planVTop (q : PlanQuery) : Rat := mkRat q.vmax (2 ^ 32)
def planATop (q : PlanQuery) : Rat := mkRat q.amax (2 ^ 40)
def planDTop (q : PlanQuery) : Rat := mkRat q.dmax (2 ^ 40)
def planJTop (q : PlanQuery) : Rat := mkRat q.jmax (2 ^ 48)

/-- The durations of the three phases of a change of velocity: to the peak acceleration, at it, and back to 0. -/
structure Ramp3 where
  n1 : Rat
  n2 : Rat
  n3 : Rat
  deriving DecidableEq, Repr
/-- The time-optimal change from velocity v0 with acceleration a0 to velocity v1 at acceleration 0, within am and jm. -/
def rampBest (v0 a0 v1 am jm : Rat) : Ramp3 :=
  let s : Rat := if a0 * Rat.mag a0 / (2 * jm) ≤ v1 - v0 then 1 else -1
  let dv := s * (v1 - v0)
  let b := s * a0
  let top := Rat.root (jm * dv + b * b / 2)
  if top ≤ am then ⟨(top - b) / jm, 0, top / jm⟩
  else
    let t1 := Rat.mag (am - b) / jm
    let t3 := am / jm
    ⟨t1, Rat.top 0 ((dv - (b + am) / 2 * t1 - am / 2 * t3) / am), t3⟩
/-- Whole cycles of a duration, rounded up (R251); the rounding of the limits (R249) is no part of it. -/
def cyclesOf (t : Rat) : Rat := (t - 1 / 1024).ceil
/-- The same change in whole cycles. -/
def Ramp3.whole (r : Ramp3) : Ramp3 := ⟨Rat.top 1 (cyclesOf r.n1), Rat.top 0 (cyclesOf r.n2), Rat.top 1 (cyclesOf r.n3)⟩
/-- The peak acceleration that makes the change in given durations. -/
def Ramp3.peak (r : Ramp3) (v0 a0 v1 : Rat) : Rat := (v1 - v0 - a0 * r.n1 / 2) / (r.n1 / 2 + r.n2 + r.n3 / 2)
/-- The change in given durations keeps within a jerk, and within an acceleration that the first one may exceed (R251). -/
def Ramp3.fits (r : Ramp3) (v0 a0 v1 am jm : Rat) : Bool :=
  let a := r.peak v0 a0 v1
  Rat.mag (a - a0) ≤ jm * r.n1 && Rat.mag a ≤ jm * r.n3 && Rat.mag a ≤ Rat.top am (Rat.mag a0)
/-- Durations with more and more cycles for the first and the last phase, where the least whole ones ask for more jerk than J:
up to 8 cycles in all, and from then on 16, 32 and so on in each. -/
def Ramp3.tries (r : Ramp3) : List Ramp3 :=
  ((List.range 9).map (fun e => (List.range (e + 1)).map (fun i =>
    (⟨r.n1 + (e - i : Nat), r.n2, r.n3 + (i : Nat)⟩ : Ramp3)))).flatten ++
    (List.range 24).map (fun k => ⟨r.n1 + (2 ^ (k + 4) : Nat), r.n2, r.n3 + (2 ^ (k + 4) : Nat)⟩)
/-- The first of them that keeps the limits. -/
def Ramp3.fit (r : Ramp3) (v0 a0 v1 am jm : Rat) : Ramp3 := (r.tries.find? (fun r => r.fits v0 a0 v1 am jm)).getD r
/-- The way that the change takes. -/
def Ramp3.way (r : Ramp3) (v0 a0 v1 : Rat) : Rat :=
  let a := r.peak v0 a0 v1
  let u1 := v0 + (a0 + a) / 2 * r.n1
  let u2 := u1 + a * r.n2
  v0 * r.n1 + a0 * r.n1 * r.n1 / 3 + a * r.n1 * r.n1 / 6 + u1 * r.n2 + a * r.n2 * r.n2 / 2 + u2 * r.n3 + a * r.n3 * r.n3 / 3
/-- How long it takes. -/
def Ramp3.time (r : Ramp3) : Rat := r.n1 + r.n2 + r.n3
/-- A phase of constant jerk, of a whole number of cycles: the jerk in whole units of the acceleration (R248), toward 0. -/
def segOf (j n : Rat) : List PlanSeg :=
  let k : Int := (Rat.mag j * 2 ^ 40).floor * 2 ^ 8
  if n ≤ 0 then [] else [⟨if j < 0 then -k else k, n.ceil.toNat⟩]
/-- The segments of the change. -/
def Ramp3.segs (r : Ramp3) (v0 a0 v1 : Rat) : List PlanSeg :=
  let a := r.peak v0 a0 v1
  segOf ((a - a0) / r.n1) r.n1 ++ segOf 0 r.n2 ++ segOf (-a / r.n3) r.n3

-- stops

/-- The stop from the state of a query at a deceleration, in whole cycles. -/
def planStopRamp (q : PlanQuery) (d : Rat) : Ramp3 :=
  if q.v = 0 ∧ q.a = 0 then ⟨0, 0, 0⟩
  else (rampBest (planVel q) (planAcc q) 0 d (planJTop q)).whole.fit (planVel q) (planAcc q) 0 d (planJTop q)
/-- The goal can be reached without reversing at a deceleration (R252). -/
def planReach (q : PlanQuery) (d : Rat) : Bool :=
  let w := (planStopRamp q d).way (planVel q) (planAcc q) 0
  (0 ≤ (planDist q) && 0 ≤ q.v && w ≤ (planDist q)) || ((planDist q) ≤ 0 && q.v ≤ 0 && (planDist q) ≤ w)
/-- Halve an interval n times: the upper end is always one for which a test holds. -/
def halve (test : Rat → Bool) : Nat → Rat → Rat → Rat
  | 0, _, hi => hi
  | n + 1, lo, hi => let m := (lo + hi) / 2; if test m then halve test n lo m else halve test n m hi
/-- The deceleration of a plan: DMAX, and for a REPLAN from which the goal is not reached at DMAX what is needed (R253). -/
def planDecel (q : PlanQuery) : Rat :=
  let top := (planDTop q) * (2 : Rat) ^ 40
  if !q.replan || q.two || planReach q (planDTop q) || !planReach q top then (planDTop q) else halve (planReach q) 80 (planDTop q) top
/-- A REPLAN that would overshoot where the running plan does not (R253): even the needed deceleration is beyond J. -/
def planStuck (q : PlanQuery) : Bool := q.replan && !q.two && !planReach q (planDecel q)
/-- The legs of a plan (R251, R252). -/
def planLegs (q : PlanQuery) : Nat := if q.stop || planReach q (planDecel q) then 1 else 2

-- the planner

/-- Where segments from a velocity and an acceleration end, in counts. -/
def segsWay (v a : Rat) (g : List PlanSeg) : Rat := mkRat (planEnd ⟨0, (v * 2 ^ 32).floor, (a * 2 ^ 40).floor, 0⟩ g).p (2 ^ 16)
/-- Take what the rounding of each cycle (R248) leaves of the distance into the target, n times, until the end is within half
a count of it. -/
def legTune (v a dist : Rat) (make : Rat → List PlanSeg) : Nat → Rat → List PlanSeg
  | 0, x => make x
  | n + 1, x =>
    let g := make x
    let e := dist - segsWay v a g
    if Rat.mag e ≤ 1 / 2 then g else legTune v a dist make n (x + e)
/-- A leg to a goal at a distance in the direction of travel: its segments, and the duration of the time-optimal profile
(R251). The cruise velocity is lowered until the whole cycles end at the goal, with the first durations that keep the limits; none
where no durations do. -/
def legOf (v a dist vm am dm jm : Rat) : Option (List PlanSeg) × Rat :=
  let up (c : Rat) : Ramp3 := rampBest v a c (if v ≤ c then am else dm) jm
  let dn (c : Rat) : Ramp3 := rampBest c 0 0 dm jm
  let way (c : Rat) : Rat := (up c).way v a c + (dn c).way c 0 0
  let full := way vm ≤ dist
  let c := if full then vm else vm - halve (fun d => way (vm - d) ≤ dist) 64 0 vm
  let cruise := if full then (dist - way vm) / vm else 0
  let q := (dn c).whole
  let n := Rat.top 0 (cyclesOf cruise)
  let total (r : Ramp3) (x : Rat) : Rat := r.way v a x + x * n + q.way x 0 0
  let speed (r : Ramp3) (d : Rat) : Rat := (d - total r 0) / (total r 1 - total r 0)
  let make (r : Ramp3) (d : Rat) : List PlanSeg :=
    let x := speed r d
    r.segs v a x ++ segOf 0 n ++ q.segs x 0 0
  let good (r : Ramp3) : Bool :=
    let x := speed r dist
    0 ≤ x && x ≤ vm && r.fits v a x (if x < v then dm else am) jm && q.fits x 0 0 dm jm
  (((up c).whole.tries.find? good).map (fun r => legTune v a dist (make r) 3 dist), (up c).time + cruise + (dn c).time)
/-- A leg in either direction. -/
def legTo (v a dist vm am dm jm : Rat) : Option (List PlanSeg) × Rat :=
  if dist < 0 then
    let (g, t) := legOf (-v) (-a) (-dist) vm am dm jm
    (g.map (fun g => g.map (fun x => ⟨-x.jerk, x.cycles⟩)), t)
  else legOf v a dist vm am dm jm
/-- The planner's plan, with the duration of the time-optimal profile in cycles (R251, R252). Where no whole cycles of one leg keep
the limits, the axis comes to rest and goes to its goal from there (log 20). -/
def planOwn (q : PlanQuery) : List (List PlanSeg) × Rat :=
  let d := (planDecel q)
  let stop := (planStopRamp q d).segs (planVel q) (planAcc q) 0
  let best := rampBest (planVel q) (planAcc q) 0 d (planJTop q)
  let rest := (planEnd (planFrom q) stop).p
  let (back, _) := legTo 0 0 (mkRat (q.goal - rest) (2 ^ 16)) (planVTop q) (planATop q) d (planJTop q)
  let two := [stop, back.getD []]
  if q.stop then ([stop], best.time)
  else if (planLegs q) = 1 then
    let (g, t) := legTo (planVel q) (planAcc q) (planDist q) (planVTop q) (planATop q) d (planJTop q)
    ((g.map (fun g => [g])).getD two, t)
  else
    let (_, t) := legTo 0 0 ((planDist q) - best.way (planVel q) (planAcc q) 0) (planVTop q) (planATop q) d (planJTop q)
    (two, best.time + t)

-- the bounds

/-- One cycle of a plan keeps the limits of R251 between two states. -/
def planCycleOk (q : PlanQuery) (x y : Traj) : Bool :=
  let rising : Bool := y.v.natAbs > x.v.natAbs
  let d := ((planDecel q) * 2 ^ 40).ceil
  decide ((y.v.natAbs : Int) ≤ max q.vmax q.v.natAbs) &&
    decide ((y.a.natAbs : Int) ≤ max (if rising then q.amax else d) q.a.natAbs) &&
    decide ((y.j.natAbs : Int) ≤ q.jmax)
/-- A leg ends at rest, to 2^-16 counts per cycle and 2^-24 counts per cycle² (log 20). -/
def Traj.rests (x : Traj) : Bool := decide (x.v.natAbs ≤ 2 ^ 16) && decide (x.a.natAbs ≤ 2 ^ 16)
/-- The bounds that R251 to R253 set a plan: its legs, at most seven segments in each, the limits in every cycle, each leg
ending at rest, the first of two without a reversal, an end within one count of the goal, and at most 7 cycles per leg
above the optimum. -/
def planOk (q : PlanQuery) (legs : List (List PlanSeg)) : Bool :=
  let x := (planFrom q)
  let ys := planStates x (planJerks legs.flatten)
  let one := planStates x (planJerks (legs.headD []))
  decide (legs.length = (planLegs q)) && legs.all (fun g => decide (g.length ≤ 7)) &&
    (((x :: ys).zip ys).all (fun p => planCycleOk q p.1 p.2)) &&
    ((one.getLast?).getD x).rests && ((ys.getLast?).getD x).rests &&
    ((planLegs q) = 1 || one.all (fun y => decide (0 ≤ y.v * q.v) || decide (y.v.natAbs ≤ 2 ^ 16))) &&
    (q.stop || decide ((((ys.getLast?).getD x).p - q.goal).natAbs ≤ 65536)) &&
    decide ((ys.length : Rat) ≤ (planOwn q).2 + 7 * legs.length)
/-- The plan of a query: the free one within the bounds, else the planner's own (log 20). -/
def planFor (q : PlanQuery) : List (List PlanSeg) := if planOk q (Config.plan q) then Config.plan q else (planOwn q).1

end Sys2Proof.Machine
end

