-- ==== Sys2Proof/Machine/Pwm.lean ====
section
/-!
DEFINITION. PWM pairs beyond their commit: reloads and zones (R276, R278, R280, R284), transitions and dead time
(R272, R281, R282), forcing, the pad-ring latch and ownership (R285 to R288), delay lines (R289, R290), and the
filters and comparators of the SDI channels (R294 to R297).
-/
namespace Sys2Proof.Machine

/-- A pair is used, and its shadows and commits are not a stepper's (R288). -/
def State.pwOwn (s : State) (p : Nat) : Bool :=
  s.bit (R.PW_CFG p) F.PW_CFG_USED && !s.bit (R.PW_STAT p) F.PW_STAT_STEPPER
/-- The pins of a pair show its fallow pattern: forced, latched, or not the owner's (R285 to R287). -/
def State.pwPinned (s : State) (p : Nat) : Bool :=
  s.bit (R.PW_STAT p) F.PW_STAT_FORCED || s.bit (R.PW_STAT p) F.PW_STAT_NOT_OWNER || (s.pairX p).latch
/-- The axis drives a local stepper. -/
def State.axStepper (s : State) (a : Nat) : Bool := s.fld (R.AX_CFG a) F.AX_CFG_OUT = 2
/-- The pairs of a stepper's group (R247). -/
def State.axPairs (s : State) (a : Nat) : List Nat :=
  (List.range 4).map (fun i => a / 8 * 12 + 4 * s.fld (R.AX_CFG a) F.AX_CFG_GROUP + i)
/-- The STEPPER axis that drives a pair (R247, R288). -/
def State.pairAxis (s : State) (p : Nat) : Option Nat :=
  (s.usedUnits 128 R.AX_CFG).find? (fun a => a / 8 = p / 12 && s.axStepper a && s.fld (R.AX_CFG a) F.AX_CFG_GROUP = p % 12 / 4)
/-- The fallow pattern: the high side on, the low side on (R285). -/
def State.pwPattern (s : State) (p : Nat) : Bool × Bool :=
  let f := s.fld (R.PW_CFG p) F.PW_CFG_FALLOW
  (f = 2, f = 1)
/-- Drive the fallow pattern (R285): what turns off does so now; what turns on does so now if its complement was off, else when
DT_MAX has passed. -/
def State.pwDrive (s : State) (p : Nat) : State :=
  let x := s.pairX p
  let (h, l) := s.pwPattern p
  let hNow : Bool := h && (x.hi || !x.lo)
  let lNow : Bool := l && (x.lo || !x.hi)
  s.setPairX p { x with
    hi := hNow, lo := lNow, wait := if h && !hNow then some true else if l && !lNow then some false else none }
/-- Force the fallow pattern for a cause (R285). A pair that already shows its pattern changes nothing. -/
def State.pwForce (s : State) (p cause : Nat) : State :=
  if !s.bit (R.PW_CFG p) F.PW_CFG_USED then s
  else
  let s := s.setPairX p { s.pairX p with holds := (s.pairX p).holds ||| 2 ^ cause, resume := false }
  (if s.pwPinned p then s else s.pwDrive p).set1 (R.PW_STAT p) F.PW_STAT_FORCED
/-- A cause of the forcing ends: without another, the pair resumes at its next period start (R285). -/
def State.pwRelease (s : State) (p cause : Nat) : State :=
  let x := s.pairX p
  let left := x.holds &&& (15 ^^^ 2 ^ cause)
  s.setPairX p { x with
    holds := left, resume := x.resume || (s.bit (R.PW_STAT p) F.PW_STAT_FORCED && x.holds ≠ 0 && left = 0) }
/-- The pattern stands on the pins at once: a pair that is loaded or not owned (R287, R512). -/
def State.pwShow (s : State) (p : Nat) : State :=
  let (h, l) := s.pwPattern p
  s.setPairX p { s.pairX p with hi := h, lo := l, wait := none }
/-- The pad-ring latch of a fence (R286): what turns off does so now, and what turns on does so after the delay of the pad
ring. A pair that another path has forced before keeps what that path does (R44). -/
def State.pwLatch (s : State) (p : Nat) : State :=
  let x := s.pairX p
  if s.pwPinned p then s.setPairX p { x with latch := true }
  else
    let (h, l) := s.pwPattern p
    let w := if h && !x.hi then some true else if l && !x.lo then some false else none
    s.setPairX p { x with hi := h && x.hi, lo := l && x.lo, wait := w, latch := true }
/-- Both predictions are DT_MAX (R282). -/
def State.pwDtMax (s : State) (p : Nat) : State :=
  let d := s.fld (R.PW_DT p) F.PW_DT_DT_MAX
  (s.wr (R.PW_DT_RISE p) (Word.ofN d)).wr (R.PW_DT_FALL p) (Word.ofN d)

-- reloads

/-- Slots whose fraction the loaded set carries take effect (R103). -/
def State.pwSlotEffect (s : State) (p now : Nat) : State :=
  let ks := (s.slots.filter (fun e => e.1 / 256 = p / 12 && e.2.wait.isSome &&
    s.fld (R.LE_OUT_DST e.1) F.LE_OUT_DST_KIND = 2 &&
    s.fld (R.LE_OUT_DST e.1) F.LE_OUT_DST_PAIR = p % 12)).map (fun e => e.1)
  s.each ks (fun s k => match (s.slotX k).wait with
    | some t => (s.setSlotX k { s.slotX k with wait := none }).slotDelay k now t
    | none => s)
/-- The on-time D of the loaded set with the clamp of R276. -/
def State.pwLoaded (s : State) (p : Nat) : Nat :=
  let x := (s.pairX p).cur
  min (s.pwOn p x) x.per
/-- The level of a gate output at its ball (R273): its side is on, in the polarity of POL_H or POL_L; none while the ball is
high-impedance, until the image has been loaded (R524). -/
def State.gateBall (s : State) (p : Nat) (high : Bool) : Option Bool :=
  if !s.boot.up || !s.bit (R.PW_CFG p) F.PW_CFG_USED then none
  else if high then some ((s.pairX p).hi != s.bit (R.PW_CFG p) F.PW_CFG_POL_H)
  else some ((s.pairX p).lo != s.bit (R.PW_CFG p) F.PW_CFG_POL_L)
/-- Load the pending set (R276 to R278): one that is committed at the instant of the reload waits for the next, and the set
committed before it, if it still waits, loads: a fraction that stands in both takes effect (R103). -/
def State.pwLoad (s : State) (p now : Nat) : State :=
  let x := s.pairX p
  let s := match x.pend with
    | some c =>
      if x.pendAt = tagOf now then
        match x.earlier with
        | some e => (s.setPairX p { x with cur := e, earlier := none }).when (e.duty = c.duty) (fun s => s.pwSlotEffect p now)
        | none => s
      else
      ((s.setPairX p { x with cur := c, pend := none, earlier := none }).setFld
        (R.PW_STAT p) F.PW_STAT_PENDING 0).pwSlotEffect p now
    | none => s
  let c := (s.pairX p).cur
  if c.per = 0 then s
  else
    let above : Bool := s.pwOn p c > c.per
    let was := (s.pairX p).clamped
    let s := s.setPairX p { s.pairX p with clamped := above }
    let s := s.when above (fun s => s.set1 (R.PW_STAT p) F.PW_STAT_DUTY_CLAMP)
    let s := s.when (above && !was) (fun s =>
      s.statusEvent 1 6 p (R.PW_STAT p) F.PW_STAT_DUTY_CLAMP.mask (tagOf now))
    (s.wr (R.PW_ACT_PER p) (Word.ofN c.per)).wr (R.PW_RELOAD_T p) (tagOf now)
/-- The zone of a period (R284) from D, P, d_r, d_f and PW_MIN; a COT pair has zones 1 to 3. -/
def pwZone (cot : Bool) (d p dr df m : Nat) : Nat :=
  if d ≤ dr then 3
  else if d < dr + m then 2
  else if cot then 1
  else if p ≤ d + df then 5
  else if p < d + df + m then 4
  else 1
/-- The on-time that a zone gives (R284): D, D', 0 or P. -/
def pwZoneOn (zone : Nat) (stretch : Bool) (d p dr df m : Nat) : Nat :=
  match zone with
  | 1 => d
  | 2 => if stretch then m + dr else 0
  | 3 => 0
  | 4 => if stretch then p - m - df else p
  | _ => p
/-- Length of the running period in ticks (R272, R274): a TIME carrier's is what the time base gives it. -/
def State.pwSpan (s : State) (p : Nat) : Nat :=
  let x := s.pairX p
  if s.fld (R.PW_CFG p) F.PW_CFG_MODE ≤ 1 then (x.ends - x.start.getD 0) / 5 else x.cur.per
/-- A period starts: the zone decides the on-interval (R272, R284). -/
def State.pwPeriod (s : State) (p : Nat) : State :=
  let per := s.pwSpan p
  let mode := s.fld (R.PW_CFG p) F.PW_CFG_MODE
  let d := min (s.pwLoaded p) per
  let dr := s.fld (R.PW_DT_RISE p) F.PW_DT_RISE_TICKS
  let df := s.fld (R.PW_DT_FALL p) F.PW_DT_FALL_TICKS
  let m := s.fld (R.PW_PWMIN p) F.PW_PWMIN_TICKS
  let z := if mode = 3 then 1 else pwZone (mode = 2) d per dr df m
  let on := pwZoneOn z (s.bit (R.PW_CFG p) F.PW_CFG_MINPULSE) d per dr df m
  let s := s.when (z = 2 || z = 4) (fun s =>
    (s.set1 (R.PW_STAT p) F.PW_STAT_MINPULSE).incr (R.PW_MINPULSE_CNT p))
  let s := s.setFld (R.PW_ACT_DUTY p) F.PW_ACT_DUTY_TICKS on
  let start := if mode = 1 then (per - on) / 2 else 0
  let x := s.pairX p
  if on = 0 then s.setPairX p { x with rise := none, fall := if x.lo then none else some 0 }
  else if on = per && mode ≤ 1 then s.setPairX p { x with rise := if x.hi then none else some 0, fall := none }
  else s.setPairX p { x with rise := some start, fall := some (start + on) }
/-- The centre reload of a CENTRE carrier (R280): the second half takes half of the new on-time; a pulse that was
produced lasts at least PW_MIN + d_r, and a dropped one stays dropped (log 42). -/
def State.pwCentre (s : State) (p : Nat) : State :=
  let x := s.pairX p
  match x.rise, x.fall with
  | some a, some _ =>
    let per := s.pwSpan p
    let d := min (s.pwLoaded p) per
    let least := s.fld (R.PW_PWMIN p) F.PW_PWMIN_TICKS + s.fld (R.PW_DT_RISE p) F.PW_DT_RISE_TICKS
    let fall := max ((per - d) / 2 + d) (a + least)
    (s.setPairX p { x with fall := some fall }).setFld (R.PW_ACT_DUTY p) F.PW_ACT_DUTY_TICKS (fall - a)
  | _, _ => s
/-- The calibrated shadow line is swapped in at the period start of the pair in turn (R289). -/
def State.dlSwap (s : State) (p : Nat) : State :=
  let r := p / 12
  let x := s.dlX r
  let from_ (n : Nat) : Nat := (((List.range 12).map (fun i => (n + i) % 12)).find? (fun i =>
    s.bit (R.PW_CFG (r * 12 + i)) F.PW_CFG_USED)).getD n
  match x.ready && !x.stopped && from_ x.turn = p % 12, x.shadow with
  | true, some line =>
    let old := Smap.get (fun i => i) x.lines (p % 12)
    let next := from_ (p % 12 + 1)
    (s.setDlX r { x with
      lines := Smap.set (fun i => i) x.lines (p % 12) line
      shadow := some old
      ready := false
      turn := next }).incr (R.PW_DL_SWAPS r)
  | _, _ => s
-- periods

/-- The instant of a grid, `base` + k × `m` in 1/128 ns, in the nanosecond of a row. -/
def pwGrid (base m now : Nat) : Option Nat :=
  let lo := 128 * now
  let u := lo + (base % m + m - lo % m) % m
  if u < lo + 128 then some u else none
/-- The least length of a COT period in ticks (R272, R284): the low side is on for at least the larger of TOFF and
PW_MIN + d_f. -/
def State.pwCotLeast (s : State) (p : Nat) : Nat :=
  s.fld (R.PW_ACT_DUTY p) F.PW_ACT_DUTY_TICKS + max (s.pairX p).cur.toff
    (s.fld (R.PW_PWMIN p) F.PW_PWMIN_TICKS + s.fld (R.PW_DT_FALL p) F.PW_DT_FALL_TICKS)
/-- TOFF of the stepper of an axis in 1/128 ns (R265). -/
def State.stToff (s : State) (a : Nat) : Nat := 128 * s.fld (R.AX_ST_TOFF a) F.AX_ST_TOFF_NS
/-- The starts of a PAIR slave's periods (R274): PHASE after the starts of its source that may count, the running period's, the
one's before, and the next one's where the source's carrier has fixed it, in 1/128 ns. -/
def State.pwSlaveStarts (s : State) (p phase : Nat) : List Nat :=
  let q := s.pwSrc p
  let src := s.pairX q
  let next := if src.start.isSome && decide (s.fld (R.PW_CFG q) F.PW_CFG_MODE ≤ 1) then [src.ends] else []
  (src.prev.toList ++ src.start.toList ++ next).map (fun v => v + 5 * phase)
/-- A period start that may fall in the nanosecond of a row, in 1/128 ns (R271, R272, R274, R288); none where no period
starts. -/
def State.pwStartAt (s : State) (p now : Nat) : Option Nat :=
  let x := s.pairX p
  let sync := s.fld (R.PW_CFG p) F.PW_CFG_SYNC
  let c := if x.cur.per = 0 then x.pend.getD x.cur else x.cur
  let slave (least : Nat) : Option Nat :=
    (s.pwSlaveStarts p c.phase).find? (fun v => decide (least ≤ v) && decide (v / 128 = now))
  let later (u : Nat) (o : Option Nat) : Option Nat := if o.any (fun v => u ≤ v) then o else none
  match s.pairAxis p, x.start with
  | some _, none => some (128 * now)
  | some a, some u => match x.off with
    | some o => later (u + 5 * o + s.stToff a) (pwGrid (u + 5 * o + s.stToff a) (5 * o + s.stToff a) now)
    | none => none
  | none, none =>
    if sync = 1 then slave 0
    else if sync = 2 then pwGrid (5 * c.phase) (5 * c.per) now
    else some (128 * now)
  | none, some u => match s.fld (R.PW_CFG p) F.PW_CFG_MODE with
    | 2 =>
      let least := u + 5 * s.pwCotLeast p
      if s.bit (R.PW_CFG p) F.PW_CFG_TERM_EN && s.bit (R.SD_STAT p) F.SD_STAT_CMP_LO && decide (least ≤ 128 * now) then
        some (u + (128 * now - u + 4) / 5 * 5)
      else
        let v := max (u + 5 * c.per) least
        later v (pwGrid v (v - u) now)
    | 3 =>
      let v := u + 5 * (x.fall.getD (s.fld (R.PW_ACT_DUTY p) F.PW_ACT_DUTY_TICKS) + c.toff)
      later v (pwGrid v (v - u) now)
    | _ =>
      if sync = 1 then slave (u + 1)
      else later x.ends (pwGrid x.ends (5 * c.per) now)
/-- The end of an EDGE or CENTRE period (R271, R274): PER ticks on, for a TIME carrier the first aligned instant at least
PER / 2 on, and for a PAIR slave PHASE after the end of its source's period, where that is fixed. -/
def State.pwEnds (s : State) (p start : Nat) : Nat :=
  let c := (s.pairX p).cur
  if s.fld (R.PW_CFG p) F.PW_CFG_SYNC = 2 then
    let lo := start + (5 * c.per + 1) / 2
    lo + (5 * c.phase + 5 * c.per - lo % (5 * c.per)) % (5 * c.per)
  else if s.fld (R.PW_CFG p) F.PW_CFG_SYNC = 1 then
    ((s.pwSlaveStarts p c.phase).find? (fun v => start < v)).getD (start + 5 * c.per)
  else start + 5 * c.per
/-- The pair resumes as its period starts (R282, R285). -/
def State.pwResume (s : State) (p : Nat) : State :=
  s.when (s.pairX p).resume (fun s =>
    ((s.setPairX p { s.pairX p with resume := false }).setFld (R.PW_STAT p) F.PW_STAT_FORCED 0).pwDtMax p)
/-- A period of a pair starts (R278, R284, R285). -/
def State.pwStart (s : State) (p now : Nat) : State :=
  match s.pwStartAt p now with
  | none => s
  | some u =>
    if s.bit (R.PW_STAT p) F.PW_STAT_STEPPER then
      (((s.setPairX p { s.pairX p with start := some u, off := none }).wr (R.PW_RELOAD_T p) (tagOf now)).pwResume p).dlSwap p
    else
      let loads : Bool := s.fld (R.PW_CFG p) F.PW_CFG_MODE ≠ 1 || s.fld (R.PW_CFG p) F.PW_CFG_RELOAD ≠ 1 ||
        (s.pairX p).cur.per = 0
      let s := s.when loads (fun s => s.pwLoad p now)
      if (s.pairX p).cur.per = 0 then s
      else
        let s := s.setPairX p { s.pairX p with start := some u, prev := (s.pairX p).start, ends := s.pwEnds p u }
        ((s.pwResume p).pwPeriod p).dlSwap p
/-- The centre of the running period of a CENTRE carrier falls in the nanosecond of a row (R272). -/
def State.pwMiddle (s : State) (p now : Nat) : Bool :=
  let x := s.pairX p
  match x.start with
  | some u => s.fld (R.PW_CFG p) F.PW_CFG_MODE = 1 && (u + (x.ends - u) / 2) / 128 = now
  | none => false
/-- A reload point of a pair (R271, R278): one that the carrier does not have does nothing. -/
def State.pwReload (s : State) (p now : Nat) (centre : Bool) : State :=
  if s.bit (R.PW_CFG p) F.PW_CFG_USED = false ∨ s.dieRuns (p / 48) = false then s
  else if !centre then s.pwStart p now
  else if s.pwOwn p && s.pwMiddle p now && s.fld (R.PW_CFG p) F.PW_CFG_RELOAD ≠ 0 then (s.pwLoad p now).pwCentre p
  else s

-- transitions

/-- The bridge of the coil of a pair is reversed (R262). -/
def State.stNeg (s : State) (p a : Nat) : Bool := if p % 4 < 2 then (s.axisX a).negA else (s.axisX a).negB
/-- The sense channel of the coil of a pair (R247), and its set point of zero (R265). -/
def stSense (p : Nat) : Nat := p / 2 * 2
def State.stZero (s : State) (p : Nat) : Bool := s.fld (R.SD_THR_HI (stSense p)) F.SD_THR_HI_VALUE = 0
/-- The high side of a stepper's pair is commanded on at a tick of its period (R265): in the on-time the coil's polarity
decides, in FAST decay the bridge is reversed, and in SLOW decay and at a set point of zero both low sides are on. -/
def State.stHigh (s : State) (p a tick : Nat) : Bool :=
  let neg := s.stNeg p a
  let leg2 : Bool := p % 2 = 1
  let fast := match s.fld (R.AX_ST_CFG a) F.AX_ST_CFG_DECAY with
    | 0 => some 0
    | 1 => none
    | _ => some (s.fld (R.AX_ST_CFG a) F.AX_ST_CFG_MIX * s.stToff a / 1280)
  if s.stZero p then false
  else match (s.pairX p).off with
    | none => neg = leg2
    | some o => (match fast with
      | some n => tick < o + n && neg ≠ leg2
      | none => neg ≠ leg2)
/-- The on-time of a CFT period ends at a tick, on CMP_HI and not before the blanking end (R265, R272): for a stepper, of both
legs of the coil. -/
def State.pwEnd (s : State) (p tick : Nat) (ended : Bool) : State :=
  let x := s.pairX p
  let blank := s.fld (R.PW_PWMIN p) F.PW_PWMIN_TICKS + s.fld (R.PW_DT_RISE p) F.PW_DT_RISE_TICKS
  if !ended || tick < blank then s
  else if s.bit (R.PW_STAT p) F.PW_STAT_STEPPER then
    if x.off = none ∧ s.stZero p = false ∧ s.bit (R.SD_STAT (stSense p)) F.SD_STAT_CMP_HI = true then
      s.each [stSense p, stSense p + 1] (fun s q => s.setPairX q { s.pairX q with start := x.start, off := some tick })
    else s
  else if s.bit (R.SD_STAT p) F.SD_STAT_CMP_HI && s.fld (R.PW_CFG p) F.PW_CFG_MODE = 3 &&
      s.bit (R.PW_CFG p) F.PW_CFG_TERM_EN && x.rise.isSome && decide (tick ≤ x.fall.getD 0) then
    s.setPairX p { x with fall := some tick }
  else s
/-- A commanded transition is due at a tick (R265, R272): where the on-interval begins later in the period, the low side is
commanded on from the period's start. -/
def State.pwDue (s : State) (p tick : Nat) (rise : Bool) : Bool :=
  let x := s.pairX p
  match s.pairAxis p with
  | some a => s.stHigh p a tick = rise
  | none =>
    if rise then x.rise = some tick else x.fall = some tick || (tick = 0 && x.rise.any (fun a => decide (0 < a)))
/-- The side that a transition turns on is on, or awaits its dead time. -/
def PairX.has (x : PairX) (rise : Bool) : Bool := (if rise then x.hi else x.lo) || x.wait = some rise
/-- A commanded transition (R281): the conducting side turns off, the other awaits its dead time. -/
def State.pwTransition (s : State) (p tick : Nat) (rise : Bool) : State :=
  let x := s.pairX p
  if s.pwPinned p = true ∨ s.pwDue p tick rise = false ∨ x.has rise = true then s
  else s.setPairX p (if rise then { x with lo := false, wait := some true }
    else { x with hi := false, wait := some false })
/-- The awaited side turns on. -/
def State.pwTurnOn (s : State) (p : Nat) (rise : Bool) : State :=
  let x := s.pairX p
  s.setPairX p (if rise then { x with hi := true, wait := none } else { x with lo := true, wait := none })
/-- The dead time of a transition is kept (R282). -/
def State.pwDead (s : State) (p : Nat) (rise : Bool) (d : Nat) : State :=
  if rise then s.setFld (R.PW_DT_RISE p) F.PW_DT_RISE_TICKS d
  else s.setFld (R.PW_DT_FALL p) F.PW_DT_FALL_TICKS d

/-- PWM_COMMIT (R275). -/
def execPwmCommit (p : PairIx) (s : State) : Host.Outcome State Fault Refusal :=
  .next (s.regionRow (p / 12) (R.PW_COMMIT p) (fun s => s.when (s.pwOwn p) (fun s => s.pwCommit p [p.val] (s.tag 0))))
/-- Commit the pairs of a mask (R275). -/
def State.pwGroup (s : State) (r mask : Nat) (tag : Word) : State :=
  let ps := ((List.range 12).filter (fun i => mask.testBit i)).map (fun i => r * 12 + i)
  s.each (ps.filter (fun p => s.pwOwn p)) (fun s p => s.pwCommit p ps tag)
/-- PW_GCOMMIT (R275). -/
def execPwGcommit (r : RegionIx) (mask : BitVec 12) (s : State) : Host.Outcome State Fault Refusal :=
  .next (s.regionRow r (R.PW_GCOMMIT r) (fun s => s.pwGroup r mask.toNat (s.tag 0)))
/-- RELOAD_POINT (R278). -/
def execReloadPoint (p : PairIx) (off : Nat) (centre : Bool) (s : State) : Host.Outcome State Fault Refusal :=
  .next (s.pwReload p (s.now off) centre)
/-- COMMANDED_TRANSITION (R272, R281); the carrier of a forced pair runs on (R285). -/
def execCommandedTransition (p : PairIx) (tick : Nat) (rise end_ : Bool) (s : State) :
    Host.Outcome State Fault Refusal :=
  if s.bit (R.PW_CFG p) F.PW_CFG_USED && s.dieRuns (p / 48) then .next ((s.pwEnd p tick end_).pwTransition p tick rise)
  else .next s
/-- SWN_EDGE (R281): the measured dead time decides; dead-time measurement is suspended while the pair is forced. -/
def execSwnEdge (p : PairIx) (tsw : Nat) (rise : Bool) (s : State) : Host.Outcome State Fault Refusal :=
  if (s.pairX p).wait = some rise ∧ s.pwPinned p = false then
    let lo := s.fld (R.PW_DT p) F.PW_DT_DT_MIN
    let hi := s.fld (R.PW_DT p) F.PW_DT_DT_MAX
    let d := min (max (tsw + s.fld (R.PW_GUARD p) F.PW_GUARD_GUARD) lo) hi
    .next ((s.pwDead p rise d).pwTurnOn p rise)
  else .next s
/-- DT_MAX_EXPIRY (R281), and the turn-on of a forced or latched pattern (R285, R286). -/
def execDtMaxExpiry (p : PairIx) (rise : Bool) (s : State) : Host.Outcome State Fault Refusal :=
  if (s.pairX p).wait = some rise then
    if s.pwPinned p then .next (s.pwTurnOn p rise)
    else
      let s := s.pwDead p rise (s.fld (R.PW_DT p) F.PW_DT_DT_MAX)
      .next (((s.set1 (R.PW_STAT p) F.PW_STAT_NOCOMM).incr (R.PW_NOCOMM_CNT p)).pwTurnOn p rise)
  else .next s

-- delay lines

/-- The element of step k for a SPAN: round(k × SPAN / 32) (R289). -/
def dlElement (span k : Nat) : Nat := (2 * k * span + 32) / 64
/-- The map of a SPAN is strictly increasing (R290). -/
def dlRising (span : Nat) : Bool := (List.range 31).all (fun k => dlElement span k < dlElement span (k + 1))
/-- DL_CALIBRATION (R289, R290) of the shadow line of a region. -/
def execDlCalibration (r : RegionIx) (span : Nat) (s : State) : Host.Outcome State Fault Refusal :=
  let x := s.dlX r
  let line := x.shadow.getD 12
  if x.stopped || x.ready || !s.dieRuns (r / 4) then .next s
  else
    let a := R.PW_DL_STAT r
    let s := s.setFld a F.PW_DL_STAT_SPAN span
    if span < 32 ∨ span > 63 ∨ dlRising span = false then
      let s := (s.set1 a F.PW_DL_STAT_CAL_FAIL).incrSat a F.PW_DL_STAT_RETIRED
      let s := s.setDlX r { x with shadow := none, stopped := true }
      .next (s.eventU false 0x4002 2 3 r [])
    else
      let old := Smap.find x.spans line
      let jump := match old with
        | some o => (List.range 32).any (fun k =>
            dlElement span k > dlElement o k + 2 || dlElement o k > dlElement span k + 2)
        | none => false
      let s := s.when jump (fun s => s.raise 1 3 r a F.PW_DL_STAT_DL_JUMP (s.tag 0))
      .next (s.setDlX r { x with shadow := some line, spans := Smap.put x.spans line span, ready := true })

-- SDI channels

/-- Prefix sums of a list from a number on. -/
def prefixSums : List Int → Int → List Int
  | [], a => [a]
  | x :: t, a => a :: prefixSums t (a + x)
/-- Sums of each `m` consecutive entries. -/
def movingSums (m : Nat) (xs : List Int) : List Int :=
  let p := prefixSums xs 0
  List.zipWith (fun a b => b - a) p (p.drop m)
/-- `n` moving sums in turn. -/
def sincSums (m : Nat) : Nat → List Int → List Int
  | 0, xs => xs
  | n + 1, xs => sincSums m n (movingSums m xs)
/-- The data bits that a channel takes from SDI_D at the rising and the falling edge of its modulator's clock (R293), as +1 and
-1. -/
def State.sdiBits (s : State) (ch : Nat) (bits : List (Bool × Bool)) : List Int :=
  bits.map (fun b => if (if s.bit (R.SD_CFG ch) F.SD_CFG_EDGE then b.2 else b.1) then 1 else -1)
/-- The sum of a sinc filter of order `n` and ratio `m` over its window (R294), the newest bit first: `n` moving sums over
n × (m - 1) + 1 bits. Before the first bit the filter is empty; the command brings the bits of the window (DESIGN CHOICE, log
272). -/
def sincSum (n m : Nat) (bits : List Int) : Int :=
  let len := n * (m - 1) + 1
  let w := bits.take len ++ List.replicate (len - bits.length) 0
  (sincSums m n w).headD 0
/-- The sums of the main path and of the fast path (R294), and the sliding one of the comparators (R295). -/
def State.sdiMainSum (s : State) (ch : Nat) (bits : List (Bool × Bool)) : Int :=
  sincSum 3 (s.fld (R.SD_CFG ch) F.SD_CFG_MAIN_OSR) (s.sdiBits ch bits)
def State.sdiFastSum (s : State) (ch : Nat) (bits : List (Bool × Bool)) : Int :=
  sincSum 2 (s.fld (R.SD_CFG ch) F.SD_CFG_FAST_OSR) (s.sdiBits ch bits)
/-- A filter sum as s1.31 (R294), saturated at +1; true when it saturated. -/
def sdiValue (sum : Int) (gain : Nat) : Word × Bool :=
  let v := Int.rneDiv (sum * 2 ^ 31) gain
  if v ≥ 2 ^ 31 then (0x7FFFFFFF, true) else (Word.ofI v, false)
/-- The channel takes its bitstream: used, its group clock good, its die not fenced (R297, R37). -/
def State.sdiRuns (s : State) (ch : Nat) : Bool :=
  s.bit (R.SD_CFG ch) F.SD_CFG_USED && !s.bit (R.SD_STAT ch) F.SD_STAT_CLK_FAULT && s.dieState (ch / 48) = 0
/-- SDI_MAIN_OUTPUT (R294): the filter's sum over the bits in its window; valid from the third output on. -/
def execSdiMainOutput (ch : PairIx) (off : Nat) (bits : List (Bool × Bool)) (s : State) : Host.Outcome State Fault Refusal :=
  if s.sdiRuns ch then
    let sum := s.sdiMainSum ch bits
    let x := s.sdiX ch
    let s := s.setSdiX ch { x with nMain := min 3 (x.nMain + 1), tMain := s.now off }
    if x.nMain < 2 then .next s
    else
      let osr := s.fld (R.SD_CFG ch) F.SD_CFG_MAIN_OSR
      let (v, sat) := sdiValue sum (osr ^ 3)
      let s := (s.wr (R.SD_MAIN ch) v).when sat (fun s => s.set1 (R.SD_STAT ch) F.SD_STAT_SAT)
      .next ((((s.wr (R.SD_MAIN_T ch) (s.tag off)).incr (R.SD_CNT ch)).setFld
        (R.SD_STAT ch) F.SD_STAT_AGE_MAIN 0).recSdi ch false v (s.now off))
  else .next s
/-- A stepper's sense channel (R247, R295). -/
def State.stepSense (s : State) (ch : Nat) : Bool := ch % 2 = 0 && (s.pairAxis ch).isSome
/-- The comparators after the sliding sum reaches a value (R295). -/
def State.sdiCompare (s : State) (ch : Nat) (sum : Int) : State :=
  let osr := s.fld (R.SD_CFG ch) F.SD_CFG_FAST_OSR
  let one : Int := osr ^ 2
  let mag : Int := sum.natAbs
  let y : Int := (if s.bit (R.SD_CFG ch) F.SD_CFG_ABS || s.stepSense ch then mag else sum) * 2 ^ 15
  let hi := s.fldI (R.SD_THR_HI ch) F.SD_THR_HI_VALUE * one
  let lo := s.fldI (R.SD_THR_LO ch) F.SD_THR_LO_VALUE * one
  let h : Int := s.fld (R.SD_HYST ch) F.SD_HYST_VALUE * one
  let a := R.SD_STAT ch
  let up (s : State) (f g : Fld) (rise fall : Bool) : State :=
    if rise then (if s.bit a f then s else (s.set1 a f).set1 a g) else if fall then s.setFld a f 0 else s
  let s := up s F.SD_STAT_CMP_HI F.SD_STAT_HI_SEEN (y ≥ hi) (y < hi - h)
  up s F.SD_STAT_CMP_LO F.SD_STAT_LO_SEEN (y ≤ lo) (y > lo + h)
/-- A fast output (R294): valid from the second on; the first valid one ends the hold of R297. -/
def State.sdiFast (s : State) (ch off : Nat) (sum : Int) : State :=
  let x := s.sdiX ch
  let s := s.setSdiX ch { x with nFast := min 2 (x.nFast + 1), tFast := s.now off }
  if x.nFast < 1 then s
  else
    let osr := s.fld (R.SD_CFG ch) F.SD_CFG_FAST_OSR
    let (v, sat) := sdiValue sum (osr ^ 2)
    let s := (s.wr (R.SD_FAST ch) v).when sat (fun s => s.set1 (R.SD_STAT ch) F.SD_STAT_SAT)
    let s := (s.setFld (R.SD_STAT ch) F.SD_STAT_AGE_FAST 0).recSdi ch true v (s.now off)
    s.when (s.sdiX ch).held (fun s => (s.setSdiX ch { s.sdiX ch with held := false }).sdiCompare ch sum)
/-- The monitor flags a group clock (R297). -/
def State.sdiClkFault (s : State) (g : Nat) : State :=
  let s := (s.setFld (R.SD_GRP_STAT g) F.SD_GRP_STAT_CLK_OK 0).set1 (R.SD_GRP_STAT g) F.SD_GRP_STAT_CLK_FAULT
  s.each ((List.range 4).map (fun i => 4 * g + i)) (fun s ch =>
    let a := R.SD_STAT ch
    let s := s.set1 a F.SD_STAT_CLK_FAULT
    let s := s.when (!s.bit a F.SD_STAT_CMP_HI) (fun s => (s.set1 a F.SD_STAT_CMP_HI).set1 a F.SD_STAT_HI_SEEN)
    let s := s.when (!s.bit a F.SD_STAT_CMP_LO) (fun s => (s.set1 a F.SD_STAT_CMP_LO).set1 a F.SD_STAT_LO_SEEN)
    s.setSdiX ch { s.sdiX ch with held := true })
/-- CLK_FAULT_CLEAR (R297): the filters of the group restart. -/
def execClkFaultClear (g : Fin 48) (s : State) : Host.Outcome State Fault Refusal :=
  if s.dieRuns (g / 12) = false then .next s
  else
  let s := s.set1 (R.SD_GRP_STAT g) F.SD_GRP_STAT_CLK_OK
  .next (s.each ((List.range 4).map (fun i => 4 * g.val + i)) (fun s ch =>
    if s.bit (R.SD_STAT ch) F.SD_STAT_CLK_FAULT then
      (s.setFld (R.SD_STAT ch) F.SD_STAT_CLK_FAULT 0).setSdiX ch { s.sdiX ch with nMain := 0, nFast := 0 }
    else s))

end Sys2Proof.Machine
end

