-- ==== Sys2Proof/Machine/Motion.lean ====
section
/-!
DEFINITION. Axis generators (R245 to R261): limits, plans, moves, stop causes, commands and the Phase L gate of an axis; and
the local stepper (R262 to R266).
-/
namespace Sys2Proof.Machine

-- limits

/-- A binary32 limit times num / den as a fixed-point number with f fraction bits (R249), nearest, ties to even. -/
def limitFix (w : Word) (num den f : Nat) : Int :=
  let d := F32.toDy w
  let e := d.e + f
  if e ≥ 0 then Int.rneDiv (d.m * num * 2 ^ e.toNat) den else Int.rneDiv (d.m * num) (den * 2 ^ (-e).toNat)
/-- V, A, J of R249 per cycle of T nanoseconds. -/
def limitV (t : Nat) (w : Word) : Int := limitFix w t (10 ^ 9) 32
def limitA (t : Nat) (w : Word) : Int := limitFix w (t * t) (10 ^ 18) 40
def limitJ (t : Nat) (w : Word) : Int := limitFix w (t * t * t) (10 ^ 27) 48
/-- A limit is usable: finite, positive, and not 0 after conversion (R249). -/
def limitOk (w : Word) (conv : Int) : Bool := F32.finite w && !F32.sign w && !F32.isZero w && conv > 0

-- the axis

def State.axState (s : State) (a : Nat) : Nat := s.fld (R.AX_STATE a) F.AX_STATE_STATE
def State.setAxState (s : State) (a st : Nat) : State := s.setFld (R.AX_STATE a) F.AX_STATE_STATE st
def State.axPos (s : State) (a : Nat) : Int := s.rd64I (R.AX_POS_LO a)
def State.axCause (s : State) (a : Nat) : Nat := s.fld (R.AX_STATE a) F.AX_STATE_CAUSE
/-- Set a stop cause (R256): 0 COMMAND, 1 HEDGEROW, 2 CTL_STOP, 3 FAULT. -/
def State.axSetCause (s : State) (a b : Nat) : State := s.setFld (R.AX_STATE a) ⟨8 + b, 1⟩ 1
/-- Clear a stop cause: set again, it is new (R256). -/
def State.axClrCause (s : State) (a b : Nat) : State :=
  let s := s.setFld (R.AX_STATE a) ⟨8 + b, 1⟩ 0
  s.setAxisX a { s.axisX a with causes := (s.axisX a).causes &&& (15 ^^^ 2 ^ b) }
/-- The axis is configured and its die runs (R245). -/
def State.axRuns (s : State) (a : Nat) : Bool :=
  s.bit (R.AX_CFG a) F.AX_CFG_USED && s.dieState (a / 32) = 0 && !s.regionHeld (a / 8)
/-- The query of a plan from the present state to a goal with the latched limits. -/
def State.axQuery (s : State) (a : Nat) (goal : Int) (dmax : Word) (stop replan : Bool) : PlanQuery :=
  let x := s.axisX a
  let t := s.period
  ⟨s.axPos a, x.v, x.a, goal, limitV t (s.rd (R.AX_USE_VMAX a)), limitA t (s.rd (R.AX_USE_AMAX a)),
    limitA t dmax, limitJ t (s.rd (R.AX_USE_JMAX a)), stop, replan, decide (0 < x.first)⟩
/-- The present limit fields are usable (R249). -/
def State.axLimitsOk (s : State) (a : Nat) : Bool :=
  let t := s.period
  let v := s.rd (R.AX_VMAX a)
  let c := s.rd (R.AX_AMAX a)
  let d := s.rd (R.AX_DMAX a)
  let j := s.rd (R.AX_JMAX a)
  limitOk v (limitV t v) && limitOk c (limitA t c) && limitOk d (limitA t d) && limitOk j (limitJ t j)
/-- Latch the limits (R250). -/
def State.axLatch (s : State) (a : Nat) : State :=
  (((s.wr (R.AX_USE_VMAX a) (s.rd (R.AX_VMAX a))).wr (R.AX_USE_AMAX a) (s.rd (R.AX_AMAX a))).wr
    (R.AX_USE_DMAX a) (s.rd (R.AX_DMAX a))).wr (R.AX_USE_JMAX a) (s.rd (R.AX_JMAX a))
/-- AX_OVERSHOOT of a plan (R252): 0 for one leg, else the way of the first leg away from the goal or beyond it, from the
position and the velocity at the acceptance of the move. -/
def planOvershoot (p v goal rest : Int) (legs : Nat) : Int :=
  if legs < 2 then 0
  else if (goal - p) * v ≤ 0 then (rest - p).natAbs else (rest - goal).natAbs
/-- Cycles of segments. -/
def planCycles (g : List PlanSeg) : Nat := (g.map (fun x => x.cycles)).sum
/-- Follow the legs of a plan (R251, R252). -/
def State.axFollow (s : State) (a : Nat) (goal : Int) (legs : List (List PlanSeg)) : State :=
  let x := s.axisX a
  let rest := (planEnd ⟨s.axPos a, x.v, x.a, 0⟩ (legs.headD [])).p
  (s.setAxisX a { x with
    plan := legs.flatten, goal := goal, first := if legs.length < 2 then 0 else planCycles (legs.headD []) }).wr64
    (R.AX_OVERSHOOT_LO a) (planOvershoot x.accP x.accV goal rest legs.length)
/-- Plan to a goal with the latched limits and move (R251, R252): at the goal and at rest there is no plan. -/
def State.axPlan (s : State) (a : Nat) (goal : Int) : State :=
  let x := s.axisX a
  let p := s.axPos a
  let s := (s.setAxState a 1).setFld (R.AX_STATE a) F.AX_STATE_DONE 0
  let s := s.setAxisX a { x with accP := p, accV := x.v, first := 0, held := false }
  if x.v = 0 ∧ x.a = 0 ∧ p = goal then s.axFollow a goal []
  else s.axFollow a goal (planFor (s.axQuery a goal (s.rd (R.AX_USE_DMAX a)) false false))
/-- Plan again with the latched limits (R253): one that would bring an overshoot leaves the plan as it is. -/
def State.axPlanAgain (s : State) (a : Nat) : State :=
  let x := s.axisX a
  let q := s.axQuery a x.goal (s.rd (R.AX_USE_DMAX a)) false true
  if planStuck q || x.plan.isEmpty then s else s.axFollow a x.goal (planFor q)
/-- The remainder goal − p (R256). -/
def State.axRemain (s : State) (a : Nat) (v : Int) : State :=
  (s.wr64 (R.AX_REMAIN_LO a) v).setB (R.AX_STATE a) F.AX_STATE_REMAIN (v ≠ 0)
/-- The move has reached its goal (R257). -/
def State.axArrive (s : State) (a : Nat) : State :=
  ((s.setAxState a 0).set1 (R.AX_STATE a) F.AX_STATE_DONE).incr (R.AX_MOVE_CNT a)
/-- A stop has come to rest (R256). -/
def State.axHalt (s : State) (a : Nat) : State :=
  let d := (s.axisX a).goal - s.axPos a
  if d = 0 then s.axArrive a else (s.setAxState a 3).axRemain a d
/-- Enter FALLOW (R258). -/
def State.axFallow (s : State) (a : Nat) : State :=
  let x := s.axisX a
  let s := (s.setAxisX a { x with v := 0, a := 0, plan := [], first := 0, held := false }).setAxState a 4
  let s := s.setFld (R.AX_STATE a) F.AX_STATE_DONE 0
  s.when (s.axStepper a) (fun s => s.each (s.axPairs a) (fun s p => s.pwForce p 1))
/-- The rest of the plan only decelerates, and no harder than D_S (coincidences of chapter 8). -/
def State.axSlows (s : State) (a : Nat) (ds : Int) : Bool :=
  let x := s.axisX a
  let y : Traj := ⟨s.axPos a, x.v, x.a, 0⟩
  let ys := planStates y (planJerks x.plan)
  ((y :: ys).zip ys).all (fun p => decide (p.2.v.natAbs ≤ p.1.v.natAbs) && decide ((p.2.a.natAbs : Int) ≤ ds))
/-- A stop begins when a cause is newly set while the axis is MOVING (R256). -/
def State.axStopBegin (s : State) (a : Nat) (tag : Word) : State :=
  let old := (s.axisX a).causes
  let s := s.setAxisX a { s.axisX a with causes := s.axCause a }
  if s.axState a ≠ 1 ∨ (List.range 4).all (fun b => !(s.axCause a).testBit b || old.testBit b) = true then s
  else
    let d := s.rd (R.AX_DSTOP a)
    let ds := limitA s.period d
    if limitOk d ds = false then s.raise 1 5 a (R.AX_STAT a) F.AX_STAT_REJ_PARAM tag
    else if s.axSlows a ds then s
    else
      let x := s.axisX a
      let s := s.setAxState a 2
      s.axFollow a x.goal (if x.v = 0 ∧ x.a = 0 then [] else planFor (s.axQuery a x.goal d true false))

-- commands

/-- A command that is not accepted (R259). -/
def State.axReject (s : State) (a : Nat) (tag : Word) : State :=
  s.raise 1 5 a (R.AX_STAT a) F.AX_STAT_CMD_REJ tag
/-- RESUME (R258, R259); `hedge` says that a term targeting the axis is true. -/
def State.axResume (s : State) (a : Nat) (hedge : Bool) (tag : Word) : State :=
  let st := s.axState a
  if (st ≠ 3 ∧ st ≠ 4) ∨ hedge = true ∨ s.stopped = true ∨ (s.axCause a).testBit 3 = true then s.axReject a tag
  else
    let s := (s.axClrCause a 0).axClrCause a 1
    if st = 4 then
      let s := (s.setAxState a 3).axRemain a ((s.axisX a).goal - s.axPos a)
      s.when (s.axStepper a) (fun s => (s.set1 (R.AX_STAT a) F.AX_STAT_POS_LOST).each (s.axPairs a)
        (fun s p => s.pwRelease p 1))
    else (s.axRemain a 0).axPlan a (s.axisX a).goal
/-- REPLAN (R253). -/
def State.axReplan (s : State) (a : Nat) (tag : Word) : State :=
  let st := s.axState a
  if st ≠ 1 ∧ st ≠ 2 ∧ st ≠ 3 then s.axReject a tag
  else if st = 2 then s
  else if s.axLimitsOk a = false then (s.set1 (R.AX_STAT a) F.AX_STAT_REJ_PARAM).axReject a tag
  else
    let s := s.axLatch a
    if st = 1 then s.axPlanAgain a else s
/-- SET_POS (R259). -/
def State.axSetPos (s : State) (a : Nat) (arg : Int) (tag : Word) : State :=
  let st := s.axState a
  if st ≠ 0 ∧ st ≠ 3 then s.axReject a tag
  else
    let s := (s.wr64 (R.AX_POS_LO a) arg).axRemain a 0
    (s.setAxState a 0).setFld (R.AX_STAT a) F.AX_STAT_POS_LOST 0
/-- A command of AX_CMD with its argument (R259). -/
def State.axCommand (s : State) (a code : Nat) (arg : Int) (hedge : Bool) (tag : Word) : State :=
  match code with
  | 0 => s
  | 1 => s.axSetCause a 0
  | 2 => s.axResume a hedge tag
  | 3 => s.axReplan a tag
  | 4 => (s.axClrCause a 3).setFld (R.AX_STAT a) F.AX_STAT_STALL 0
  | 5 => s.axSetPos a arg tag
  | _ => s.axReject a tag
/-- The commands of a gate apply in order (R259). -/
def State.axCommands (s : State) (a : Nat) (cs : List (Nat × Int)) (hedge : Bool) (tag : Word) : State :=
  s.each cs (fun s c => s.axCommand a c.1 c.2 hedge tag)
/-- A move request at the gate (R254, R255): true when it is accepted. `stopCmd` says that a STOP applies too. -/
def State.axMove (s : State) (a : Nat) (stopCmd : Bool) (tag : Word) : State × Bool :=
  let x := s.axisX a
  let req := s.rd (R.AX_MOVE_REQ a)
  if req = x.seen then (s, false)
  else
    let s := s.setAxisX a { x with seen := req }
    let tgt := s.rd64I (R.AX_TGT_LO a)
    let goal := if req.toNat.testBit 16 then x.goal + tgt else tgt
    let lim : Bool := goal < s.rd64I (R.AX_LIM_NEG_LO a) || goal > s.rd64I (R.AX_LIM_POS_LO a)
    let cause : Bool := s.axCause a ≥ 2 || stopCmd || s.axState a = 4
    let par := !s.axLimitsOk a
    if lim || cause || par then
      let f := (if lim then 1 else 0) + (if cause then 2 else 0) + (if par then 4 else 0)
      let s := s.wr (R.AX_STAT a) (s.rd (R.AX_STAT a) ||| Word.ofN f)
      (s.statusEvent 1 5 a (R.AX_STAT a) (Word.ofN f) tag, false)
    else
      let s := ((s.axClrCause a 0).axRemain a 0).axLatch a
      (s.axPlan a goal, true)
/-- STALL_ACT at the Phase L gate of the report's cycle (R265). -/
def State.axStallAct (s : State) (a : Nat) (tag : Word) : State :=
  let s := (s.set1 (R.AX_STAT a) F.AX_STAT_STALL).set1 (R.AX_STAT a) F.AX_STAT_POS_LOST
  let act := s.fld (R.AX_CFG a) F.AX_CFG_STALL_ACT
  if act = 0 then s.statusEvent 1 5 a (R.AX_STAT a) F.AX_STAT_STALL.mask tag
  else
    let s := (s.eventU false 0x2001 2 5 a [Word.ofN act]).axSetCause a 3
    s.when (act = 2) (fun s => s.axFallow a)

-- the Phase L gate

/-- The read-back fields VEL and ACC (R249). -/
def State.axReadBack (s : State) (a : Nat) : State :=
  let x := s.axisX a
  let t := s.period
  let v := F32.quot (x.v < 0) (x.v.natAbs * 10 ^ 9) t (-32)
  let c := F32.quot (x.a < 0) (x.a.natAbs * 10 ^ 18) (t * t) (-40)
  (s.wr (R.AX_VEL a) (if x.v = 0 then 0 else v)).wr (R.AX_ACC a) (if x.a = 0 then 0 else c)
/-- Position in whole counts, rounded to nearest (R246). -/
def State.axCounts (s : State) (a : Nat) : Word := Word.ofI (Int.rneDiv (s.axPos a) 65536)
/-- The output words of a REMOTE axis (R246); in FALLOW they carry their fallow values (R258). -/
def State.axOutput (s : State) (a : Nat) : State :=
  if s.fld (R.AX_CFG a) F.AX_CFG_OUT ≠ 1 then s
  else
    let w := Ref.index (s.fld (R.AX_OUT_REF a) ⟨0, 20⟩)
    let lo := s.rd (R.AX_POS_LO a)
    let hi := s.rd (R.AX_POS_HI a)
    let vel := s.rd (R.AX_VEL a)
    let vals := match s.fld (R.AX_CFG a) F.AX_CFG_FMT with
      | 0 => [s.axCounts a]
      | 1 => [lo, hi]
      | 2 => [s.axCounts a, vel]
      | _ => [lo, hi, vel]
    s.each ((List.range vals.length).zip vals) (fun s iv =>
      s.setOut (w + iv.1) (if s.axState a = 4 then s.wordFallow (w + iv.1) else iv.2))
/-- Advance one cycle of the plan (R248, R251): its last cycle sets p to the goal and v and a to 0. -/
def State.axAdvance (s : State) (a : Nat) : State :=
  let x := s.axisX a
  let p := s.axPos a
  match x.plan with
  | [] => s.setAxisX a { x with next := ⟨p, x.v, x.a, 0⟩ }
  | g :: t =>
    let old : Traj := ⟨p, x.v, x.a, g.jerk⟩
    let y := old.step
    let rest := if g.cycles ≤ 1 then t else { g with cycles := g.cycles - 1 } :: t
    if rest.isEmpty then
      let goal := if s.axState a = 2 then y.p else x.goal
      (s.setAxisX a { x with plan := [], first := 0, v := 0, a := 0, next := old }).wr64 (R.AX_POS_LO a) goal
    else (s.setAxisX a { x with plan := rest, first := x.first - 1, v := y.v, a := y.a, next := old }).wr64 (R.AX_POS_LO a) y.p
/-- A plan whose cycles have all passed ends (R256, R257, log 43). -/
def State.axEnded (s : State) (a : Nat) : State :=
  if !(s.axisX a).plan.isEmpty then s
  else if s.axState a = 1 then s.axArrive a
  else if s.axState a = 2 then s.axHalt a else s
/-- The register at an offset of an axis block is in its range after a write (R264, R268): FSGAIN from 1.0 to 1.414, LA_MAX above
LA_MIN, LA_ALPHA in (0, 1], and the thresholds rising. -/
def State.stRangeOk (s : State) (a o : Nat) : Bool :=
  let g := s.fld (R.AX_ST_FSGAIN a) F.AX_ST_FSGAIN_GAIN
  let k := s.rd (R.AX_ST_LA_ALPHA a)
  let th (i : Nat) : Word := s.rd (R.AX_ST_VTH a i)
  if o = 0x94 then decide (32768 ≤ g) && decide (g ≤ 46333)
  else if o = 0x98 ∨ o = 0x9C then F32.lt (s.rd (R.AX_ST_LA_MIN a)) (s.rd (R.AX_ST_LA_MAX a))
  else if o = 0xA0 then F32.lt 0 k && F32.le k 0x3F800000
  else if 0xC0 ≤ o then
    let i := (o - 0xC0) / 4
    (i = 0 || F32.lt (th (i - 1)) (th i)) && (i ≥ 7 || F32.lt (th i) (th (i + 1)))
  else true
/-- A host write that has waited for the gate (R268): a command with its argument adds to those of the gate. A stepper register
outside its range takes no value. -/
def State.axHostWrite (s : State) (a : Nat) (cs : List (Nat × Int)) (w : Nat × Word × Word) (tag : Word) :
    State × List (Nat × Int) :=
  let v := (s.rd w.1 &&& ~~~ w.2.2) ||| (w.2.1 &&& w.2.2)
  let o := w.1 - R.axisBase a
  if w.1 = R.AX_CMD a then (s, cs ++ [(F.AX_CMD_CODE.get (w.2.1 &&& w.2.2), s.rd64I (R.AX_CMD_ARG_LO a))])
  else if 0x88 ≤ o ∧ o ≤ 0xDC then
    let t := s.wr w.1 v
    (if !t.stRangeOk a o then s.statusEvent 1 5 a w.1 (w.2.1 &&& w.2.2) tag else t, cs)
  else if 0x20 ≤ o ∧ o < 0x30 then (s.writeAxisField a (2 + (o - 0x20) / 4) v, cs)
  else (s.wr w.1 v, cs)
/-- The host writes of the gate, in order, with their commands; a task's command stands in AX_CMD. -/
def State.axHostWrites (s : State) (a : Nat) (tag : Word) : State × List (Nat × Int) :=
  let x := s.axisX a
  let s := s.setAxisX a { x with writes := [] }
  let (s, cs) := x.writes.foldl (fun r w => r.1.axHostWrite a r.2 w tag) (s, [])
  let cs := if cs = [] then [(s.fld (R.AX_CMD a) F.AX_CMD_CODE, s.rd64I (R.AX_CMD_ARG_LO a))] else cs
  (s.wr (R.AX_CMD a) 0, cs)
/-- The moves and commands of a gate (R255, R259): the commands before a RESUME apply, then the move request, which a STOP of
the gate refuses, and then the rest; a RESUME gives way to an accepted move of a HALTED axis (Coincidences). -/
def State.axOrders (s : State) (a : Nat) (cs : List (Nat × Int)) (hedge : Bool) (tag : Word) : State :=
  let s := s.axCommands a (cs.takeWhile (fun c => c.1 ≠ 2)) hedge tag
  let halted : Bool := s.axState a = 3
  let (s, moved) := s.axMove a (cs.any (fun c => c.1 = 1)) tag
  let rest := cs.dropWhile (fun c => c.1 ≠ 2)
  s.axCommands a (if moved && halted then rest.filter (fun c => c.1 ≠ 2) else rest) hedge tag
/-- The Phase L gate of an axis (R258, R261): `hedge` says that a true term targets it. -/
def State.axGate (s : State) (a : Nat) (hedge : Bool) (tag : Word) : State :=
  if s.axRuns a then
    let (s, cs) := (s.axEnded a).axHostWrites a tag
    let x := s.axisX a
    let s := (s.setAxisX a { x with stalls := 0 }).each (List.range x.stalls) (fun s _ => s.axStallAct a tag)
    let s := s.when hedge (fun s =>
      let s := s.axSetCause a 1
      s.when (s.bit (R.AX_CFG a) F.AX_CFG_HG_ACT && s.axState a ≠ 4) (fun s => s.axFallow a))
    let s := ((s.axOrders a cs hedge tag).axStopBegin a tag).axEnded a
    ((s.axAdvance a).axReadBack a).axOutput a
  else s

-- commands from outside

/-- The package mode permits writes to axis fields, lane fields and host input words (R233). -/
def State.fieldMode (s : State) : Bool := s.mode = 1 || s.mode = 2
/-- The field of an axis behind one of its registers (R267). -/
def axRegField (x a : Nat) : Option Nat := (List.range 23).find? (fun f => axisFieldReg x f = some a)
/-- A write that applies at the Phase L gate (R268); AX_CMD shows its code until then (R12). -/
def State.axQueue (s : State) (x a : Nat) (v m : Word) : State :=
  (s.setAxisX x { s.axisX x with writes := (s.axisX x).writes ++ [(a, v, m)] }).when (a = R.AX_CMD x) (fun s => s.wr a (v &&& m))
/-- An axis block (R233, R268): fields apply at the Phase L gate. -/
def State.busAxis (s : State) (x a : Nat) (v m : Word) : State × Nat :=
  let owned := match axRegField x a with
    | some f => (Smap.find s.img.owners (Ref.axisField x f)).isSome
    | none => false
  if !s.fieldMode then (s, 1)
  else if owned then (s, 2)
  else match Reg.row a with
    | some r =>
      let set := m &&& Word.ofN (r.rw ||| r.cmd)
      (if set = 0 then s.regWrite a v m else s.axQueue x a v set, 0)
    | none => (s, 4)
/-- Words of a configured axis for the Phase L gate of their cycle (R245, R259), in order; refused where the variant lacks the
axis (R3). -/
def State.axRows (s : State) (a : Nat) (ws : List (Nat × Word × Word)) : State :=
  s.regionRow (a / 8) (R.AX_CMD a) (fun s =>
    s.when (s.bit (R.AX_CFG a) F.AX_CFG_USED) (fun s => s.each ws (fun s e => s.axQueue a e.1 e.2.1 e.2.2)))
/-- A command of an axis. -/
def State.axRow (s : State) (a : Nat) (code : Word) : State := s.axRows a [(R.AX_CMD a, code, 7)]

/-- AXIS_STOP (R259). -/
def execAxisStop (a : AxisIx) (s : State) : Host.Outcome State Fault Refusal := .next (s.axRow a 1)
/-- AXIS_RESUME (R258, R259). -/
def execAxisResume (a : AxisIx) (s : State) : Host.Outcome State Fault Refusal := .next (s.axRow a 2)
/-- AXIS_REPLAN (R253, R259). -/
def execAxisReplan (a : AxisIx) (s : State) : Host.Outcome State Fault Refusal := .next (s.axRow a 3)
/-- AXIS_CLR_FAULT (R259). -/
def execAxisClrFault (a : AxisIx) (s : State) : Host.Outcome State Fault Refusal := .next (s.axRow a 4)
/-- SET_POS (R259): its argument comes before it. -/
def execSetPos (a : AxisIx) (arg : BitVec 64) (s : State) : Host.Outcome State Fault Refusal :=
  .next (s.axRows a [(R.AX_CMD_ARG_LO a, arg.truncate 32, 0xFFFFFFFF),
    (R.AX_CMD_ARG_HI a, (arg >>> 32).truncate 32, 0xFFFFFFFF), (R.AX_CMD a, 5, 7)])
/-- A stepper axis runs on the pins of this unit (R266). -/
def State.stRuns (s : State) (a : Nat) : Bool :=
  s.axRuns a && s.axStepper a && s.bit (R.AX_ST_STAT a) F.AX_ST_STAT_ACTIVE
/-- STALL (R265): the condition has held for STALL_TIME in the unit that drives the pins; the report is a non-field
input. -/
def execStall (a : AxisIx) (s : State) : Host.Outcome State Fault Refusal :=
  if s.stRuns a && s.bit (R.AX_ST_STAT a) F.AX_ST_STAT_STALL_RUN then
    let s := (s.set1 (R.AX_STAT a) F.AX_STAT_STALL).set1 (R.AX_STAT a) F.AX_STAT_POS_LOST
    .next (s.inputLog (s.tag 0) (.stall a))
  else .next s
/-- HOLD_DELAY_EXPIRY (R265): the delay has passed in STANDSTILL or HALTED. -/
def execHoldDelayExpiry (a : AxisIx) (s : State) : Host.Outcome State Fault Refusal :=
  if s.stRuns a ∧ (s.axState a = 0 ∨ s.axState a = 3) then .next (s.setAxisX a { s.axisX a with held := true }) else .next s
/-- A new cycle begins (R261, R263): the stepper plays the segment that the last Phase L computed. -/
def State.axPlay (s : State) (a : Nat) : State :=
  let x := s.axisX a
  s.when (s.axStepper a) (fun s => s.setAxisX a { x with play := x.next, next := ⟨s.axPos a, 0, 0, 0⟩ })

-- the stepper

/-- Numerator of the played position over 6 T³ 2^48 (R263), `off` ns into the cycle of T ns, in counts. -/
def Traj.posNum (x : Traj) (t off : Nat) : Int :=
  6 * x.p * t ^ 3 * 2 ^ 32 + 6 * x.v * off * t ^ 2 * 2 ^ 16 + 3 * x.a * off ^ 2 * t * 2 ^ 8 + x.j * off ^ 3
/-- Numerator of the played velocity over 2 T² 2^48, in counts per cycle. -/
def Traj.velNum (x : Traj) (t off : Nat) : Int :=
  2 * x.v * t ^ 2 * 2 ^ 16 + 2 * x.a * off * t * 2 ^ 8 + x.j * off ^ 2
/-- |v| in full steps/s is at least w × num / den (R264). -/
def speedGe (x : Traj) (t off : Nat) (w : Word) (num den : Nat) : Bool :=
  let l : Dy := ⟨(x.velNum t off).natAbs * 10 ^ 9 * den, 0⟩
  let r : Dy := ⟨(F32.toDy w).m * (t ^ 3 * num : Nat), (F32.toDy w).e + 57⟩
  r.le l
/-- The target level after a tick (R264): it rises and falls over its thresholds. -/
def State.stLevel (s : State) (a : Nat) (x : Traj) (t off : Nat) : Nat :=
  (List.range 8).foldl (fun l _ =>
    if l < 8 ∧ speedGe x t off (s.rd (R.AX_ST_VTH a l)) 1 1 = true then l + 1
    else if 0 < l ∧ speedGe x t off (s.rd (R.AX_ST_VTH a (l - 1))) 7 8 = false then l - 1 else l)
    (s.fld (R.AX_ST_STAT a) F.AX_ST_STAT_TARGET)
/-- The position quantised to steps of 2^L counts (R264): down for v ≥ 0, up for v < 0. -/
def stQuant (n : Int) (den : Int) (neg : Bool) (l : Nat) : Int :=
  let q : Int := 2 ^ l
  if neg then -((-n) / (den * q)) * q else n / (den * q) * q
/-- The load angle from θ in counts and the measured angle in degrees (R265), wrapped, negated for v < 0. -/
def stLoad (theta : Nat) (meas : Word) (neg : Bool) : Word :=
  let d := (F32.sub (F32.mul (F32.ofInt theta) 0x3EB40000).1 meas).1
  let d := if F32.lt 0x43340000 d then (F32.sub d 0x43B40000).1
    else if F32.le d 0xC3340000 then (F32.add d 0x43B40000).1 else d
  if neg then F32.flip d else d
/-- A coil's set point for its sense comparator, s1.15 (R265, R295): |I| / ASCALE, at most 0x7FFF (log 44). -/
def stSetPoint (i scale : Word) : Nat :=
  let q := (F32.div (i &&& 0x7FFFFFFF) scale).1
  if F32.finite q then (min ((F32.toDy q).rneTo (-15)) 0x7FFF).toNat else 0x7FFF
/-- ICMD after a tick (R265): toward the target by at most IRATE per ms. -/
def stRamp (icmd target rate : Word) : Word :=
  let step := (F32.div rate 0x447A0000).1
  if F32.lt icmd target then F32.min target (F32.add icmd step).1
  else F32.max target (F32.sub icmd step).1
/-- One coil: bridge polarity, the comparator's set point, and both low sides on at zero, each after its dead
time (R262, R265). -/
def State.stCoil (s : State) (a leg : Nat) (i : Word) : State :=
  let p := a / 8 * 12 + 4 * s.fld (R.AX_CFG a) F.AX_CFG_GROUP + leg
  let v := stSetPoint i (s.rd (R.AX_ST_ASCALE a))
  let x := s.axisX a
  let s := s.setAxisX a (if leg = 0 then { x with negA := F32.sign i } else { x with negB := F32.sign i })
  let s := s.setFld (R.SD_THR_HI p) F.SD_THR_HI_VALUE v
  s.when (v = 0) (fun s => s.each [p, p + 1] (fun s q =>
    let y := { s.pairX q with start := none, off := none }
    s.setPairX q (if s.pwPinned q || y.has false then y else { y with hi := false, wait := some false })))
/-- A tick of the stepper (R263 to R265), `off` ns after t0. -/
def State.stTick (s : State) (a off : Nat) : State :=
  let x := s.axisX a
  let t := s.period
  let st := R.AX_ST_STAT a
  let den : Int := 6 * (t ^ 3 : Nat) * 2 ^ 48
  let n := x.play.posNum t off
  let neg : Bool := x.play.velNum t off < 0
  -- levels
  let tgt := s.stLevel a x.play t off
  let s := s.setFld st F.AX_ST_STAT_TARGET tgt
  let old := s.fld st F.AX_ST_STAT_LEVEL
  let b := den * 256
  let crossed : Bool := if neg then (-(-n / b)) ≠ -(-x.lastN / b) || n % b = 0
    else n / b ≠ x.lastN / b || n % b = 0
  let edge := stQuant n den neg 8
  let change : Bool := tgt ≠ old && crossed && stQuant n den neg old = edge && stQuant n den neg tgt = edge
  let lvl := if change then tgt else old
  let s := s.setFld st F.AX_ST_STAT_LEVEL lvl
  let theta := (stQuant n den neg lvl % 1024).toNat
  let s := s.wr (R.AX_ST_ANGLE a) (Word.ofN theta)
  -- load angle and amplitude
  let ch := a / 8 * 12 + 4 * s.fld (R.AX_CFG a) F.AX_CFG_GROUP
  let scale := s.rd (R.AX_ST_ASCALE a)
  let amp (c : Nat) : Word := (F32.mul (F32.ofDy ⟨(s.rd (R.SD_MAIN c)).toInt, -31⟩) scale).1
  let fast := speedGe x.play t off (s.rd (R.AX_ST_VTH a 0)) 1 1
  let lf := s.rd (R.AX_ST_LOAD a)
  let delta := stLoad theta (atan2Deg (amp (ch + 2)) (amp ch)) neg
  let lf' := if fast then (F32.add lf (F32.mul (s.rd (R.AX_ST_LA_ALPHA a)) (F32.sub delta lf).1).1).1 else 0
  let base := s.rd (R.AX_ST_IBASE a)
  let boost := s.rd (R.AX_ST_IBOOST a)
  let la := s.rd (R.AX_ST_LA_MIN a)
  let share := F32.min (F32.max (F32.div (F32.sub lf' la).1 (F32.sub (s.rd (R.AX_ST_LA_MAX a)) la).1).1 0) 0x3F800000
  let rest : Bool := (s.axState a = 0 || s.axState a = 3) && x.held
  let target := if rest then s.rd (R.AX_ST_IHOLD a) else if fast then
    (F32.add base (F32.mul (F32.sub boost base).1 share).1).1 else base
  let icmd := stRamp (s.rd (R.AX_ST_ICMD a)) target (s.rd (R.AX_ST_IRATE a))
  let s := (s.wr (R.AX_ST_LOAD a) lf').wr (R.AX_ST_ICMD a) icmd
  let s := s.setB st F.AX_ST_STAT_BOOST_MAX (icmd = boost)
  let s := s.setB st F.AX_ST_STAT_STALL_RUN (icmd = boost && F32.lt (s.rd (R.AX_ST_STALL_ANGLE a)) lf')
  -- coils
  let gain := F32.ofDy ⟨s.fld (R.AX_ST_FSGAIN a) F.AX_ST_FSGAIN_GAIN, -15⟩
  let i := if lvl = 8 then F32.min (F32.mul icmd gain).1 boost else icmd
  let s := s.setAxisX a { s.axisX a with lastN := n }
  (s.stCoil a 0 (F32.mul i (F32.ofDy (cosineTab theta))).1).stCoil a 2 (F32.mul i (F32.ofDy (sineTab theta))).1
/-- STEPPER_TICK (R263) of a stepper axis whose pins this unit drives. -/
def execStepperTick (a : AxisIx) (off : Nat) (s : State) : Host.Outcome State Fault Refusal :=
  if s.stRuns a then .next (s.stTick a off)
  else .next s

end Sys2Proof.Machine
end

