-- ==== Sys2Proof/Machine/Hedgerow.lean ====
section
/-!
DEFINITION. The hedgerow (chapter "Hedgerow interlocks and fallow states"): sources, terms, targets, the term states
that the control path takes, the commands and the patch.
-/
namespace Sys2Proof.Machine

/-- Offsets of the hedgerow tables (R315). -/
def R.HG_TERM (t w : Nat) : Nat := 0x90000 + 32 * t + 4 * w
def R.HG_TGT (k : Nat) : Nat := 0xA0000 + 4 * k

-- terms

/-- The configured terms (R301, R316). -/
def State.hgTerms (s : State) : List Nat :=
  s.io.filterMap (fun e =>
    if 0x90000 ≤ e.1 ∧ e.1 < 0xA0000 ∧ e.1 % 32 = 0 ∧ e.2.getLsbD 0 = true then some ((e.1 - 0x90000) / 32) else none)
/-- Source j of a term: its 16-bit selector (R302, R316). -/
def State.hgSrc (s : State) (t j : Nat) : Nat := (s.rd (R.HG_TERM t (1 + j / 2))).toNat >>> (16 * (j % 2)) % 2 ^ 16
/-- Number of sources and segment of a term (R316). -/
def State.hgNsrc (s : State) (t : Nat) : Nat := s.fld (R.HG_TERM t 0) ⟨3, 4⟩
def State.hgSeg (s : State) (t : Nat) : Nat := s.fld (R.HG_TERM t 0) ⟨7, 3⟩
/-- The control die that a source stands on (R302); none for what the hub holds. -/
def srcDie (sel : Nat) : Option Nat :=
  let i := sel % 4096
  match sel / 4096 % 8 with
  | 1 => some (i / 12)
  | 2 => some (i / 96)
  | 3 => some (i / 256)
  | _ => none
/-- A source before its inversion (R302), read at the raw unit (R303). -/
def State.hgRead (s : State) (sel : Nat) : Bool :=
  let i := sel % 4096
  match sel / 4096 % 8 with
  | 1 => (s.fld (R.PW_TRIP_STAT (i / 3)) F.PW_TRIP_STAT_FILT).testBit (i % 3)
  | 2 => s.bit (R.SD_STAT (i / 2)) (if i % 2 = 0 then F.SD_STAT_CMP_HI else F.SD_STAT_CMP_LO)
  | 3 => s.flag (i / 64) (i % 64)
  | 4 => s.fld (R.FP_S_STAT i) F.FP_S_STAT_STATE ≠ 3
  | 5 => (s.edgeX i).pin
  | _ => false
/-- The region of a source that stands in one: R480 holds its value true while the region is held. -/
def srcRegion (sel : Nat) : Nat :=
  let i := sel % 4096
  match sel / 4096 % 8 with
  | 1 => i / 3
  | 2 => i / 24
  | _ => i / 64
/-- A source as the operator takes it: inverted by INV, and true on a fenced die or in a held region (R302, R303, R480). -/
def State.hgSource (s : State) (sel : Nat) : Bool :=
  match srcDie sel with
  | some d => s.fenced d || s.regionHeld (srcRegion sel) || (s.hgRead sel != decide (sel ≥ 0x8000))
  | none => s.hgRead sel != decide (sel ≥ 0x8000)
/-- The sources of a term as they are now. -/
def State.hgSources (s : State) (t : Nat) : List Bool :=
  (List.range (s.hgNsrc t)).map (fun j => s.hgSource (s.hgSrc t j))
/-- The raw value of a term (R301); true when the die of its segment or of one of its sources is fenced (R37,
R304). -/
def State.hgRaw (s : State) (t : Nat) : Bool :=
  if (s.hgSeg t < 4 && s.fenced (s.hgSeg t)) || (List.range (s.hgNsrc t)).any (fun j =>
      match srcDie (s.hgSrc t j) with
      | some d => s.fenced d
      | none => false) then true
  else if s.bit (R.HG_TERM t 0) ⟨1, 1⟩ then (s.hgSources t).any id else (s.hgSources t).all id
/-- The state of a term. -/
def State.hgTrue (s : State) (t : Nat) : Bool := (s.rd (R.HG_STATE (t / 32))).getLsbD (t % 32)
/-- The terms that are true. -/
def State.hgTrues (s : State) : List Nat := s.hgTerms.filter s.hgTrue

-- targets

/-- A target entry: KIND, BIT and INDEX (R306); BIT is that of an output bit, and 0 for any other target. -/
structure HgTgt where
  kind : Nat
  bit : Nat
  index : Nat
  deriving DecidableEq, Repr
/-- A word of the target table as a target. -/
def HgTgt.ofWord (w : Word) : HgTgt :=
  ⟨w.toNat % 8, if w.toNat % 8 = 2 then w.toNat / 8 % 32 else 0, w.toNat / 256 % 2 ^ 16⟩
/-- The targets that a term names (R306). -/
def State.hgTargets (s : State) (t : Nat) : List HgTgt :=
  let w := (s.rd (R.HG_TERM t 5)).toNat
  (List.range (w / 2 ^ 13 % 256)).map (fun i => HgTgt.ofWord (s.rd (R.HG_TGT (w % 2 ^ 13 + i))))
/-- The targets of some terms. -/
def State.hgAllTargets (s : State) (ts : List Nat) : List HgTgt := (ts.map s.hgTargets).flatten
/-- Some term of a list names a unit. -/
def State.hgHits (s : State) (ts : List Nat) (kind index : Nat) : Bool :=
  (s.hgAllTargets ts).any (fun g => g.kind = kind && g.index = index)
/-- The targeted bits of an output word. -/
def State.hgMask (s : State) (ts : List Nat) (w : Nat) : Word :=
  (s.hgAllTargets ts).foldl (fun m g => if g.kind = 2 ∧ g.index = w then m ||| (1 <<< g.bit) else m) 0
/-- The output words that some terms target. -/
def State.hgWords (s : State) (ts : List Nat) : List Nat :=
  (((s.hgAllTargets ts).filter (fun g => g.kind = 2)).map (fun g => g.index)).eraseDups
/-- A bit of the train that is on the wire of a ring is rewritten (R307, R361), if its byte has yet to leave: REW is set in the
segment, which both ports count once. A byte leaves when the time of the bytes before it has passed (log 257). -/
def State.hgFly (s : State) (r : Nat) (g : HgTgt) (now : Nat) : State :=
  let x := s.ringX r
  let hits := (s.wordPlaces r g.index).filter (fun e => (now - x.sentAt) * 10 < (e.2 + g.bit / 8) * s.byteTime r)
  if !x.sent || hits = [] then s
  else
    let m : Word := 1 <<< g.bit
    let new := (hits.map Prod.fst).filter (fun k => !x.rew.contains k)
    let s := (s.setRingX r { x with rew := x.rew ++ new }).emit (.rewrite r g.index (s.wordFallow g.index &&& m) m)
    s.each [2 * r, 2 * r + 1] (fun s p => s.addTo (R.FP_REW_CNT p) new.length)
/-- A slot is local: it takes the unit's own term state at once (R309). -/
def State.slotLocal (s : State) (k : Nat) : Bool := !s.bit (R.LE_CFG k) F.LE_CFG_TIMING
/-- A target that is acted on from now on without waiting (R306, R309). -/
def State.hgAct (s : State) (g : HgTgt) (now : Nat) : State :=
  match g.kind with
  | 1 => s.pwForce g.index 0
  | 2 => s.each s.usedRings (fun s r => s.hgFly r g now)
  | 3 => s.when (s.slotLocal g.index) (fun s => s.setFcause g.index 0 (tagOf now))
  | _ => s
/-- A target that no true term names any more (R306, R311). -/
def State.hgLet (s : State) (g : HgTgt) : State :=
  match g.kind with
  | 1 => s.pwRelease g.index 0
  | 3 => s.when (s.slotLocal g.index) (fun s => s.clrFcause g.index 0)
  | _ => s
/-- The targets that were and are acted on: new ones act, and those without a true term are let go. -/
def State.hgMove (s : State) (before after : List HgTgt) (now : Nat) : State :=
  let s := s.each ((after.filter (fun g => !before.contains g)).eraseDups) (fun s g => s.hgAct g now)
  s.each ((before.filter (fun g => !after.contains g)).eraseDups) (fun s g => s.hgLet g)

-- the control path

/-- Put an element into a list once. -/
def addOnce (l : List Nat) (t : Nat) : List Nat := if l.contains t then l else l ++ [t]
/-- A term transition as the control path takes it (R309): a true one is held as pending for Phase S, Phase L and the
close. -/
def State.hgCtl (s : State) (t : Nat) (up : Bool) : State :=
  let h := s.hg
  if up then
    { s with hg := ⟨addOnce h.ctl t, addOnce h.pendS t, addOnce h.pendL t, addOnce h.pendC t⟩ }
  else { s with hg := { h with ctl := h.ctl.filter (fun u => u ≠ t) } }
/-- A transition of the term concerns targets that take their state from the log (R309). -/
def State.hgConcerns (s : State) (t : Nat) : Bool :=
  (s.hgTargets t).any (fun g => g.kind = 2 || g.kind = 4 || g.kind = 5 || (g.kind = 3 && !s.slotLocal g.index))
/-- The term has a target on this unit's own pins (R431): a pair or a stepper axis that it owns. -/
def State.hgOwnPins (s : State) (t : Nat) : Bool :=
  (s.hgTargets t).any (fun g =>
    (g.kind = 1 && s.bit (R.PW_CFG g.index) F.PW_CFG_USED && !s.bit (R.PW_STAT g.index) F.PW_STAT_NOT_OWNER) ||
      (g.kind = 4 && s.axStepper g.index && s.fld (R.AX_CFG g.index) F.AX_CFG_OWNER = s.unit))
/-- A transition reaches the control path: at once in a single unit, through the log of a lease holder (R309); a standby
sends what concerns its own pins (R431). -/
def State.hgReport (s : State) (t : Nat) (up : Bool) (tag : Word) : State :=
  let k := LogKind.term (Fin.ofNat 2048 t) up
  if s.role = 0 then s.hgCtl t up
  else if s.role = 1 then s.when (s.hgConcerns t) (fun s => s.logAdd tag k)
  else (s.when (s.hgOwnPins t) (fun s => s.linkSend (.fromStandby k))).when (s.hgConcerns t) (fun s => s.seenAdd tag k)
/-- The terms that count as true at the Phase S gate, the Phase L gate and the close (R309). -/
def State.hgAtS (s : State) : List Nat := s.hg.ctl ++ s.hg.pendS
def State.hgAtL (s : State) : List Nat := s.hg.ctl ++ s.hg.pendL
def State.hgAtC (s : State) : List Nat := s.hg.ctl ++ s.hg.pendC

-- evaluation

/-- The mask of the true sources of a term. -/
def State.hgSrcMask (s : State) (t : Nat) : Nat :=
  ((List.range (s.hgNsrc t)).filter (fun j => s.hgSource (s.hgSrc t j))).foldl (fun m j => m + 2 ^ j) 0
/-- A term becomes true: its state, SEEN, the last term, and its event (R316). -/
def State.hgRise (s : State) (t now : Nat) : State :=
  let tag := tagOf now
  let s := (s.set1 (R.HG_STATE (t / 32)) ⟨t % 32, 1⟩).set1 (R.HG_SEEN (t / 32)) ⟨t % 32, 1⟩
  let s := (s.wr R.HG_LAST (Word.ofN t)).wr R.HG_LAST_T tag
  let s := s.event 0x4001 (s.fld (R.HG_TERM t 0) ⟨10, 2⟩) 0xE (0x800 + t) (Word.ofN t)
    (Word.ofN (s.hgSrcMask t)) tag
  (s.hgReport t true tag).ceTerm t true now
/-- A term becomes false. -/
def State.hgFall (s : State) (t now : Nat) : State :=
  ((s.setFld (R.HG_STATE (t / 32)) ⟨t % 32, 1⟩ 0).hgReport t false (tagOf now)).ceTerm t false now
/-- Give every term of a list of (term, new state) its state, in order. -/
def State.hgSet (s : State) (before : List HgTgt) (new : List (Nat × Bool)) (now : Nat) : State :=
  let s := s.each (new.filter (fun e => e.2)) (fun s e => if s.hgTrue e.1 then s else s.hgRise e.1 now)
  let s := s.each (new.filter (fun e => !e.2)) (fun s e => if s.hgTrue e.1 then s.hgFall e.1 now else s)
  let ts := s.hgTrues
  (s.wr R.HG_TRUE_CNT (Word.ofN ts.length)).hgMove before (s.hgAllTargets ts) now
/-- The terms take their sources as they are now (R301, R305). -/
def State.hgEval (s : State) (now : Nat) : State :=
  let old := s.hgTrues
  let new := s.hgTerms.map (fun t => (t, s.hgRaw t || (s.bit (R.HG_TERM t 0) ⟨2, 1⟩ && s.hgTrue t)))
  if new.all (fun e => e.2 = s.hgTrue e.1) then s else s.hgSet (s.hgAllTargets old) new now
/-- RESET of the latched terms of a list (R301). -/
def State.hgResetOf (s : State) (ts : List Nat) (now : Nat) : State :=
  let ts := ts.filter (fun t => s.bit (R.HG_TERM t 0) ⟨0, 1⟩ && s.bit (R.HG_TERM t 0) ⟨2, 1⟩ && s.hgTrue t &&
    !s.hgRaw t)
  if ts = [] then s else s.hgSet (s.hgAllTargets s.hgTrues) (ts.map (fun t => (t, false))) now
/-- A command code of HG_CMD with its term (R301, R315). -/
def State.hgCommand (s : State) (code t now : Nat) : State :=
  match code with
  | 1 => s.hgResetOf [t] now
  | 2 => s.hgResetOf s.hgTerms now
  | _ => s

-- placement and patch

/-- The segment that R304 gives a term. -/
def State.hgPlace (s : State) (t : Nat) : Nat :=
  let dies := (List.range (s.hgNsrc t)).map (fun j => srcDie (s.hgSrc t j))
  match dies.head? with
  | some (some d) =>
    if dies.all (fun x => x = some d) &&
        (s.hgTargets t).all (fun g => g.kind ≠ 1 || g.index / 48 = d) then d else 4
  | _ => 4
/-- The placement rules of R304 hold for every configured term. -/
def State.hgPlaced (s : State) : Bool :=
  s.hgTerms.all (fun t => s.hgSeg t = s.hgPlace t) &&
    (List.range 4).all (fun d => (s.hgTerms.filter (fun t => s.hgSeg t = d)).length ≤ 512)
/-- A source selector that R302 allows, on the variant's dies. -/
def State.hgSelOk (s : State) (sel : Nat) : Bool :=
  let i := sel % 4096
  match sel / 4096 % 8 with
  | 0 => i = 0
  | 1 => i < 12 * s.dies
  | 2 => i < 96 * s.dies
  | 3 => i < 256 * s.dies
  | 4 => i < 504
  | 5 => i < 64
  | _ => false
/-- A word of a term entry that R302, R306 and R316 allow. -/
def State.hgWordOk (s : State) (sub : Nat) (v : Word) : Bool :=
  let n := v.toNat
  match sub with
  | 0 => 1 ≤ n / 8 % 16 && n / 8 % 16 ≤ 8 && n / 128 % 8 ≤ 4 && n / 1024 % 4 ≤ 2 && n < 4096
  | 5 => 1 ≤ n / 2 ^ 13 && n / 2 ^ 13 ≤ 255 && n % 2 ^ 13 + n / 2 ^ 13 ≤ 8192
  | _ => s.hgSelOk (n % 2 ^ 16) && s.hgSelOk (n / 2 ^ 16)
/-- A word of an unused term (R301): its counts and its segment are open. -/
def State.hgIdleOk (s : State) (sub : Nat) (v : Word) : Bool :=
  let n := v.toNat
  match sub with
  | 0 => n / 1024 % 4 ≤ 2 && n < 4096
  | 5 => n < 2 ^ 21
  | _ => s.hgSelOk (n % 2 ^ 16) && s.hgSelOk (n / 2 ^ 16)
/-- A target word that R306 allows. -/
def State.hgTgtOk (s : State) (v : Word) : Bool :=
  let g := HgTgt.ofWord v
  v.toNat < 2 ^ 24 &&
    (match g.kind with
    | 1 => g.index < 48 * s.dies
    | 2 => true
    | 3 => g.index < 1024 * s.dies
    | 4 => g.index < 32 * s.dies
    | 5 => g.index < 16
    | _ => false)
/-- A configured term whose words and targets R302, R306 and R316 allow. -/
def State.hgTermOk (s : State) (t : Nat) : Bool :=
  (List.range 6).all (fun w => s.hgWordOk w (s.rd (R.HG_TERM t w))) &&
    (s.hgTargets t).all (fun g => s.hgTgtOk (Word.ofN (g.kind + 8 * g.bit + 256 * g.index)))
/-- A patch entry (R313). -/
structure HgPatch where
  kind : Nat
  sub : Nat
  index : Nat
  old : Word
  new : Word
  deriving DecidableEq, Repr
/-- The patch entry of four words. -/
def HgPatch.ofWords (e : Word × Word × Word × Word) : HgPatch :=
  ⟨e.1.toNat % 16, e.1.toNat / 16 % 8, e.2.1.toNat % 2 ^ 16, e.2.2.1, e.2.2.2⟩
/-- The item of a patch entry as it stands. -/
def State.hgItem (s : State) (e : HgPatch) : Word :=
  match e.kind with
  | 1 => s.rd (R.HG_TERM e.index e.sub)
  | 2 => s.rd (R.HG_TGT e.index)
  | 3 => s.rd (R.SLOT_FALLOW e.index)
  | 4 => s.rd (R.WORD_FALLOW e.index)
  | _ => Word.ofN (s.fld (R.PW_CFG e.index) F.PW_CFG_FALLOW)
/-- Write the item of a patch entry; a pair pattern also reaches the pad-ring latch. -/
def State.hgWrite (s : State) (e : HgPatch) : State :=
  match e.kind with
  | 1 => s.wr (R.HG_TERM e.index e.sub) e.new
  | 2 => s.wr (R.HG_TGT e.index) e.new
  | 3 => s.wr (R.SLOT_FALLOW e.index) e.new
  | 4 => s.wr (R.WORD_FALLOW e.index) e.new
  | _ =>
    let s := s.setFld (R.PW_CFG e.index) F.PW_CFG_FALLOW e.new.toNat
    s.when (s.pwPinned e.index) (fun s => s.pwDrive e.index)
/-- The range of the index of a kind (R313). -/
def State.hgLimit (s : State) (kind : Nat) : Nat :=
  match kind with
  | 1 => 2048 | 2 => 8192 | 3 => 1024 * s.dies | 4 => 65536 | _ => 48 * s.dies
/-- The entries that HG_PATCH_BUF holds, COUNT of them (R313). -/
def State.patchBuf (s : State) : List (Word × Word × Word × Word) :=
  (List.range (min 64 (s.fld R.HG_PATCH_CTRL F.HG_PATCH_CTRL_COUNT))).map (fun i =>
    (s.rd (R.HG_PATCH_BUF (4 * i)), s.rd (R.HG_PATCH_BUF (4 * i + 1)), s.rd (R.HG_PATCH_BUF (4 * i + 2)),
      s.rd (R.HG_PATCH_BUF (4 * i + 3))))
/-- The value of an entry is one that an image may hold; `t` is the state that the whole patch would leave, in which the whole
of a term that is used must be allowed. -/
def State.hgValueOk (s t : State) (e : HgPatch) : Bool :=
  match e.kind with
  | 1 =>
    if t.bit (R.HG_TERM e.index 0) ⟨0, 1⟩ then
      s.hgWordOk e.sub e.new && t.hgTermOk e.index && t.hgSeg e.index = t.hgPlace e.index
    else s.hgIdleOk e.sub e.new
  | 2 => (e.new = 0 || s.hgTgtOk e.new) && t.hgTerms.all (fun u =>
      let w := (t.rd (R.HG_TERM u 5)).toNat
      e.index < w % 2 ^ 13 || e.index ≥ w % 2 ^ 13 + w / 2 ^ 13 % 256 || (s.hgTgtOk e.new && t.hgSeg u = t.hgPlace u))
  | 3 => F32.finite e.new
  | 4 => true
  | _ => e.new.toNat < 3
/-- Two entries name the same item. -/
def HgPatch.same (a b : HgPatch) : Bool := a.kind = b.kind && a.index = b.index && (a.kind ≠ 1 || a.sub = b.sub)
/-- The cause of the first failing check of an entry (R313), 0 for none. -/
def State.hgEntry (s t : State) (earlier : List HgPatch) (e : HgPatch) : Nat :=
  if s.mode ≠ 1 then 1
  else if e.kind = 0 ∨ e.kind > 5 ∨ (e.kind = 1 ∧ e.sub > 5) then 2
  else if e.index ≥ s.hgLimit e.kind then 3
  else if !s.hgValueOk t e then 4
  else if s.hgItem e ≠ e.old then 5
  else if earlier.any e.same then 6
  else 0
/-- The first failing entry and its cause. -/
def State.hgCheck (s t : State) (i : Nat) (earlier : List HgPatch) : List HgPatch → Option (Nat × Nat)
  | [] => none
  | e :: rest =>
    let c := s.hgEntry t earlier e
    if c ≠ 0 then some (i, c) else s.hgCheck t (i + 1) (e :: earlier) rest
/-- Apply a confirmed patch (R313): as a whole, or not at all. A die segment that would hold more than 512 terms
(R304) fails the last entry. -/
def State.hgPatch (s : State) (ws : List (Word × Word × Word × Word)) (now : Nat) : State :=
  let es := ws.map HgPatch.ofWords
  let t := s.each es (fun s e => s.hgWrite e)
  let a := R.HG_PATCH_STAT
  let s := (s.setFld a F.HG_PATCH_STAT_PENDING 0).set1 a F.HG_PATCH_STAT_DONE
  let fail := match s.hgCheck t 0 [] es with
    | some f => some f
    | none => if t.hgPlaced then none else some (es.length - 1, 4)
  match fail with
  | some (i, c) => (s.setFld a F.HG_PATCH_STAT_CAUSE c).setFld a F.HG_PATCH_STAT_INDEX i
  | none =>
    let before := s.hgAllTargets s.hgTrues
    let touched := (es.filter (fun e => e.kind = 1)).map (fun e => e.index)
    let gone := s.hgTrues
    let s := (s.setFld a F.HG_PATCH_STAT_CAUSE 0).setFld a F.HG_PATCH_STAT_INDEX 0
    let s := s.each es (fun s e => s.hgWrite e)
    let ts := s.hgTerms
    let s := s.setFld R.HG_CFG F.HG_CFG_NTERM ts.length
    let off := gone.filter (fun t => !ts.contains t)
    let new := ts.map (fun t =>
      (t, s.hgRaw t || (!touched.contains t && s.bit (R.HG_TERM t 0) ⟨2, 1⟩ && s.hgTrue t)))
    s.hgSet before (new ++ off.map (fun t => (t, false))) now

/-- HG_RESET (R301). -/
def execHgReset (t : TermIx) (s : State) : Host.Outcome State Fault Refusal := .next (s.hgCommand 1 t s.t0)
/-- HG_RESET_ALL (R301). -/
def execHgResetAll (s : State) : Host.Outcome State Fault Refusal := .next (s.hgCommand 2 0 s.t0)
end Sys2Proof.Machine
end

