-- ==== Sys2Proof/Machine/Net.lean ====
section
/-!
DEFINITION. The net engine: nodes (R187 to R190), their operations (R192, R193, R197 to R200), timers and counters
(R202 to R204), and the evaluation of a partition (R186, R194, R195). An evaluation reads variables through a
function and answers the list of its writes, in order.
-/
namespace Sys2Proof.Machine

/-- A node (R187 to R189). -/
structure NetNode where
  opc : Nat
  ty : Nat
  kb : Bool
  inv : Bool
  opt : Bool
  a : Nat
  b : Nat
  c : Nat
  dst : Nat
  konst : Nat
  next : Nat
  last : Bool
  gated : Bool
  deriving DecidableEq, Repr, Inhabited

/-- The node that four words hold (R187 to R189). -/
def NetNode.ofWords (w0 w1 w2 w3 : Word) : NetNode :=
  let n := w0.toNat + w1.toNat * 2 ^ 32 + w2.toNat * 2 ^ 64 + w3.toNat * 2 ^ 96
  let f (lsb len : Nat) : Nat := (n >>> lsb) % 2 ^ len
  ⟨f 0 7, f 7 2, f 9 1 = 1, f 10 1 = 1, f 11 1 = 1, f 12 20, f 32 20, f 52 20, f 72 20, f 92 16, f 108 13,
    f 121 1 = 1, f 122 1 = 1⟩
/-- Node i of the store of a region (R208). -/
def State.netNode (s : State) (r i : Nat) : NetNode :=
  let a := R.NODE r i
  NetNode.ofWords (s.rd a) (s.rd (a + 4)) (s.rd (a + 8)) (s.rd (a + 12))

/-- What an instance holds while it is evaluated: the values it has written, its writes in order with the newest
first, EN, and the status bits of the node that set the last ones. -/
structure NetRun where
  ov : List (Nat × Word)
  wr : List (Nat × Word)
  en : Bool
  fx : Fx
  last : Option Nat
  deriving DecidableEq, Repr, Inhabited

/-- What the surroundings give an evaluation: the variables as they read for the task, the force laid over a
written value (R238), the declared types (R191), and DT in nanoseconds (R202). -/
structure NetEnv where
  read : Nat → Word
  forced : Nat → Word → Word
  ty : Nat → Ty
  dt : Nat

/-- A read of a reference (R55, R194, R195, R238). -/
def NetRun.get (x : NetRun) (env : NetEnv) (ref : Nat) : Word :=
  if ref = Ref.none then 0
  else match Smap.find x.ov ref with
    | some v => if Ref.space ref = 1 ∨ Ref.space ref = 2 then env.forced ref v else v
    | none => env.read ref
/-- A write of a reference. -/
def NetRun.put (x : NetRun) (ref : Nat) (v : Word) : NetRun :=
  if ref = Ref.none then x else { x with ov := Smap.put x.ov ref v, wr := (ref, v) :: x.wr }

/-- The truth of a value in a type code (R192). -/
def netTruth (ty : Nat) (w : Word) : Bool := if ty = 2 then !F32.isNaN w && !F32.isZero w else w ≠ 0
/-- The 0-or-1 word of a truth. -/
def boolWord (b : Bool) : Word := if b then 1 else 0
/-- An integer operand in a type code. -/
def netInt (ty : Nat) (w : Word) : Int := if ty = 0 then w.toInt else w.toNat
/-- An integer result: saturated, or wrapped (R198). -/
def netSat (ty : Nat) (wrap : Bool) (v : Int) : Word × Fx :=
  let lo : Int := if ty = 0 then -(2 ^ 31) else 0
  let hi : Int := if ty = 0 then 2 ^ 31 - 1 else 2 ^ 32 - 1
  if wrap then (Word.ofI v, Fx.none)
  else if v > hi then (Word.ofI hi, ⟨true, false, false⟩)
  else if v < lo then (Word.ofI lo, ⟨true, false, false⟩)
  else (Word.ofI v, Fx.none)
/-- Operand B of a node with KB = 1 (R193). -/
def NetNode.kbVal (nd : NetNode) : Word :=
  if nd.ty = 2 then Word.ofN (nd.konst * 65536)
  else if nd.ty = 0 then Word.ofI (BitVec.ofNat 16 nd.konst).toInt
  else Word.ofN nd.konst

/-- A < B, A = B and A ≤ B in a type code. -/
def netLt (ty : Nat) (a b : Word) : Bool := if ty = 2 then F32.lt a b else netInt ty a < netInt ty b
def netEq (ty : Nat) (a b : Word) : Bool := if ty = 2 then F32.eq a b else a = b
def netLe (ty : Nat) (a b : Word) : Bool := netLt ty a b || netEq ty a b
/-- The distance from A to B is at most C (INBAND), exact. -/
def netInband (ty : Nat) (a b c : Word) : Bool :=
  if ty = 2 then
    let d := (F32.sub a b).1
    if F32.isNaN a || F32.isNaN b || F32.isNaN c then false
    else if F32.finite a && F32.finite b && F32.finite c then
      ((F32.toDy a).sub (F32.toDy b)).abs.le (F32.toDy c)
    else F32.le (d &&& 0x7FFFFFFF) c
  else ((netInt ty a - netInt ty b).natAbs : Int) ≤ netInt ty c

/-- The arithmetic operations (R197 to R199). -/
def netArith (opc ty : Nat) (opt : Bool) (a b c : Word) : Word × Fx :=
  let x := netInt ty a
  let y := netInt ty b
  let z := netInt ty c
  let divz : Fx := ⟨false, true, false⟩
  if ty = 2 then
    match opc with
    | 0x20 => F32.sum [a, b, c]
    | 0x21 => F32.sub a b
    | 0x22 => F32.mul a b
    | 0x23 => F32.div a b
    | 0x25 => F32.neg a
    | 0x26 => F32.abs a
    | 0x29 => F32.muladd a b c
    | _ => F32.sqrt a
  else
    match opc with
    | 0x20 => netSat ty opt (x + y + z)
    | 0x21 => netSat ty opt (x - y)
    | 0x22 => netSat ty opt (x * y)
    | 0x23 =>
      if y = 0 then
        (if x = 0 then 0 else if ty = 1 then 0xFFFFFFFF else if x > 0 then 0x7FFFFFFF else 0x80000000, divz)
      else netSat ty false (Int.tdiv x y)
    | 0x24 => if y = 0 then (0, divz) else (Word.ofI (Int.tmod x y), Fx.none)
    | 0x25 => netSat ty false (-x)
    | 0x26 => netSat ty false x.natAbs
    | _ => netSat ty opt (x * y + z)

/-- The elapsed time and FLAGS (PREV, Q, RUN) of a timer after one execution (R203). -/
def netTimer (opc : Nat) (inp : Bool) (pt dt et flags : Nat) : Nat × Bool × Bool :=
  let prev := flags.testBit 0
  let q := flags.testBit 1
  let run := flags.testBit 2
  let up := min (et + dt) (2 ^ 64 - 1)
  match opc with
  | 0x40 =>
    if !inp then (0, false, run) else if !prev then (0, pt = 0, run) else (up, up ≥ pt, run)
  | 0x41 =>
    if inp then (0, true, run) else if prev then (0, pt ≠ 0, run)
    else if q then (up, up < pt, run) else (et, q, run)
  | _ =>
    if run then let r := !(decide (up ≥ pt)); (up, r, r)
    else if inp && !prev then (0, pt ≠ 0, pt ≠ 0)
    else (et, run, run)

/-- The result of a node's operation: the word that DST takes (none for no result), whether INV inverts it as a
truth, status bits, and the writes of its instance words. -/
structure NetRes where
  val : Option Word
  bool : Bool
  fx : Fx
  inst : List (Nat × Word)
  deriving DecidableEq, Repr

/-- A truth result. -/
def NetRes.truth (b : Bool) : NetRes := ⟨some (boolWord b), true, Fx.none, []⟩
/-- A word result. -/
def NetRes.word (w : Word) : NetRes := ⟨some w, false, Fx.none, []⟩
/-- A word result with status bits. -/
def NetRes.fxed (p : Word × Fx) : NetRes := ⟨some p.1, false, p.2, []⟩

/-- The operation of a node (R197): `a`, `b` are its operands, `aty` is the declared type of A, `get` reads a
reference. The condition of SEL has its own type, TYPE being that of B and C. -/
def NetNode.eval (nd : NetNode) (get : Nat → Word) (dt : Nat) (aty : Ty) (a b : Word) : NetRes :=
  let c := get nd.c
  let ty := nd.ty
  let bits (f : Word → Word → Word) (g : Bool → Bool → Bool) (c : Word) : NetRes :=
    if nd.opt then NetRes.truth (g (g (a ≠ 0) (b ≠ 0)) (c ≠ 0)) else NetRes.word (f (f a b) c)
  match nd.opc with
  | 0x01 => NetRes.word a
  | 0x02 => bits (· &&& ·) (· && ·) (if nd.c = Ref.none then 0xFFFFFFFF else c)
  | 0x03 => bits (· ||| ·) (· || ·) c
  | 0x04 => bits (· ^^^ ·) (· != ·) c
  | 0x05 => if nd.opt then NetRes.truth (a = 0) else NetRes.word (~~~ a)
  | 0x06 => NetRes.word (if b.toNat ≥ 32 then 0 else a <<< b.toNat)
  | 0x07 => NetRes.word (if ty = 0 then BitVec.sshiftRight a (min b.toNat 31)
      else if b.toNat ≥ 32 then 0 else a >>> b.toNat)
  | 0x08 => NetRes.truth (b.toNat < 32 && a.toNat.testBit b.toNat)
  | 0x10 => NetRes.truth (netEq ty a b)
  | 0x11 => NetRes.truth (!netEq ty a b)
  | 0x12 => NetRes.truth (netLt ty b a)
  | 0x13 => NetRes.truth (netLe ty b a)
  | 0x14 => NetRes.truth (netLt ty a b)
  | 0x15 => NetRes.truth (netLe ty a b)
  | 0x16 => NetRes.truth (netInband ty a b c)
  | 0x17 =>
    let low := if ty = 2 then F32.lt a (F32.sub b c).1 else netInt 0 a < netInt 0 b - netInt 0 c
    if netLt ty b a then NetRes.truth true else if low then NetRes.truth false
    else ⟨none, true, Fx.none, []⟩
  | 0x27 => NetRes.word (if ty = 2 then F32.min a b else if netLt ty b a then b else a)
  | 0x28 => NetRes.word (if ty = 2 then F32.max a b else if netLt ty a b then b else a)
  | 0x30 => NetRes.word (if netTruth (if aty = Ty.f32 then 2 else 1) a then b else c)
  | 0x31 =>
    let hi := if netLt ty b c then c else b
    NetRes.word (if ty = 2 then F32.min (F32.max a c) hi
      else if netLt ty a c then c else if netLt ty hi a then hi else a)
  | 0x38 => ⟨some (boolWord (a ≠ 0 && !c.toNat.testBit 0)), true, Fx.none, [(nd.c, boolWord (a ≠ 0))]⟩
  | 0x39 => ⟨some (boolWord (a = 0 && c.toNat.testBit 0)), true, Fx.none, [(nd.c, boolWord (a ≠ 0))]⟩
  | 0x3A => NetRes.truth (a ≠ 0 || ((get nd.dst ≠ 0) != nd.inv && b = 0))
  | 0x3B => NetRes.truth (b = 0 && (a ≠ 0 || (get nd.dst ≠ 0) != nd.inv))
  | 0x43 =>
    let et := c.toNat + (get (nd.c + 1)).toNat * 2 ^ 32
    NetRes.word (Word.ofN (min (et / 1000) (2 ^ 32 - 1)))
  | 0x44 =>
    let cnt := get nd.dst
    let up : Bool := a ≠ 0 && !c.toNat.testBit 0 && cnt ≠ 0xFFFFFFFF
    ⟨some (if b ≠ 0 then 0 else if up then cnt + 1 else cnt), false, Fx.none, [(nd.c, boolWord (a ≠ 0))]⟩
  | 0x45 =>
    let cnt := get nd.dst
    let dn : Bool := a ≠ 0 && !c.toNat.testBit 0 && cnt ≠ 0
    ⟨some (if b ≠ 0 then Word.ofN nd.konst else if dn then cnt - 1 else cnt), false, Fx.none,
      [(nd.c, boolWord (a ≠ 0))]⟩
  | 0x48 => NetRes.word (F32.ofInt a.toInt)
  | 0x49 => NetRes.word (F32.ofInt a.toNat)
  | 0x4A => let (v, f) := F32.toInt (-(2 ^ 31)) (2 ^ 31 - 1) nd.opt a; ⟨some (Word.ofI v), false, f, []⟩
  | 0x4B => let (v, f) := F32.toInt 0 (2 ^ 32 - 1) nd.opt a; ⟨some (Word.ofI v), false, f, []⟩
  | 0x4C => NetRes.word (if a.toInt < 0 then 0 else a)
  | 0x4D => NetRes.word (if a.toNat > 0x7FFFFFFF then 0x7FFFFFFF else a)
  | _ =>
    if nd.opc = 0x40 ∨ nd.opc = 0x41 ∨ nd.opc = 0x42 then
      let et := c.toNat + (get (nd.c + 1)).toNat * 2 ^ 32
      let pt := if nd.kb then nd.konst * 1000000 else b.toNat * 1000
      let (et, q, run) := netTimer nd.opc (a ≠ 0) pt dt et (get (nd.c + 2)).toNat
      let fl := (if a ≠ 0 then 1 else 0) + (if q then 2 else 0) + (if run then 4 else 0)
      ⟨some (boolWord q), true, Fx.none,
        [(nd.c, Word.ofN et), (nd.c + 1, Word.ofN (et / 2 ^ 32)), (nd.c + 2, Word.ofN fl)]⟩
    else if 0x20 ≤ nd.opc ∧ nd.opc ≤ 0x2A then NetRes.fxed (netArith nd.opc ty nd.opt a b c)
    else ⟨none, false, Fx.none, []⟩

/-- INV on a result (R188): 1 − result for a 0-or-1 result, the bitwise NOT of another; counts take none. -/
def NetNode.invert (nd : NetNode) (r : NetRes) : Option Word :=
  if nd.inv && !(nd.opc = 0x44 || nd.opc = 0x45) then
    r.val.map (fun w => if r.bool then 1 - w else ~~~ w)
  else r.val

/-- Execute node i (R189, R192, R197). -/
def NetNode.exec (nd : NetNode) (env : NetEnv) (i : Nat) (x : NetRun) : NetRun :=
  if nd.gated && !x.en && nd.opc ≠ 0x50 && nd.opc ≠ 0x51 then x
  else
    let a := x.get env nd.a
    let b := if nd.kb then nd.kbVal else x.get env nd.b
    match nd.opc with
    | 0x50 => { x with en := netTruth nd.ty a != nd.inv }
    | 0x51 => { x with en := true }
    | 0x52 => if netTruth nd.ty a then x.put nd.dst 1 else x
    | 0x53 => if netTruth nd.ty a then x.put nd.dst 0 else x
    | _ =>
      let r := nd.eval (x.get env) env.dt (env.ty nd.a) a b
      let x := r.inst.foldl (fun x p => x.put p.1 p.2) x
      let x := match nd.invert r with
        | some w => x.put nd.dst w
        | none => x
      if r.fx = Fx.none then x
      else { x with
        fx := ⟨x.fx.sat || r.fx.sat, x.fx.divz || r.fx.divz, x.fx.inv || r.fx.inv⟩
        last := some i }

/-- Evaluate at most k nodes of a partition from a node on (R186): the run, and the node that comes next, none once the END
node has run. -/
def netRun (node : Nat → NetNode) (env : NetEnv) : (k : Nat) → Option Nat → NetRun → NetRun × Option Nat
  | 0, p, x => (x, p)
  | _ + 1, none, x => (x, none)
  | k + 1, some i, x => netRun node env k (if (node i).last then none else some (node i).next) ((node i).exec env i x)
/-- The nodes of a partition from a node on, in their order, at most `fuel`. -/
def netPath (node : Nat → NetNode) : (fuel : Nat) → Option Nat → List Nat
  | 0, _ => []
  | _ + 1, none => []
  | fuel + 1, some i => i :: netPath node fuel (if (node i).last then none else some (node i).next)

end Sys2Proof.Machine
end

