-- ==== Sys2Proof/Machine/Recipes.lean ====
section
/-!
DEFINITION. The recipe store: directory, step headers, exits, writes, actions and ramps (R144, R145, R149 to R154),
validation and its removal (R146, R147, R182).
-/
namespace Sys2Proof.Machine

-- the directory

/-- Byte address of word w of a directory entry (R144). -/
def rcpDir (n w : Nat) : Nat := 64 * n + 4 * w
/-- Bits of a word of a directory entry (R145). -/
def State.rcpFld (s : State) (n w lsb len : Nat) : Nat := (s.dword (rcpDir n w)).toNat >>> lsb % 2 ^ len
def State.rcpValid (s : State) (n : Nat) : Bool := s.rcpFld n 0 0 1 = 1
def State.rcpInUse (s : State) (n : Nat) : Bool := s.rcpFld n 0 1 1 = 1
def State.rcpRestart (s : State) (n : Nat) : Nat := s.rcpFld n 0 2 2
def State.rcpChamber (s : State) (n : Nat) : Nat := s.rcpFld n 0 4 4
def State.rcpBase (s : State) (n : Nat) : Nat := s.rcpFld n 1 0 16
def State.rcpSteps (s : State) (n : Nat) : Nat := s.rcpFld n 1 16 13
def State.rcpAbortStep (s : State) (n : Nat) : Nat := s.rcpFld n 2 0 12
def State.rcpAbortEn (s : State) (n : Nat) : Bool := s.rcpFld n 2 12 1 = 1
def State.rcpRamps (s : State) (n : Nat) : Nat := s.rcpFld n 2 16 8
def State.rcpRampIdx (s : State) (n : Nat) : Nat := s.rcpFld n 3 0 23
def State.rcpDataIdx (s : State) (n : Nat) : Nat := s.rcpFld n 4 0 23
def State.rcpDataLen (s : State) (n : Nat) : Nat := s.rcpFld n 5 0 24
/-- Set or clear a bit of word 0 of a directory entry. -/
def State.rcpSetBit (s : State) (n b : Nat) (v : Bool) : State :=
  s.setDword (rcpDir n 0) (Fld.put ⟨b, 1⟩ (s.dword (rcpDir n 0)) (if v then 1 else 0))
/-- Set or clear IN_USE (R145). -/
def State.rcpUse (s : State) (n : Nat) (v : Bool) : State := s.rcpSetBit n 1 v

-- step headers

/-- Byte address of a word of the header of a step (R144, R145). -/
def State.stepAddr (s : State) (n step w : Nat) : Nat := 0x10000 + 64 * (s.rcpBase n + step) + 4 * w
/-- Bits of a word of a step header (R149). -/
def State.stepFld (s : State) (n step w lsb len : Nat) : Nat :=
  (s.dword (s.stepAddr n step w)).toNat >>> lsb % 2 ^ len
def State.stepPredict (s : State) (n k : Nat) : Nat := s.stepFld n k 0 12 2
def State.stepExits (s : State) (n k : Nat) : Nat := s.stepFld n k 0 14 3
def State.stepExt (s : State) (n k : Nat) : Bool := s.stepFld n k 0 17 1 = 1
def State.stepHist0 (s : State) (n k : Nat) : Nat := s.stepFld n k 0 18 1
def State.stepWrites (s : State) (n k : Nat) : Nat := s.stepFld n k 1 0 11
def State.stepActs (s : State) (n k : Nat) : Nat := s.stepFld n k 1 11 7
def State.stepWrIdx (s : State) (n k : Nat) : Nat := s.stepFld n k 2 0 23
def State.stepTag (s : State) (n k : Nat) : Nat := s.stepFld n k 3 0 16

/-- An exit descriptor with its extension (R150, R151). -/
structure ExitD where
  typ : Nat
  opt : Nat
  src : Nat
  value : Word
  next : Nat
  rc : Nat
  kind : Nat
  dwell : Nat
  value2 : Word
  src2 : Nat
  win : Nat
  deriving DecidableEq, Repr, Inhabited

/-- Byte address of a word of the extension of an exit (R149, R151). -/
def State.extAddr (s : State) (n k j w : Nat) : Nat := 8 * s.stepWrIdx n k + 16 * j + 4 * w
/-- Exit j of a step (R150); without an extension VALUE2 is 0, SRC2 names no variable and W is 1 (R151). -/
def State.stepExit (s : State) (n k j : Nat) : ExitD :=
  let a := (s.dword (s.stepAddr n k (4 + 3 * j))).toNat
  let b := s.dword (s.stepAddr n k (5 + 3 * j))
  let c := (s.dword (s.stepAddr n k (6 + 3 * j))).toNat
  let ext := s.stepExt n k
  let e1 := (s.dword (s.extAddr n k j 1)).toNat
  ⟨a % 16, a / 16 % 16, a / 256 % 2 ^ 20, b, c % 4096, c / 4096 % 4, c / 16384 % 4, c / 65536,
    if ext then s.dword (s.extAddr n k j 0) else 0, if ext then e1 % 2 ^ 20 else Ref.none,
    if ext then e1 / 2 ^ 20 % 256 else 1⟩
/-- The exits that a step uses (R149). -/
def State.stepExitList (s : State) (n k : Nat) : List ExitD :=
  (List.range (min 4 (s.stepExits n k))).map (s.stepExit n k)

/-- A write entry (R152). -/
structure WriteD where
  target : Nat
  mode : Nat
  ramp : Nat
  value : Word
  deriving DecidableEq, Repr, Inhabited
/-- Byte address of write entry i of a step (R149). -/
def State.writeAddr (s : State) (n k i : Nat) : Nat :=
  8 * (s.stepWrIdx n k + (if s.stepExt n k then 8 else 0) + i)
/-- Write entry i of a step. -/
def State.stepWrite (s : State) (n k i : Nat) : WriteD :=
  let w := (s.dword (s.writeAddr n k i)).toNat
  ⟨w % 2 ^ 20, w / 2 ^ 20 % 16, w / 2 ^ 24, s.dword (s.writeAddr n k i + 4)⟩
/-- The write entries of a step. -/
def State.stepWriteList (s : State) (n k : Nat) : List WriteD :=
  (List.range (s.stepWrites n k)).map (s.stepWrite n k)

/-- An action entry (R153). -/
structure ActD where
  kind : Nat
  opt : Nat
  ref : Nat
  arg : Word
  deriving DecidableEq, Repr, Inhabited
/-- Action entry i of a step; the actions follow the writes (R149). -/
def State.stepAct (s : State) (n k i : Nat) : ActD :=
  let a := s.writeAddr n k (s.stepWrites n k + i)
  let w := (s.dword a).toNat
  ⟨w % 16, w / 16 % 16, w / 256 % 2 ^ 20, s.dword (a + 4)⟩
/-- The action entries of a step. -/
def State.stepActList (s : State) (n k : Nat) : List ActD :=
  (List.range (s.stepActs n k)).map (s.stepAct n k)

/-- A ramp descriptor (R154). -/
structure RampD where
  shape : Nat
  dur : Nat
  beta : Word
  deriving DecidableEq, Repr, Inhabited
/-- Ramp descriptor i, from 1 on. -/
def State.rcpRamp (s : State) (n i : Nat) : RampD :=
  let a := 8 * (s.rcpRampIdx n + 2 * (i - 1))
  let w := (s.dword a).toNat
  ⟨w % 4, w / 256, s.dword (a + 4)⟩

-- validation

/-- The CRC of a recipe over its headers and its data area (R145). -/
def State.rcpCrc (s : State) (n : Nat) : Word :=
  Word.ofN (Crc.of 1 (s.dbytes (s.stepAddr n 0 0) (64 * s.rcpSteps n) ++
    s.dbytes (8 * s.rcpDataIdx n) (8 * s.rcpDataLen n)))
/-- The lane that a chamber is bound to (R142). -/
def State.chamberLane (s : State) (c : Nat) : Option Nat :=
  (List.range 16).find? (fun l => s.fld (R.SQ_CFG l) F.SQ_CFG_CHAMBER = c && s.bit (R.SQ_CFG l) F.SQ_CFG_USED)
/-- A reference names an event flag in space 7 (R56). -/
def isFlagRef (ref : Nat) : Bool := Ref.space ref = 7 && 0x400 ≤ Ref.index ref && Ref.index ref < 0x800
/-- The targets that R143 permits. -/
def State.targetKind (s : State) (chamber ref : Nat) : Bool :=
  let i := Ref.index ref
  match Ref.space ref with
  | 1 => i < 65536
  | 2 => true
  | 4 => let f := i % 32; f = 0 || f = 4 || (6 ≤ f && f ≤ 20)
  | 5 => let f := i % 32; f ≤ 6 || f = 8
  | 6 => s.chamberLane chamber = some (i / 256) &&
      ((8 ≤ i % 256 && i % 256 < 12) || (32 ≤ i % 256 && i % 256 < 64))
  | _ => false
/-- A target of a chamber (R142, R143). -/
def State.targetOk (s : State) (chamber ref : Nat) : Bool :=
  s.img.chambers.contains (chamber, ref) && s.targetKind chamber ref
/-- A constant of space 3 with a declared type (R152). -/
def State.constOk (s : State) (ref : Nat) (t : Ty) : Bool :=
  Ref.space ref = 3 && (Smap.find s.img.decls ref = some t)

/-- FORMAT fails in a step (R146). -/
def State.stepFormatBad (s : State) (n k : Nat) : Bool :=
  s.stepFld n k 0 0 12 ≠ k ||
    (s.stepExitList n k).any (fun x => x.typ ≥ 8) ||
    (s.stepWriteList n k).any (fun w => w.mode ≥ 5 || (w.mode ≠ 1 && w.ramp ≠ 0)) ||
    (s.stepActList n k).any (fun a => a.kind ≥ 9)
/-- LIMIT fails in a step (R146). -/
def State.stepLimitBad (s : State) (n k : Nat) : Bool :=
  let alphaBad (w : Word) : Bool :=
    !F32.finite w || F32.sign w || F32.isZero w || Dy.lt (Dy.ofInt 1) (F32.toDy w)
  s.stepWrites n k > 1024 || s.stepActs n k > 64 || s.stepExits n k > 4 ||
    (s.stepExitList n k).any (fun x => (x.typ = 0 && x.value = 0) ||
      ((x.typ = 2 || x.typ = 3) && !s.stepExt n k) || (x.typ = 3 && (alphaBad x.value2 || x.win = 0)))
/-- Units of a step's write area (R149). -/
def State.stepUnits (s : State) (n k : Nat) : Nat :=
  (if s.stepExt n k then 8 else 0) + s.stepWrites n k + s.stepActs n k
/-- A run of units that is not empty lies in the data area. -/
def State.inData (s : State) (n idx len : Nat) : Bool :=
  len = 0 || (s.rcpDataIdx n ≤ idx && idx + len ≤ s.rcpDataIdx n + s.rcpDataLen n)
/-- RANGE fails in a step (R146). -/
def State.stepRangeBad (s : State) (n k : Nat) : Bool :=
  let steps := s.rcpSteps n
  (s.stepExitList n k).any (fun x => (x.kind ≤ 1 && x.next ≥ steps) || (x.kind = 1 && k + 1 ≥ steps)) ||
    (s.stepWriteList n k).any (fun w => w.mode = 1 && (w.ramp = 0 || w.ramp > s.rcpRamps n)) ||
    !s.inData n (s.stepWrIdx n k) (s.stepUnits n k)
/-- TARGET fails in a step (R146). -/
def State.stepTargetBad (s : State) (n k : Nat) : Bool :=
  let c := s.rcpChamber n
  (s.stepWriteList n k).any (fun w => !s.targetOk c w.target) ||
    (s.stepActList n k).any (fun a => (a.kind = 4 && !s.targetOk c a.ref) || (a.kind = 5 && !isFlagRef a.ref))
/-- TYPE fails in a step (R146, R151 to R153, R164); a NaN or an infinity is no binary32 VALUE (log 40). -/
def State.stepTypeBad (s : State) (n k : Nat) : Bool :=
  (s.stepWriteList n k).any (fun w =>
      let t := s.refTy w.target
      (w.mode = 1 && t ≠ .f32) || ((w.mode = 3 || w.mode = 4) && t ≠ .u32) ||
        (w.mode = 2 && !s.constOk (w.value.toNat % 2 ^ 20) t)) ||
    (s.stepActList n k).any (fun a => a.kind = 4 && s.refTy a.ref ≠ .u32) ||
    (s.stepExitList n k).any (fun x => (x.typ = 4 && !isFlagRef x.src) || (x.typ = 3 && !F32.finite x.value) ||
      ((x.typ = 1 || x.typ = 2) && s.refTy x.src = .f32 && !(F32.finite x.value && F32.finite x.value2)))
/-- LOCAL fails in a step (R146). SRC2 of a step with an extension counts whether or not its exit's TYPE and OPT use it
(DESIGN CHOICE, log 249). -/
def State.stepLocalBad (s : State) (n k : Nat) : Bool :=
  let loc (ref : Nat) : Bool := s.isLocal ref
  (s.stepExitList n k).any (fun x => (x.typ ≠ 0 && x.typ ≠ 5 && loc x.src) || (s.stepExt n k && loc x.src2)) ||
    (s.stepWriteList n k).any (fun w => loc w.target || (w.mode = 2 && loc (w.value.toNat % 2 ^ 20))) ||
    (s.stepActList n k).any (fun a => (a.kind = 4 || a.kind = 5) && loc a.ref)
/-- Byte ranges of a recipe: its headers and its data area. -/
def State.rcpRanges (s : State) (n : Nat) : List (Nat × Nat) :=
  [(s.stepAddr n 0 0, s.stepAddr n 0 0 + 64 * s.rcpSteps n),
    (8 * s.rcpDataIdx n, 8 * s.rcpDataIdx n + 8 * s.rcpDataLen n)]
/-- Two recipes overlap (R146). -/
def State.rcpOverlap (s : State) (n m : Nat) : Bool :=
  (s.rcpRanges n).any (fun a => (s.rcpRanges m).any (fun b => a.1 < a.2 && b.1 < b.2 && a.1 < b.2 && b.1 < a.2))
/-- The first failing check of a recipe in the order of R146; 0 for none. NSTEPS outside 1 to 4,096 and headers past the pool
are RANGE (DESIGN CHOICE, log 250). -/
def State.rcpCheck (s : State) (n : Nat) : Nat :=
  let ks := List.range (s.rcpSteps n)
  let steps := s.rcpSteps n
  if s.rcpInUse n then 6
  else if s.rcpCrc n ≠ s.dword (rcpDir n 6) then 1
  else if s.rcpRestart n = 3 || ks.any (s.stepFormatBad n) ||
      (List.range (s.rcpRamps n)).any (fun i => (s.rcpRamp n (i + 1)).shape = 3) then 9
  else if ks.any (s.stepLimitBad n) ||
      (List.range (s.rcpRamps n)).any (fun i => (s.rcpRamp n (i + 1)).dur = 0) then 8
  else if steps = 0 || steps > 4096 || s.rcpBase n + steps > 65536 || ks.any (s.stepRangeBad n) ||
      (s.rcpAbortEn n && s.rcpAbortStep n ≥ steps) ||
      !s.inData n (s.rcpRampIdx n) (2 * s.rcpRamps n) then 2
  else if ks.any (s.stepTargetBad n) then 3
  else if ks.any (s.stepTypeBad n) then 4
  else if s.pairEn && ks.any (s.stepLocalBad n) then 5
  else if (List.range 256).any (fun m => m ≠ n && s.rcpValid m && s.rcpOverlap n m) then 7
  else 0
/-- Show the result of a recipe command. -/
def State.rcpStat (s : State) (pass : Bool) (cause : Nat) : State :=
  (s.setB R.SQ_RCP_STAT F.SQ_RCP_STAT_PASS pass).setFld R.SQ_RCP_STAT F.SQ_RCP_STAT_CAUSE cause
/-- Validate a recipe and show the result (R146); a recipe in use keeps VALID (log 41). -/
def State.rcpValidate (s : State) (n : Nat) : State :=
  let c := s.rcpCheck n
  (s.rcpStat (c = 0) c).when (c ≠ 6) (fun s => s.rcpSetBit n 0 (c = 0))
/-- VALIDATE applies (R146, R182): its bit stays until the validation is complete (R12). -/
def State.rcpStart (s : State) (n : Nat) : State :=
  if s.bit R.SQ_RCP_STAT F.SQ_RCP_STAT_BUSY then s.rcpStat false 6
  else { (s.set1 R.SQ_RCP_STAT F.SQ_RCP_STAT_BUSY).set1 R.SQ_RCP_CTRL F.SQ_RCP_CTRL_VALIDATE with validating := n }
/-- INVALIDATE applies (R147). -/
def State.rcpInvalidate (s : State) (n : Nat) : State :=
  if s.rcpInUse n then s.rcpStat false 6
  else (s.rcpStat false 0).rcpSetBit n 0 false
/-- A byte of the recipe store that a VALID recipe protects (R147). -/
def State.rcpProtects (s : State) (a : Nat) : Bool :=
  (List.range 256).any (fun n => s.rcpValid n &&
    ((64 * n ≤ a && a < 64 * n + 64) || (s.rcpRanges n).any (fun r => r.1 ≤ a && a < r.2)))

/-- A write of SQ_RCP_CTRL (R146, R147, R182). -/
def State.busRecipe (s : State) (a : Nat) (v m : Word) : State :=
  let s := s.regWrite a v m
  let n := s.fld R.SQ_RCP_CTRL F.SQ_RCP_CTRL_RECIPE
  let c := regCmd a v m
  (s.when (F.SQ_RCP_CTRL_INVALIDATE.get c = 1) (fun s => s.rcpInvalidate n)).when
    (F.SQ_RCP_CTRL_VALIDATE.get c = 1) (fun s => s.rcpStart n)
/-- The bytes of a recipe as words: its directory entry, headers and data area (R148). -/
def State.rcpWords (s : State) (n : Nat) : List (Nat × Word) :=
  let run (a len : Nat) : List (Nat × Word) := (List.range len).map (fun i => (a + 4 * i, s.dword (a + 4 * i)))
  run (rcpDir n 0) 16 ++ run (s.stepAddr n 0 0) (16 * s.rcpSteps n) ++ run (8 * s.rcpDataIdx n) (2 * s.rcpDataLen n)

/-- VALIDATE (R146, R182): a write of SQ_RCP_CTRL with the recipe and VALIDATE = 1. -/
def execValidate (recipe : Fin 256) (s : State) : Host.Outcome State Fault Refusal :=
  .next (s.busRecipe R.SQ_RCP_CTRL (Word.ofN (recipe + 0x100)) 0xFFFFFFFF)
/-- INVALIDATE (R147, R182): a write of SQ_RCP_CTRL with the recipe and INVALIDATE = 1. -/
def execInvalidate (recipe : Fin 256) (s : State) : Host.Outcome State Fault Refusal :=
  .next (s.busRecipe R.SQ_RCP_CTRL (Word.ofN (recipe + 0x200)) 0xFFFFFFFF)
/-- VALIDATION_DONE (R182): the checks of the recipe whose validation runs are complete. -/
def execValidationDone (s : State) : Host.Outcome State Fault Refusal :=
  if s.bit R.SQ_RCP_STAT F.SQ_RCP_STAT_BUSY then
    .next (((s.setFld R.SQ_RCP_STAT F.SQ_RCP_STAT_BUSY 0).setFld R.SQ_RCP_CTRL F.SQ_RCP_CTRL_VALIDATE 0).rcpValidate
      s.validating)
  else .next s

end Sys2Proof.Machine
end

