-- ==== Sys2Proof/Machine/Seq.lean ====
section
/-!
DEFINITION. A sequencer lane: hold causes and commands (R156 to R161), exits (R162 to R167), ramps (R154, R168),
the stager (R169 to R171), commits and misses (R172 to R174), and the work units of a lane (R66). Writes and
actions are collected and delivered by the Phase S gate.
-/
namespace Sys2Proof.Machine

-- the lane's registers

def State.laneState (s : State) (l : Nat) : Nat := s.fld (R.SQ_STATE l) F.SQ_STATE_STATE
def State.lanePend (s : State) (l : Nat) : Bool := s.bit (R.SQ_STATE l) F.SQ_STATE_PEND
def State.laneInAbort (s : State) (l : Nat) : Bool := s.bit (R.SQ_STATE l) F.SQ_STATE_IN_ABORT
def State.laneRecipe (s : State) (l : Nat) : Nat := s.fld (R.SQ_POS l) F.SQ_POS_RECIPE
def State.laneStep (s : State) (l : Nat) : Nat := s.fld (R.SQ_POS l) F.SQ_POS_STEP
def State.laneUsed (s : State) (l : Nat) : Bool := s.bit (R.SQ_CFG l) F.SQ_CFG_USED
/-- Set the state of a lane. -/
def State.setLane (s : State) (l st : Nat) : State := s.setFld (R.SQ_STATE l) F.SQ_STATE_STATE st
/-- The lane is in RUN or ABORTING. -/
def State.laneGoes (s : State) (l : Nat) : Bool := s.laneState l = 1 || s.laneState l = 3

/-- Cycle a is not after cycle b, by their 32-bit difference. -/
def cycLe (a b : Word) : Bool := (b - a).toNat < 2 ^ 31

/-- The control die that holds a target; none for what the hub holds (R158). -/
def targetDie (ref : Nat) : Option Nat :=
  let i := Ref.index ref
  match Ref.space ref with
  | 2 => some (i / 8192 / 4)
  | 4 => some (i / 32 / 1024)
  | 5 => some (i / 32 / 32)
  | _ => none
/-- A target stands on a fenced die. -/
def State.targetFenced (s : State) (ref : Nat) : Bool :=
  match targetDie ref with
  | some d => s.fenced d
  | none => false
/-- The FENCE condition of a lane (R158): a fenced die holds a target of its chamber. -/
def State.laneFence (s : State) (l : Nat) : Bool :=
  let c := s.fld (R.SQ_CFG l) F.SQ_CFG_CHAMBER
  s.img.chambers.any (fun p => p.1 = c && s.targetFenced p.2)

-- staged entries

/-- A staged entry as its register shows it (R170). -/
def State.stgFree (s : State) (l i : Nat) : Bool := s.fld (R.SQ_STG l i) F.SQ_STG_STATE = 0
/-- The ready cycle of a staged entry. -/
def State.stgReady (s : State) (l i : Nat) : Word := Smap.get (fun _ => 0) (s.laneX l).ready i
/-- Free an entry. -/
def State.stgClear (s : State) (l i : Nat) : State := s.wr (R.SQ_STG l i) 0
/-- Count frogged entries. -/
def State.frogCount (s : State) (l n : Nat) : State := s.addTo (R.SQ_FROG_CNT l) n
/-- Frog every entry but those of a list. -/
def State.frogExcept (s : State) (l : Nat) (keep : List Nat) : State :=
  let gone := (List.range 8).filter (fun i => !s.stgFree l i && !keep.contains i)
  (s.each gone (fun s i => s.stgClear l i)).frogCount l gone.length
/-- Frog every entry. -/
def State.frogAll (s : State) (l : Nat) : State := s.frogExcept l []
/-- The entries that descend from an entry, itself included; parents lie at smaller depth (at most 8). -/
def State.stgTree (s : State) (l i : Nat) : List Nat :=
  (List.range 8).foldl (fun acc _ =>
    acc ++ (List.range 8).filter (fun j => !acc.contains j && !s.stgFree l j &&
      acc.contains (s.fld (R.SQ_STG l j) F.SQ_STG_PARENT))) [i]
/-- A staged entry becomes the current step (R173): the others are frogged, descendants move up. -/
def State.stgCommit (s : State) (l i : Nat) : State :=
  let tree := s.stgTree l i
  let s := s.frogExcept l tree
  let s := s.each (tree.filter (fun j => j ≠ i)) (fun s j =>
    let a := R.SQ_STG l j
    let s := s.setFld a F.SQ_STG_DEPTH (s.fld a F.SQ_STG_DEPTH - 1)
    s.when (s.fld a F.SQ_STG_PARENT = i) (fun s => s.setFld a F.SQ_STG_PARENT 8))
  s.stgClear l i
/-- The entry with a parent, exit and step. -/
def State.stgFind (s : State) (l parent exit step : Nat) : Option Nat :=
  (List.range 8).find? (fun i =>
    let a := R.SQ_STG l i
    !s.stgFree l i && s.fld a F.SQ_STG_PARENT = parent && s.fld a F.SQ_STG_EXIT = exit &&
      s.fld a F.SQ_STG_STEP = step)
/-- Entries and the abort entry whose fetch has completed by cycle n show it (R170, R160). -/
def State.laneShowReady (s : State) (l : Nat) (n : Word) : State :=
  let s := s.each (List.range 8) (fun s i =>
    s.when (s.fld (R.SQ_STG l i) F.SQ_STG_STATE = 1 && cycLe (s.stgReady l i) n) (fun s =>
      s.setFld (R.SQ_STG l i) F.SQ_STG_STATE 2))
  s.when (s.bit (R.SQ_ABORT_ENT l) F.SQ_ABORT_ENT_HELD && cycLe (s.laneX l).abortReady n) (fun s =>
    s.set1 (R.SQ_ABORT_ENT l) F.SQ_ABORT_ENT_READY)

/-- A place in the tree of successors (R170): its entry (8 for the current step), step, depth and the shadow repeat
counters. -/
structure StgNode where
  entry : Nat
  step : Nat
  depth : Nat
  rc : List Word
  deriving DecidableEq, Repr

/-- The history bit of a step (R169). -/
def State.laneHist (s : State) (l step : Nat) : Nat :=
  match Smap.find (s.laneX l).hist step with
  | some b => b
  | none => s.stepHist0 (s.laneRecipe l) step
/-- The successor of an exit of KIND STEP or LOOP with the counters that it leaves (R150); none for the others. -/
def exitSucc (x : ExitD) (step : Nat) (rc : List Word) : Option (Nat × List Word) :=
  match x.kind with
  | 0 => some (x.next, rc)
  | 1 =>
    let c := rc.getD x.rc 0
    if c = 0 then some (step + 1, rc) else some (x.next, rc.set x.rc (c - 1))
  | _ => none
/-- The successors that PREDICT selects (R169), as (exit, step, counters). -/
def State.stgSuccessors (s : State) (l : Nat) (nd : StgNode) : List (Nat × Nat × List Word) :=
  let n := s.laneRecipe l
  let exits := match s.stepPredict n nd.step with
    | 0 => []
    | 1 => [0]
    | 2 => [0, 1]
    | _ => [s.laneHist l nd.step]
  (exits.filter (fun j => j < s.stepExits n nd.step)).filterMap (fun j =>
    (exitSucc (s.stepExit n nd.step j) nd.step nd.rc).map (fun p => (j, p.1, p.2)))
/-- Fill free entries breadth-first (R170), over at most `fuel` places. -/
def State.stgFill (s : State) (l : Nat) (n : Word) :
    (fuel : Nat) → List (StgNode × Nat × Nat × List Word) → State
  | 0, _ => s
  | _, [] => s
  | fuel + 1, (p, j, step, rc) :: q =>
    match (List.range 8).find? (fun i => s.stgFree l i) with
    | none => s
    | some free =>
      let found := s.stgFind l p.entry j step
      let i := found.getD free
      let s := if found.isSome then s else
        let a := R.SQ_STG l free
        let w := Word.ofN (step % 4096 + p.entry * 2 ^ 12 + j * 2 ^ 16 + 2 ^ 18 + (p.depth + 1) * 2 ^ 20)
        let x := s.laneX l
        (s.wr a w).setLaneX l { x with ready := Smap.set (fun _ => 0) x.ready free (n + 2) }
      let nd : StgNode := ⟨i, step, s.fld (R.SQ_STG l i) F.SQ_STG_DEPTH, rc⟩
      let more := if nd.depth < 8 then (s.stgSuccessors l nd).map (fun c => (nd, c)) else []
      State.stgFill s l n fuel (q ++ more)
/-- The stager runs after the lane's work (R170), from the repeat counters that the lane's writes leave. -/
def State.laneStage (s : State) (l : Nat) (n : Word) (rc : List Word) : State :=
  let root : StgNode := ⟨8, s.laneStep l, 0, rc⟩
  s.stgFill l n 64 ((s.stgSuccessors l root).map (fun c => (root, c)))

-- hold causes and commands

/-- LANE_HOLD is recorded (R489): a WARN, or a FAULT for a fence (R37). -/
def State.laneHoldEvent (s : State) (l cls : Nat) : State :=
  s.eventU false 0x2010 cls 9 l [Word.ofN (s.fld (R.SQ_STATE l) F.SQ_STATE_HOLD_CAUSE)]
/-- A hold cause begins (R158): bits 0 COMMAND, 1 HEDGEROW, 2 STOP, 3 FENCE, 4 RESTART. -/
def State.laneHoldCause (s : State) (l b : Nat) : State :=
  let st := s.laneState l
  if st = 1 ∨ st = 2 ∨ st = 3 then
    let a := R.SQ_STATE l
    let s := s.setFld a ⟨8 + b, 1⟩ 1
    let s := if st = 2 then s else (s.setB a F.SQ_STATE_IN_ABORT (st = 3)).setLane l 2
    s.laneHoldEvent l (if b = 3 then 2 else 1)
  else s
/-- The recipe ends (R150, R161). -/
def State.laneFinish (s : State) (l : Nat) (aborted : Bool) : State :=
  let s := s.frogAll l
  -- DONE, with ABORTED
  let s := s.wr (R.SQ_STATE l) (if aborted then 0x24 else 4)
  let s := s.wr (R.SQ_ABORT_ENT l) 0
  -- a recipe with an uncorrectable word is no longer VALID once its lane is DONE (R470)
  let s := s.when (s.laneX l).bad (fun s => s.rcpSetBit (s.laneRecipe l) 0 false)
  s.setLaneX l { s.laneX l with ramps := [], wait := none, abort := false, bad := false }
/-- The abort path is taken (R161): every entry is frogged, and the lane is ABORTING, with its abort entry to be committed,
or DONE where the recipe has no abort step. -/
def State.laneAbortGo (s : State) (l : Nat) : State :=
  if s.bit (R.SQ_ABORT_ENT l) F.SQ_ABORT_ENT_HELD then
    let s := (s.frogAll l).wr (R.SQ_STATE l) 3
    s.setLaneX l { s.laneX l with ramps := [], wait := none, abort := true }
  else s.laneFinish l true
/-- ABORT is taken (R158, R161): in HOLD it clears every cause, and with IN_ABORT it goes back to ABORTING, where a successor,
an abort entry or a GOTO step that is awaited is still awaited (DESIGN CHOICE, log 253). -/
def State.laneAbortCmd (s : State) (l : Nat) : State :=
  let a := R.SQ_STATE l
  if s.laneState l = 2 ∧ s.laneInAbort l = true then
    ((s.setFld a F.SQ_STATE_HOLD_CAUSE 0).setFld a F.SQ_STATE_IN_ABORT 0).setLane l 3
  else s.laneAbortGo l
/-- A condition begins at a lane (R158, R159): 0 HEDGEROW, 1 STOP, 2 FENCE. One that begins with the abort path of HG_ABORT
holds the lane in that path (DEDUCED, log 217). -/
def State.laneCond (s : State) (l c : Nat) : State :=
  if c = 0 ∧ s.bit (R.SQ_CFG l) F.SQ_CFG_HG_ABORT = true ∧ s.laneState l = 1 then s.laneAbortCmd l
  else s.laneHoldCause l (c + 1)
/-- The conditions as they are now act where they begin (R158). -/
def State.laneConds (s : State) (l now : Nat) : State :=
  let old := (s.laneX l).conds
  let s := s.setLaneX l { s.laneX l with conds := now }
  s.each ((List.range 3).filter (fun c => now.testBit c && !old.testBit c)) (fun s c => s.laneCond l c)
/-- A refused command (R157). -/
def State.laneReject (s : State) (l code why : Nat) (tag : Word) : State :=
  let s := s.wr (R.SQ_REJ l) (Word.ofN (code % 8 + why * 16))
  s.raise 1 9 l (R.SQ_STAT l) F.SQ_STAT_CMD_REJ tag
/-- START (R157, R158, R160). -/
def State.laneStart (s : State) (l recipe : Nat) (n : Word) (tag : Word) : State :=
  let st := s.laneState l
  if st ≠ 0 ∧ st ≠ 4 then s.laneReject l 1 1 tag
  else if s.rcpValid recipe = false ∨ s.rcpChamber recipe ≠ s.fld (R.SQ_CFG l) F.SQ_CFG_CHAMBER then
    s.laneReject l 1 3 tag
  else
    let s := s.when (st = 4) (fun s => s.rcpUse (s.laneRecipe l) false)
    let s := s.rcpUse recipe true
    let s := (s.setFld (R.SQ_POS l) F.SQ_POS_RECIPE recipe).setFld (R.SQ_POS l) F.SQ_POS_STEP 0
    let s := s.wr (R.SQ_SEQ l) 0
    let s := s.each (List.range 4) (fun s i => s.wr (R.SQ_RC l i) 0)
    let s := s.each (List.range 8) (fun s i => s.wr (R.SQ_LT l i) 0)
    let s := s.frogAll l
    -- RUN with PEND = 1
    let s := s.wr (R.SQ_STATE l) 0x11
    let ab := s.rcpAbortEn recipe
    let s := s.wr (R.SQ_ABORT_ENT l) (if ab then Word.ofN (s.rcpAbortStep recipe + 2 ^ 13) else 0)
    let x := s.laneX l
    let s := s.setLaneX l { x with
      hist := [], ramps := [], ends := [], moves := [], adv := [], abort := false, kept := none
      reissue := false, warned := false, supp := false, fresh := false, blank := 0, abortReady := n + 2
      wait := some ⟨0, none, n + 2⟩ }
    s.each ((List.range 3).filter (fun c => x.conds.testBit c)) (fun s c => s.laneHoldCause l (c + 1))
/-- RESUME (R157, R158). -/
def State.laneResume (s : State) (l : Nat) (tag : Word) : State :=
  if s.laneState l ≠ 2 then s.laneReject l 3 1 tag
  else if (s.laneX l).conds ≠ 0 then s.laneReject l 3 5 tag
  else
    let a := R.SQ_STATE l
    let stop := s.bit a ⟨10, 1⟩
    let st := if s.laneInAbort l then 3 else 1
    let s := ((s.setFld a F.SQ_STATE_HOLD_CAUSE 0).setFld a F.SQ_STATE_IN_ABORT 0).setLane l st
    s.when stop (fun s => s.setLaneX l { s.laneX l with reissue := true })
/-- CLEAR (R157). -/
def State.laneClear (s : State) (l : Nat) (tag : Word) : State :=
  if s.laneState l ≠ 4 then s.laneReject l 6 1 tag
  else ((s.rcpUse (s.laneRecipe l) false).setFld (R.SQ_STATE l) F.SQ_STATE_ABORTED 0).setLane l 0
/-- GOTO (R157). -/
def State.laneGoto (s : State) (l step : Nat) (n tag : Word) : State :=
  if s.laneState l ≠ 2 then s.laneReject l 7 1 tag
  else if step ≥ s.rcpSteps (s.laneRecipe l) then s.laneReject l 7 3 tag
  else
    let s := (s.frogAll l).set1 (R.SQ_STATE l) F.SQ_STATE_PEND
    s.setLaneX l { s.laneX l with ramps := [], kept := none, wait := some ⟨step, none, n + 2⟩ }
/-- ADVANCE (R157). -/
def State.laneAdvance (s : State) (l exit : Nat) (tag : Word) : State :=
  if s.laneState l ≠ 1 then s.laneReject l 5 1 tag
  else
    let r := s.laneRecipe l
    let k := s.laneStep l
    if exit ≥ s.stepExits r k || (s.stepExit r k exit).typ ≠ 5 then s.laneReject l 5 4 tag
    else s.setLaneX l { s.laneX l with adv := exit :: (s.laneX l).adv }
/-- A command with its argument (R157); a code that is not defined is refused. -/
def State.laneCommand (s : State) (l code : Nat) (arg : Word) (n tag : Word) : State :=
  match code with
  | 1 => s.laneStart l (arg.toNat % 256) n tag
  | 2 => if s.laneState l ≠ 1 then s.laneReject l 2 1 tag else s.laneHoldCause l 0
  | 3 => s.laneResume l tag
  | 4 => if s.laneState l = 1 ∨ s.laneState l = 2 then s.laneAbortCmd l else s.laneReject l 4 1 tag
  | 5 => s.laneAdvance l (arg.toNat % 4) tag
  | 6 => s.laneClear l tag
  | 7 => s.laneGoto l (arg.toNat % 4096) n tag
  | _ => s.laneReject l 0 6 tag

-- exits

/-- A source that is not a number (R167): one WARN per step. -/
def State.laneBad (s : State) (l : Nat) (tag : Word) : State :=
  let s := s.set1 (R.SQ_STAT l) F.SQ_STAT_BAD_VALUE
  if (s.laneX l).warned then s
  else (s.setLaneX l { s.laneX l with warned := true }).statusEvent 1 9 l (R.SQ_STAT l)
      F.SQ_STAT_BAD_VALUE.mask tag
/-- A source of an ENDPOINT exit as binary32 (R166). -/
def State.refF32 (s : State) (ref : Nat) : Word :=
  let w := s.readRef false ref
  match s.refTy ref with
  | .f32 => w
  | .i32 => F32.ofInt w.toInt
  | .u32 => F32.ofInt w.toNat
/-- The input x of an ENDPOINT exit, if it is valid (R166). -/
def State.endInput (s : State) (x : ExitD) : Option Word :=
  let a := s.refF32 x.src
  let v := if x.opt.testBit 0 then (F32.div a (s.refF32 x.src2)).1 else a
  if !F32.finite v || (x.opt.testBit 0 && F32.isZero (s.refF32 x.src2)) then none else some v
/-- One update of an endpoint filter (R166): W is the slope window. -/
def EndF.update (e : EndF) (x : ExitD) (inp : Option Word) : EndF :=
  let e := { e with prev := e.f }
  let e := match inp, e.f with
    | none, _ => e
    | some v, none => { e with f := some v, hist := [v] }
    | some v, some f =>
      let g := (F32.add f (F32.mul x.value2 (F32.sub v f).1).1).1
      { e with f := some g, hist := (g :: e.hist).take (x.win + 1) }
  match e.f, e.hist[x.win]? with
  | some f, some fw =>
    let sl := (F32.sub f fw).1
    if F32.le x.value sl then { e with q := 1 }
    else if F32.le sl (F32.flip x.value) then { e with q := -1 } else e
  | _, _ => e
/-- The endpoint test of R166 between two updates. -/
def EndF.hit (old e : EndF) (x : ExitD) : Bool :=
  let rising := x.opt.testBit 1
  if x.opt.testBit 0 then
    match e.prev, e.f with
    | some p, some f =>
      if rising then F32.lt p x.value && F32.le x.value f else F32.lt x.value p && F32.le f x.value
    | _, _ => false
  else if rising then old.q = -1 && e.q = 1 else old.q = 1 && e.q = -1
/-- Store an endpoint filter; EXV shows f. -/
def State.setEnd (s : State) (l j : Nat) (e : EndF) : State :=
  let x := s.laneX l
  (s.setLaneX l { x with ends := Smap.put x.ends j e }).wr (R.SQ_EXV l j) (e.f.getD 0)
/-- The filters and move counters of a step at its commit (R164, R166). -/
def State.laneEndInit (s : State) (l : Nat) (xs : List ExitD) (tag : Word) : State :=
  let s := s.setLaneX l { s.laneX l with ends := [], moves := [] }
  s.each ((List.range xs.length).zip xs) (fun s jx =>
    let j := jx.1
    let x := jx.2
    if x.typ = 3 then
      let inp := s.endInput x
      let s := s.setEnd l j ⟨inp, inp.toList, none, 0⟩
      s.when inp.isNone (fun s => s.laneBad l tag)
    else if x.typ = 6 then
      let y := s.laneX l
      s.setLaneX l { y with moves := Smap.put y.moves j (s.rd (R.AX_MOVE_CNT (Ref.index x.src / 32))) }
    else s)
/-- The condition of a COMPARE exit (R165), with the hysteresis once counting has begun. V − H and V + H are exact: neither
binary32 rounding nor a wrap of the integer type enters them (DESIGN CHOICE, log 218). -/
def compareHolds (op : Nat) (counting : Bool) (x v h : Dy) : Bool :=
  match op with
  | 0 => (if counting then v.sub h else v).lt x
  | 1 => x.lt (if counting then v.add h else v)
  | 2 => x.same v
  | _ => !x.same v
/-- Count a dwell (R165): the new count, and whether it exceeds DWELL. -/
def State.laneDwell (s : State) (l j : Nat) (x : ExitD) (holds : Bool) : State × Bool :=
  let a := R.SQ_DWL l j
  let c := if holds then min (s.fld a F.SQ_DWL_COUNT + 1) (2 ^ 24 - 1) else 0
  (s.setFld a F.SQ_DWL_COUNT c, c > x.dwell)
/-- Evaluate exit j (R164 to R167). `full` holds in RUN and ABORTING. -/
def State.laneExit (s : State) (l j : Nat) (x : ExitD) (full : Bool) (tag : Word) : State × Bool :=
  if x.typ = 3 then
    let old := (Smap.find (s.laneX l).ends j).getD default
    let inp := s.endInput x
    let e := old.update x inp
    let s := (s.setEnd l j e).when inp.isNone (fun s => s.laneBad l tag)
    (s, full && s.fld (R.SQ_TIMER l) F.SQ_TIMER_CYCLES ≥ x.dwell + (s.laneX l).blank && old.hit e x)
  else if !full && !(x.typ = 7 && x.kind = 3) then (s, false)
  else match x.typ with
    | 0 => (s, (s.rd (R.SQ_TIMER l)).toNat ≥ x.value.toNat)
    | 1 =>
      let ty := s.refTy x.src
      let cnt := s.fld (R.SQ_DWL l j) F.SQ_DWL_COUNT
      match s.refDy false x.src, Ty.toDy ty x.value, Ty.toDy ty x.value2 with
      | some d, some v, some h => s.laneDwell l j x (compareHolds (x.opt % 4) (cnt ≠ 0) d v h)
      | none, _, _ => (s.laneBad l tag).laneDwell l j x false
      | _, _, _ => s.laneDwell l j x false
    | 2 =>
      let ty := s.refTy x.src
      let ref2 := x.opt.testBit 0
      let r := if ref2 then s.refDy false x.src2 else Ty.toDy ty x.value
      match s.refDy false x.src, r, Ty.toDy ty x.value2 with
      | some d, some v, some b => s.laneDwell l j x ((d.sub v).abs.le b)
      | none, _, _ => (s.laneBad l tag).laneDwell l j x false
      | _, none, _ => (s.when ref2 (fun s => s.laneBad l tag)).laneDwell l j x false
      | _, _, _ => s.laneDwell l j x false
    | 4 => (s, s.readRef false x.src ≠ 0)
    | 5 => (s, (s.laneX l).adv.contains j)
    | 6 =>
      let a := Ref.index x.src / 32
      (s, s.bit (R.AX_STATE a) F.AX_STATE_DONE &&
        (x.opt.testBit 0 || Smap.find (s.laneX l).moves j ≠ some (s.rd (R.AX_MOVE_CNT a))))
    | _ =>
      let w := s.readRef false x.src
      s.laneDwell l j x (if s.refTy x.src = .f32 then !F32.isZero w else w ≠ 0)
/-- Evaluate the exits of the current step (R163): every exit is updated before the lowest true one wins. -/
def State.laneExits (s : State) (l : Nat) (tag : Word) : State × Option Nat :=
  let xs := s.stepExitList (s.laneRecipe l) (s.laneStep l)
  ((List.range xs.length).zip xs).foldl (fun acc jx =>
    let r := acc.1.laneExit l jx.1 jx.2 (acc.1.laneGoes l) tag
    (r.1, acc.2.or (if r.2 then some jx.1 else none))) (s, none)

-- ramps

/-- A ramp at count k (R154): its value, and the factor e of EXP. -/
def rampAt (d : RampD) (k : Nat) (v0 v1 e : Word) : Word × Word :=
  let frac := (F32.div (F32.ofInt k) (F32.ofInt d.dur)).1
  let line (x : Word) : Word := (F32.add v0 (F32.mul (F32.sub v1 v0).1 x).1).1
  let e' := (F32.mul e d.beta).1
  if k ≥ d.dur then (v1, e)
  else match d.shape with
    | 0 => (line frac, e)
    | 1 =>
      let t := (F32.sub 0x40400000 (F32.mul 0x40000000 frac).1).1
      (line (F32.mul frac (F32.mul frac t).1).1, e)
    | _ => ((F32.add v1 (F32.mul (F32.sub v0 v1).1 e').1).1, e')
/-- Advance a ramp by one (R168). -/
def State.rampStep (s : State) (recipe : Nat) (r : Ramp) : Ramp :=
  let (v, e) := rampAt (s.rcpRamp recipe r.ramp) (r.k + 1) r.v0 r.v1 r.e
  { r with k := r.k + 1, v := v, e := e }
/-- Saturating advance of a lane's timer register (R162). -/
def State.timerUp (s : State) (a : Nat) : State := if s.rd a = 0xFFFFFFFF then s else s.incr a
/-- Timers and ramps advance (R162, R168, R172). -/
def State.laneAdvanceTime (s : State) (l : Nat) : State :=
  if s.laneGoes l then
    let s := s.each (List.range 8) (fun s i => s.timerUp (R.SQ_LT l i))
    if s.lanePend l then s
    else
      let s := s.timerUp (R.SQ_TIMER l)
      let x := s.laneX l
      s.setLaneX l { x with ramps := x.ramps.map (s.rampStep (s.laneRecipe l)) }
  else s

-- commits

/-- What the processing of a lane gives to the Phase S gate: its writes in order, its actions with the step, tag and
SEQ of their commit, and its work units. -/
structure LaneOut where
  writes : List (Nat × Word)
  acts : List (ActD × Nat × Nat × Word)
  cost : Nat
  deriving DecidableEq, Repr, Inhabited

/-- The value that a lane's target holds for its writer (R143), with the writes of this Phase S before it. -/
def State.laneCur (s : State) (ws : List (Nat × Word)) (ref : Nat) : Word :=
  match (ws.reverse.find? (fun p => p.1 = ref)) with
  | some p => p.2
  | none =>
    let i := Ref.index ref
    match Ref.space ref with
    | 1 => s.outVal i
    | 2 => s.rd (R.LOCAL (i / 8192) (i % 8192))
    | _ => s.readRef false ref
/-- One write entry at its commit (R152, R168, R171): the value, and the ramp that it starts. -/
def State.laneWrite (s : State) (recipe : Nat) (ws : List (Nat × Word)) (w : WriteD) : Word × Option Ramp :=
  match w.mode with
  | 0 => (w.value, none)
  | 1 =>
    let d := s.rcpRamp recipe w.ramp
    let v0 := s.laneCur ws w.target
    let (v, e) := rampAt d 1 v0 w.value 0x3F800000
    (v, if d.dur ≤ 1 then none else some ⟨w.ramp, w.target, 1, v0, w.value, e, v⟩)
  | 2 => (s.readRef false (w.value.toNat % 2 ^ 20), none)
  | 3 => (s.laneCur ws w.target ||| w.value, none)
  | _ => (s.laneCur ws w.target &&& ~~~ w.value, none)
/-- The writes of a step in entry order, and the ramps that run after them (R152, R168). -/
def State.laneWrites (s : State) (recipe step : Nat) : List (Nat × Word) × List Ramp :=
  (s.stepWriteList recipe step).foldl (fun acc w =>
    let (v, r) := s.laneWrite recipe acc.1 w
    (acc.1 ++ [(w.target, v)], acc.2.filter (fun q => q.target ≠ w.target) ++ r.toList)) ([], [])
/-- Remember the last value of each target (R158). -/
def State.laneNote (s : State) (l : Nat) (ws : List (Nat × Word)) : State :=
  s.setLaneX l { s.laneX l with lastW := ws.foldl (fun m p => Smap.put m p.1 p.2) (s.laneX l).lastW }
/-- Commit a step (R173): it becomes the current one, its writes are issued and its actions queued. -/
def State.laneCommit (s : State) (l step : Nat) (tag : Word) : State × LaneOut :=
  let recipe := s.laneRecipe l
  let s := s.setFld (R.SQ_POS l) F.SQ_POS_STEP step
  let s := ((s.incr (R.SQ_SEQ l)).wr (R.SQ_TIMER l) 0).setFld (R.SQ_STATE l) F.SQ_STATE_PEND 0
  let s := s.each (List.range 4) (fun s j => (s.wr (R.SQ_DWL l j) 0).wr (R.SQ_EXV l j) 0)
  let (ws, ramps) := s.laneWrites recipe step
  let s := s.setLaneX l { s.laneX l with ramps := ramps, wait := none, warned := false, blank := 0 }
  let s := (s.laneEndInit l (s.stepExitList recipe step) tag).laneNote l ws
  let seq := s.rd (R.SQ_SEQ l)
  let acts := (s.stepActList recipe step).map (fun a => (a, step, s.stepTag recipe step, seq))
  (s, ⟨ws, acts, ws.length + 4 * acts.length⟩)
/-- The current step ends by exit j (R169, R173): history, last exit, and a LOOP's counter. -/
def State.laneEndStep (s : State) (l j : Nat) : State :=
  let r := s.laneRecipe l
  let k := s.laneStep l
  let x := s.stepExit r k j
  let y := s.laneX l
  let s := s.setLaneX l { y with ramps := [], hist := if j < 2 then Smap.put y.hist k j else y.hist }
  let s := s.setFld (R.SQ_POS l) F.SQ_POS_LAST_EXIT j
  let c := R.SQ_RC l x.rc
  s.when (x.kind = 1 && s.rd c ≠ 0) (fun s => s.wr c (s.rd c - 1))
/-- The writes and the actions of the abort entry (R161): it commits at once when it is ready, else in its ready cycle, which
is no miss of R174 (DEDUCED, log 254). -/
def State.laneAbortPath (s : State) (l : Nat) (n tag : Word) : State × LaneOut :=
  let x := s.laneX l
  if x.abort then
    let s := s.setLaneX l { x with abort := false }
    let step := s.fld (R.SQ_ABORT_ENT l) F.SQ_ABORT_ENT_STEP
    if cycLe x.abortReady n then s.laneCommit l step tag
    else
      let s := s.set1 (R.SQ_STATE l) F.SQ_STATE_PEND
      (s.setLaneX l { s.laneX l with wait := some ⟨step, none, x.abortReady⟩ }, default)
  else (s, default)
/-- A miss (R174). -/
def State.laneMiss (s : State) (l : Nat) : State :=
  ((s.set1 (R.SQ_STATE l) F.SQ_STATE_PEND).set1 (R.SQ_STAT l) F.SQ_STAT_MISS).incr (R.SQ_MISS_CNT l)
/-- The repeat counters of a lane. -/
def State.laneRc (s : State) (l : Nat) : List Word := (List.range 4).map (fun i => s.rd (R.SQ_RC l i))
/-- The winning exit resolves its successor and commits it, or waits for it (R150, R161, R173, R174). -/
def State.laneTake (s : State) (l j : Nat) (n tag : Word) : State × LaneOut :=
  let k := s.laneStep l
  let x := s.stepExit (s.laneRecipe l) k j
  let aborting := s.laneState l = 3 || s.laneInAbort l
  let succ := exitSucc x k (s.laneRc l)
  let s := s.laneEndStep l j
  match succ with
  | none =>
    if x.kind = 2 then (s.laneFinish l aborting, default)
    else if aborting then (s.laneFinish l true, default)
    else (s.laneAbortGo l).laneAbortPath l n tag
  | some (step, _) =>
    match s.stgFind l 8 j step with
    | some i =>
      if cycLe (s.stgReady l i) n then (s.stgCommit l i).laneCommit l step tag
      else
        let s := (s.frogExcept l [i]).laneMiss l
        (s.setLaneX l { s.laneX l with wait := some ⟨step, some i, s.stgReady l i⟩ }, default)
    | none =>
      let s := (s.frogAll l).laneMiss l
      (s.setLaneX l { s.laneX l with wait := some ⟨step, none, n + 2⟩ }, default)
/-- The cycle from which an awaited successor is ready: its staged entry's, or its own fetch's. -/
def State.waitReady (s : State) (l : Nat) (w : LaneWait) : Word :=
  match w.entry with
  | some i => if s.stgFree l i then w.ready else s.stgReady l i
  | none => w.ready
/-- Step 4 of R172 with the exit result: abort, exit, awaited successor, or the values of running ramps. A step that GOTO has
fetched is committed in the Phase S of RESUME itself when it is ready (R157; DESIGN CHOICE, log 252). -/
def State.laneAct (s : State) (l : Nat) (win : Option Nat) (n tag : Word) : State × LaneOut :=
  let x := s.laneX l
  if x.abort then s.laneAbortPath l n tag
  else match win with
    | some j => s.laneTake l j n tag
    | none =>
      if s.laneGoes l then
        match s.lanePend l, x.wait with
        | true, some w =>
          if cycLe (s.waitReady l w) n then
            let s := match w.entry with
              | some i => if s.stgFree l i then s else s.stgCommit l i
              | none => s
            s.laneCommit l w.step tag
          else (s, default)
        | true, none => (s, default)
        | false, _ =>
          let ws := x.ramps.map (fun r => (r.target, r.v))
          let r := s.laneRecipe l
          let s := s.setLaneX l { x with ramps := x.ramps.filter (fun q => q.k < (s.rcpRamp r q.ramp).dur) }
          (s.laneNote l ws, ⟨ws, [], ws.length⟩)
      else (s, default)
/-- The values that a RESUME after a stop issues again (R158). -/
def State.laneReissue (s : State) (l : Nat) : List (Nat × Word) :=
  let x := s.laneX l
  if x.reissue then
    ((s.stepWriteList (s.laneRecipe l) (s.laneStep l)).map (fun w => w.target)).eraseDups.filterMap (fun t =>
      (Smap.find x.lastW t).map (fun v => (t, v)))
  else []
/-- The first Phase S after a warm restart (R179): the fetches are issued again, ENDPOINT blanking starts, and the recipe's
policy acts; a lane in its abort path keeps it. -/
def State.laneFresh (s : State) (l : Nat) (n : Word) : State :=
  let x := s.laneX l
  if !x.fresh then s
  else
    let s := (s.setLaneX l { x with
      fresh := false, blank := (s.rd (R.SQ_TIMER l)).toNat, abortReady := n + 2
      wait := x.wait.map (fun w => ⟨w.step, none, n + 2⟩) }).setFld (R.SQ_ABORT_ENT l) F.SQ_ABORT_ENT_READY 0
    let st := s.laneState l
    match s.rcpRestart (s.laneRecipe l) with
    | 1 => if st = 1 ∨ st = 2 then s.laneHoldCause l 4 else s
    | 2 => if st = 1 ∨ (st = 2 ∧ s.laneInAbort l = false) then s.laneAbortGo l else s
    | _ => s
/-- Steps 1 to 3 of R172: conditions, commands, timers, ramps and exits. Host commands of one cycle act in their order, all
with SQ_CMD_ARG as it stands now (DEDUCED, log 219). -/
def State.laneBegin (s : State) (l conds : Nat) (n tag : Word) : State × Option Nat :=
  let s := ((s.laneFresh l n).laneShowReady l n).laneConds l conds
  let x := s.laneX l
  let s := s.setLaneX l { x with host := [] }
  let s := s.each x.host (fun s c => s.laneCommand l c (s.rd (R.SQ_CMD_ARG l)) n tag)
  let s := s.setFld (R.SQ_CMD l) F.SQ_CMD_CODE 0
  let s := s.setLaneX l { s.laneX l with cmd := 0 }
  let s := if x.cmd = 0 then s else s.laneCommand l x.cmd.toNat x.arg n tag
  let s := s.laneAdvanceTime l
  let y := s.laneX l
  -- in HOLD the alarms of the last committed step are evaluated, also while a successor is awaited (R156)
  let runs : Bool := ((s.laneGoes l && !s.lanePend l) ||
    (s.laneState l = 2 && (!s.lanePend l || s.rd (R.SQ_SEQ l) ≠ 0))) && !y.abort
  let (s, win) :=
    if !runs then (s, none)
    else match y.kept with
      | some j => if s.laneGoes l then (s, some j) else s.laneExits l tag
      | none => s.laneExits l tag
  (s.setLaneX l { s.laneX l with adv := [], kept := none }, win)
/-- Steps 4 to 6 of R172, and the stager (R170). -/
def State.laneEnd (s : State) (l : Nat) (win : Option Nat) (n tag : Word) : State × LaneOut :=
  let again := s.laneReissue l
  let s := s.setLaneX l { s.laneX l with reissue := false }
  let (s, o) := s.laneAct l win n tag
  let ws := again ++ o.writes
  let rc := (List.range 4).map (fun i => match ws.reverse.find? (fun p => p.1 = Ref.laneField l (8 + i)) with
    | some p => p.2
    | none => s.rd (R.SQ_RC l i))
  let live : Bool := (s.laneGoes l || s.laneState l = 2) && !s.lanePend l
  let s := s.when live (fun s => s.laneStage l n rc)
  (s, ⟨ws, o.acts, 16 + again.length + o.cost⟩)
/-- A lane is deferred (R66): it keeps its exit result. -/
def State.laneDefer (s : State) (l : Nat) (win : Option Nat) (tag : Word) : State :=
  (s.setLaneX l { s.laneX l with kept := win }).raise 1 9 l (R.SQ_STAT l) F.SQ_STAT_DEFER tag
/-- Deliver the writes of a lane; those to a fenced die have no effect (R158). -/
def State.laneDeliver (s : State) (ws : List (Nat × Word)) (tag : Word) : State :=
  s.each ws (fun s p => if s.targetFenced p.1 then s else s.writeVar p.1 p.2 tag)

end Sys2Proof.Machine
end

