-- ==== Sys2Proof/Machine/Tasks.lean ====
section
/-!
DEFINITION. Tasks, region schedulers, event flags and flows (R213 to R229), the program watchdog and the controller
stop (R234 to R236).
-/
namespace Sys2Proof.Machine

-- tasks of a region

/-- Key of a task, and its instance in events (R488). -/
def taskKey (r t : Nat) : Nat := 256 * r + t
/-- The configured tasks of a region (R223). -/
def State.usedTasks (s : State) (r : Nat) : List Nat :=
  let b := R.regionBase r + 0x61000
  s.io.filterMap (fun e =>
    if b ≤ e.1 ∧ e.1 < b + 0x2000 ∧ (e.1 - b) % 32 = 0 ∧ e.2.getLsbD 0 = true then some ((e.1 - b) / 32) else none)
def State.taskState (s : State) (r t : Nat) : Nat := s.fld (R.TK_STATE r t) F.TK_STATE_STATE
def State.setTask (s : State) (r t st : Nat) : State := s.setFld (R.TK_STATE r t) F.TK_STATE_STATE st
def State.taskInPhase (s : State) (r t : Nat) : Bool := s.bit (R.TK_CFG r t) F.TK_CFG_INPHASE
def State.taskEvent (s : State) (r t : Nat) : Bool := s.bit (R.TK_CFG r t) F.TK_CFG_KIND
/-- The event mask of a task and the flags of a region, as one number each. -/
def State.taskMask (s : State) (r t : Nat) : Nat := s.rd64 (R.TK_MASK_LO r t)
def State.flagBits (s : State) (r : Nat) : Nat := s.rd64 (R.TK_FLAGS_LO r)

/-- The nodes of a partition in order, at most `fuel` (R186). -/
def netChain (node : Nat → NetNode) : (fuel : Nat) → Nat → List NetNode
  | 0, _ => []
  | fuel + 1, i => let nd := node i; if nd.last then [nd] else nd :: netChain node fuel nd.next
/-- The nodes of a task. -/
def State.taskNodes (s : State) (r t : Nat) : List NetNode :=
  netChain (s.netNode r) 8192 (s.fld (R.TK_CFG r t) F.TK_CFG_ENTRY)
/-- The references that a node reads, and those that it writes (R197). -/
def NetNode.reads (nd : NetNode) : List Nat :=
  [nd.a, nd.c] ++ (if nd.kb then [] else [nd.b]) ++
    (if nd.opc = 0x3A ∨ nd.opc = 0x3B ∨ nd.opc = 0x44 ∨ nd.opc = 0x45 then [nd.dst] else []) ++
    (if nd.opc = 0x40 ∨ nd.opc = 0x41 ∨ nd.opc = 0x42 ∨ nd.opc = 0x43 then [nd.c + 1, nd.c + 2] else [])
def NetNode.writes (nd : NetNode) : List Nat :=
  nd.dst :: (if nd.opc = 0x38 ∨ nd.opc = 0x39 ∨ nd.opc = 0x44 ∨ nd.opc = 0x45 then [nd.c]
    else if nd.opc = 0x40 ∨ nd.opc = 0x41 ∨ nd.opc = 0x42 then [nd.c, nd.c + 1, nd.c + 2] else [])
/-- Every segment that a list of references names has landed or is declared missing; STATION_STATUS waits for the
cut-off (R59, R216, R366). -/
def State.refsLanded (s : State) (refs : List Nat) : Bool :=
  s.cyc.cut || refs.all (fun ref =>
    let i := Ref.index ref
    match Ref.space ref with
    | 0 => match s.wordStn (i % 65536) with
      | some k => (s.stnX k).got.isSome
      | none => true
    | 7 => !(0x100 ≤ i && i < 0x100 + 504) || ref = Ref.none
    | _ => true)
/-- An instance of an in-phase task is live. -/
def State.taskGoes (s : State) (r t : Nat) : Bool := s.taskInPhase r t && (s.taskX (taskKey r t)).live
/-- Another in-phase task of the region has a live instance and writes a local or a flag that this one reads
(R216). -/
def State.taskWaits (s : State) (r t : Nat) (refs : List Nat) : Bool :=
  (s.usedTasks r).any (fun u => u ≠ t && s.taskGoes r u && ((s.taskNodes r u).any (fun nd =>
    nd.writes.any (fun w => (Ref.space w = 2 || isFlagRef w) && refs.contains w))))
/-- A ready task may be dispatched (R216); one that has been dispatched resumes. -/
def State.taskMay (s : State) (r t : Nat) : Bool :=
  if (s.taskX (taskKey r t)).disp.isSome || !s.taskInPhase r t then true
  else
    let refs := ((s.taskNodes r t).map NetNode.reads).flatten
    s.refsLanded refs && !s.taskWaits r t refs
/-- Every in-phase instance of a region is complete: the region reports Phase N done (R62). -/
def State.regionDone (s : State) (r : Nat) : Bool := !(s.usedTasks r).any (s.taskGoes r)

-- stop causes

/-- Stop causes as bits of TK_CTL.CAUSE (R236): 0 KEY, 1 WATCHDOG, 2 FATAL, 3 COMMAND, 4 RELOAD. A FATAL fault is noted for
the next t0 (R440). -/
def State.stopCause (s : State) (b : Nat) : State :=
  { s with boot := { s.boot with fatal := s.boot.fatal || b == 2 } }.setFld R.TK_CTL ⟨4 + b, 1⟩ 1
def State.stopEnds (s : State) (b : Nat) : State := s.setFld R.TK_CTL ⟨4 + b, 1⟩ 0
/-- A program watchdog trip (R234). -/
def State.watchdog (s : State) (r t : Nat) (background : Bool) : State :=
  let s := s.wr R.TK_WDOG (Word.ofN (t + 256 * r + (if background then 4096 else 0)))
  let s := (s.wr R.TK_WDOG_SEQ s.seq).set1 (R.TK_RS_STAT r) F.TK_RS_STAT_WDOG
  let s := s.setFld (R.TK_RS_STAT r) F.TK_RS_STAT_LAST_TASK t
  (s.eventU false 0x3001 4 8 (taskKey r t) []).stopCause 1

-- instances

/-- A task becomes ready and enters its list: behind those that have waited, and among those of the same moment by task
number (R214). -/
def State.taskReady (s : State) (r t now : Nat) : State :=
  let s := s.setTaskX (taskKey r t) { s.taskX (taskKey r t) with ready := now }
  let x := s.rsX r
  let (a, b) := x.ready.span (fun u => !((s.taskX (taskKey r u)).ready = now && t < u &&
    (s.taskX (taskKey r u)).disp.isNone))
  (s.setRsX r { x with ready := a ++ t :: b }).setTask r t 3
/-- A new instance of the present cycle (R61, R202, R213). -/
def State.taskBegin (s : State) (r t now : Nat) : State :=
  let k := taskKey r t
  let dt := match (s.taskX k).prev with
    | some p => (s.seq - p).toNat * s.period
    | none => 0
  let due := s.seq + Word.ofN (s.fld (R.TK_TIME r t) F.TK_TIME_K)
  let s := s.setTaskX k { (default : TaskX) with live := true, cyc := s.seq, due := due, dt := dt, prev := some s.seq }
  s.when (s.taskInPhase r t) (fun s => s.taskReady r t now)
/-- The condition of an event task (R220). -/
def State.taskCond (s : State) (r t : Nat) : Bool :=
  let m := s.taskMask r t
  let f := s.flagBits r
  if s.bit (R.TK_CFG r t) F.TK_CFG_ALL then f &&& m = m else f &&& m ≠ 0
/-- An event task is made ready: the CONSUME flags that triggered it are cleared (R219), and a condition that this makes false
has changed (R220). -/
def State.taskFire (s : State) (r t now : Nat) : State :=
  let gone := s.taskMask r t &&& s.rd64 (R.TK_CONSUME_LO r) &&& s.flagBits r
  let s := s.wr64 (R.TK_FLAGS_LO r) ((s.flagBits r - gone : Nat) : Int)
  let x := s.rsX r
  (s.setRsX r { x with cond := x.cond.filter (fun u => s.taskCond r u) }).taskBegin r t now
/-- A trigger (R220, R221). -/
def State.taskTrigger (s : State) (r t now : Nat) : State :=
  let st := R.TK_STATE r t
  if !(s.taskX (taskKey r t)).live then s.taskFire r t now
  else if !s.bit st F.TK_STATE_PEND then s.set1 st F.TK_STATE_PEND
  else
    ((s.incr (R.TK_LOST r t)).setFld (R.TK_RS_STAT r) F.TK_RS_STAT_LAST_TASK t).raise 1 8 (taskKey r t)
      (R.TK_RS_STAT r) F.TK_RS_STAT_LOST (tagOf now)
/-- The scheduler evaluates the conditions of a region (R220), all on the flags as they stand. -/
def State.taskTriggers (s : State) (r now : Nat) : State :=
  let es := (s.usedTasks r).filter (fun t => s.taskEvent r t)
  let on := es.filter (fun t => s.taskCond r t)
  let hits := on.filter (fun t => !(s.rsX r).cond.contains t && s.taskState r t ≠ 0)
  let s := s.each hits (fun s t => s.taskTrigger r t now)
  (s.setRsX r { s.rsX r with cond := on.filter (fun t => s.taskCond r t) }).hgEval now

-- flows

def State.flowState (s : State) (f : Nat) : Nat := s.fld (R.FL_STAT f) F.FL_STAT_STATE
def State.flowRegion (s : State) (f : Nat) : Nat := s.fld (R.FL_CFG f) F.FL_CFG_REGION
def State.flowHolder (s : State) (f : Nat) : Nat := s.fld (R.FL_STAT f) F.FL_STAT_HOLDER
/-- The configured flows. -/
def State.usedFlows (s : State) : List Nat :=
  s.io.filterMap (fun e =>
    if 0x44000 ≤ e.1 ∧ e.1 < 0x48000 ∧ e.1 % 16 = 0 ∧ e.2.getLsbD 0 = true then some ((e.1 - 0x44000) / 16) else none)
/-- The task that a flow's flag triggers (R224): the lowest event task whose mask has the flag (log 51). -/
def State.flowTask (s : State) (f : Nat) : Option Nat :=
  let r := s.flowRegion f
  (s.usedTasks r).find? (fun t => s.taskEvent r t && (s.taskMask r t).testBit (s.fld (R.FL_CFG f) F.FL_CFG_FLAG))
/-- Change the queue of a flow, with the lengths that the registers show. -/
def State.flowQueue (s : State) (f : Nat) (q : List ItemX) : State :=
  let x := s.flowX f
  let n := s.fld R.TK_HUB_STAT F.TK_HUB_STAT_QLEN - x.queue.length + q.length
  ((s.setFlowX f { x with queue := q }).setFld (R.FL_STAT f) F.FL_STAT_QUEUED q.length).setFld R.TK_HUB_STAT
    F.TK_HUB_STAT_QLEN n
/-- A flow returns to IDLE and its queue is discarded, counted in TK_HUB_DROP (R228, R235). -/
def State.flowDrop (s : State) (f : Nat) : State :=
  let n := (s.flowX f).queue.length
  ((s.flowQueue f []).setFld (R.FL_STAT f) F.FL_STAT_STATE 0).addTo R.TK_HUB_DROP n
/-- Dispatch an item (R224): mailbox, flag, SERVICE. -/
def State.flowServe (s : State) (f t : Nat) (i : ItemX) : State :=
  let r := s.flowRegion f
  let x := s.flowX f
  let n := (x.count + 1) % 256
  let mb := s.fld (R.FL_CFG f) F.FL_CFG_MBOX
  let head := Word.ofN (i.cls + i.src % 256 * 16 + i.data.length % 128 * 2 ^ 12 + n * 2 ^ 24)
  let ws := (bytesWords i.data ++ List.replicate 16 0).take 16
  let s := s.wrAll (R.LOCAL r mb) (head :: i.tag :: ws)
  let s := (s.setFlag r (s.fld (R.FL_CFG f) F.FL_CFG_FLAG) true).hgEval s.t0
  let s := s.setFlowX f { x with count := n, last := s.seq, later := (s.taskX (taskKey r t)).live }
  (s.setFld (R.FL_STAT f) F.FL_STAT_STATE 1).setFld (R.FL_STAT f) F.FL_STAT_HOLDER t
/-- A flow has been in SERVICE or WAITING for more than HOLD_MAX cycles since its last dispatch (R227). -/
def State.flowOver (s : State) (f : Nat) : Bool :=
  s.flowState f ≠ 0 && (s.seq - (s.flowX f).last).toNat > s.fld (R.FL_HOLD f) F.FL_HOLD_HOLD_MAX
/-- A flow that a task holds is over HOLD_MAX: the task is killed at this t0 (R227, R228). -/
def State.taskOver (s : State) (r t : Nat) : Bool :=
  s.usedFlows.any (fun g => s.flowRegion g = r && s.flowHolder g = t && s.flowOver g)
/-- An item of a flow is dispatched, or discarded while it cannot be served (R224, R228, R235): a task that HOLD_MAX kills at
this t0 is DISABLED before the dispatches, as one that a command kills. -/
def State.flowDispatch (s : State) (f : Nat) (i : ItemX) : State :=
  let r := s.flowRegion f
  match s.flowTask f with
  | some t =>
    if s.stopped || s.dieState (r / 4) ≠ 0 || s.taskState r t = 0 || s.taskOver r t then s.incr R.TK_HUB_DROP
    else s.flowServe f t i
  | none => s.incr R.TK_HUB_DROP
/-- An item reaches its flow in its assigned cycle (R224, R226). In the cycle in which HOLD_MAX kills the holder it is
discarded (Coincidences). -/
def State.flowTake (s : State) (f : Nat) (i : ItemX) (tag : Word) : State :=
  if !s.bit (R.FL_CFG f) F.FL_CFG_USED || s.flowOver f then s.incr R.TK_HUB_DROP
  else if s.flowState f ≠ 1 then s.flowDispatch f i
  else if s.stopped then s.incr R.TK_HUB_DROP
  else if s.fld R.TK_HUB_STAT F.TK_HUB_STAT_QLEN ≥ 4096 then
    (s.incr R.TK_HUB_DROP).raise 1 0xE 1 R.TK_HUB_STAT F.TK_HUB_STAT_QFULL tag
  else s.flowQueue f ((s.flowX f).queue ++ [i])
/-- An item that an entry of the log brings at t0 is dispatched after every entry of the cycle, so that a kill among them
comes first (R228, Coincidences). -/
def State.flowItem (s : State) (f : Nat) (i : ItemX) (tag : Word) : State :=
  match s.cyc.items with
  | some l => { s with cyc := { s.cyc with items := some (l ++ [(f, i, tag)]) } }
  | none => s.flowTake f i tag
/-- At t0 each flow that is not in SERVICE dispatches the head of its queue (R224). -/
def State.flowNext (s : State) (f : Nat) : State :=
  match (s.flowX f).queue with
  | i :: q => if s.flowState f = 1 || s.flowOver f then s else (s.flowQueue f q).flowDispatch f i
  | [] => s
/-- The wait of a flow expires (R225): a TIMEOUT item, when it still waits as after its `count`-th dispatch. -/
def State.flowExpiry (s : State) (f count : Nat) : State :=
  if s.flowState f = 2 && (s.flowX f).count = count && !s.flowOver f then s.flowDispatch f ⟨0, 0, s.rd (R.FL_TO f), []⟩ else s
/-- The holder instance of a flow completes (R224, R225). -/
def State.flowDone (s : State) (f : Nat) : State :=
  let r := s.flowRegion f
  let x := s.flowX f
  let w := s.fld (R.FL_CFG f) F.FL_CFG_WAIT_FLAG
  if x.later then s.setFlowX f { x with later := false }
  else if s.bit (R.FL_CFG f) F.FL_CFG_WAIT_EN && s.flag r w then
    (s.setFlag r w false).setFld (R.FL_STAT f) F.FL_STAT_STATE 2
  else s.setFld (R.FL_STAT f) F.FL_STAT_STATE 0
/-- The flows that a task holds in a state of a list. -/
def State.flowsOf (s : State) (r t : Nat) (sts : List Nat) : List Nat :=
  s.usedFlows.filter (fun f => s.flowRegion f = r && s.flowHolder f = t && sts.contains (s.flowState f))
/-- An instance of a task completes: its flows, and a pending instance (R221). -/
def State.taskEnds (s : State) (r t now : Nat) : State :=
  let s := s.each (s.flowsOf r t [1]) (fun s f => s.flowDone f)
  let st := R.TK_STATE r t
  (if s.bit st F.TK_STATE_PEND then (s.setFld st F.TK_STATE_PEND 0).taskFire r t now else s).hgEval now

-- the engine

/-- A write of a task (R53): event flags and variables; of a lane's fields, CMD and CMD_ARG only (R183). -/
def State.netWrite (s : State) (p : Nat × Word) (tag : Word) : State :=
  if isFlagRef p.1 then
    let i := Ref.index p.1 - 0x400
    s.setFlag (i / 64) (i % 64) (p.2 ≠ 0)
  else if Ref.space p.1 = 6 ∧ Ref.index p.1 % 256 ≠ 6 ∧ Ref.index p.1 % 256 ≠ 7 then s
  else s.writeVar p.1 p.2 tag
/-- Apply writes in order; a term that a flag feeds follows each write of it (R219, R305). -/
def State.netWrites (s : State) (ws : List (Nat × Word)) (now : Nat) : State :=
  s.each ws (fun s p => (s.netWrite p (tagOf now)).when (isFlagRef p.1) (fun s => s.hgEval now))
/-- Show the status of an evaluation (R211). -/
def State.netShow (s : State) (r t : Nat) (x : NetRun) : State :=
  let a := R.NE_STAT r
  let s := (s.when x.fx.sat (fun s => s.set1 a F.NE_STAT_SAT)).when x.fx.divz (fun s => s.set1 a F.NE_STAT_DIVZ)
  let s := s.when x.fx.inv (fun s => s.set1 a F.NE_STAT_INVALID)
  match x.last with
  | some i => s.wr (R.NE_LAST_NODE r) (Word.ofN (i + t * 2 ^ 16))
  | none => s
/-- The latch list of a background task (R63, R217). -/
def State.taskLatch (s : State) (r t : Nat) : List (Nat × Nat) :=
  if s.taskInPhase r t then [] else (Smap.find s.img.latch (taskKey r t)).getD []
/-- What a task reads (R63, R194, R217): for a word of its latch list the region local that holds the copy, and otherwise
the variables as they are. -/
def State.netEnv (s : State) (r t : Nat) (x : TaskX) : NetEnv where
  read := fun ref => match (s.taskLatch r t).find? (fun e => e.1 = ref) with
    | some e => s.rd (localReg e.2)
    | none => s.readRef true ref
  forced := s.forced
  ty := s.refTy
  dt := x.dt
/-- The instance of a task is given up: nothing of it remains but DT's reference. -/
def State.taskGone (s : State) (r t : Nat) : State :=
  let k := taskKey r t
  let x := s.rsX r
  let s := s.setTaskX k { (default : TaskX) with prev := (s.taskX k).prev }
  s.setRsX r { x with ready := x.ready.filter (fun u => u ≠ t), run := if x.run = some t then none else x.run }
/-- Show whether the engine evaluates an instance. -/
def State.netBusy (s : State) (r : Nat) : State := s.setB (R.NE_STAT r) F.NE_STAT_BUSY (s.rsX r).run.isSome
/-- The offset at which Phase N of a region is done, and whether the Phase S gate has waited for it. -/
def State.regionReport (s : State) (off : Nat) : State :=
  (s.maxFld R.TM_PH_MAX_N F.TM_PH_MAX_N_OFFSET off).when (off > s.fld R.TM_PH_S_START F.TM_PH_S_START_OFFSET)
    (fun s => s.set1 R.TM_CYC_STAT F.TM_CYC_STAT_N_LATE)
/-- The instance of a task evaluates its next nodes, at most k (R186, R189): an in-phase instance writes, a background one
buffers. -/
def State.taskRun (s : State) (r t now k : Nat) : State :=
  let key := taskKey r t
  let x := s.taskX key
  let (run, p) := netRun (s.netNode r) (s.netEnv r t x) k x.pos ⟨x.ov, [], x.en, Fx.none, none⟩
  let ws := run.wr.reverse
  let s := s.setTaskX key { x with
    pos := p, en := run.en, ov := run.ov, since := now, writes := if s.taskInPhase r t then [] else x.writes ++ ws }
  let s := s.netShow r t run
  s.when (s.taskInPhase r t) (fun s => s.netWrites ws now)
/-- Stalls of a time that the engine has been at an instance (R185): how many of its nanoseconds is open (log 1). -/
def State.taskStalls (s : State) (r span : Nat) : State :=
  let (w, s) := s.draw
  s.addTo (R.NE_STALL_CNT r) (w.toNat % (span + 1))
/-- The engine leaves an instance at a node boundary (R214, R228, R235): how many nodes it has evaluated, one per
nanosecond at most, is open (R184, R185, log 1). -/
def State.taskPart (s : State) (r t now : Nat) : State :=
  let span := now - (s.taskX (taskKey r t)).since
  let (w, s) := s.draw
  let k := w.toNat % (span + 1)
  (s.taskRun r t now k).taskStalls r (span - k)
/-- The running in-phase instance of a region is abandoned after its current node (R228, R235). -/
def State.taskCut (s : State) (r now : Nat) : State :=
  match (s.rsX r).run with
  | some t => s.when (s.taskInPhase r t) (fun s => s.taskPart r t now)
  | none => s
/-- A residue mismatch of the re-execution (R207): the instance is abandoned, its Phase N counts as done, and the region
dispatches nothing until the stop. -/
def State.netFail (s : State) (r t node off : Nat) : State :=
  let before := s.regionDone r
  let s := (s.eventU false 0x3002 4 8 (taskKey r t) [Word.ofN node, Word.ofN r]).stopCause 2
  let s := s.setRsX r { s.rsX r with halt := true }
  let s := (s.each (t :: (s.usedTasks r).filter (s.taskGoes r)) (fun s u => (s.taskGone r u).setTask r u 1)).netBusy r
  s.when (!before && s.regionDone r) (fun s => s.regionReport off)
/-- A node is executed again after a residue mismatch (R206). -/
def State.netRetry (s : State) (r : Nat) (tag : Word) : State :=
  let a := R.NE_STAT r
  ((s.set1 a F.NE_STAT_RES_RETRY).incr (R.NE_RES_RETRY_CNT r)).eventP false 1 0 3 r (Word.ofN a) F.NE_STAT_RES_RETRY.mask tag
/-- The residue mismatches that the instance meets from here on (R206, R207), in the order of its nodes: at the first whose
re-execution mismatches too it ends, after the nodes before it. -/
def State.taskMismatch (s : State) (r t off : Nat) (mis : List (Nat × Bool)) : State :=
  if mis = [] then s
  else
    let now := s.now off
    let path := netPath (s.netNode r) 8192 (s.taskX (taskKey r t)).pos
    let hits := path.filterMap (fun i => mis.find? (fun m => m.1 = i))
    let fatal := hits.find? (fun m => m.2)
    let s := s.each (hits.takeWhile (fun m => !m.2) ++ fatal.toList) (fun s _ => s.netRetry r (tagOf now))
    match fatal with
    | some m => (s.taskRun r t now (path.idxOf m.1)).netFail r t m.1 off
    | none => s
/-- The engine takes up an instance: the first time at its ENTRY node, and later at its next node (R186, R214). -/
def State.taskStart (s : State) (r t off : Nat) (mis : List (Nat × Bool)) : State :=
  let k := taskKey r t
  let x := s.taskX k
  let now := s.now off
  let x := if x.disp.isSome then { x with since := now }
    else { x with disp := some now, since := now, pos := some (s.fld (R.TK_CFG r t) F.TK_CFG_ENTRY), en := true }
  (s.setTaskX k x).taskMismatch r t off mis
/-- The task of highest priority that may run, the first of its list (R214). -/
def State.taskBest (s : State) (r : Nat) : Option Nat :=
  ((s.rsX r).ready.filter (s.taskMay r)).foldl (fun b t =>
    match b with
    | some u => if s.fld (R.TK_CFG r t) F.TK_CFG_PRIO < s.fld (R.TK_CFG r u) F.TK_CFG_PRIO then some t else b
    | none => some t) none
/-- The engine takes a task. -/
def State.taskTake (s : State) (r t off : Nat) (mis : List (Nat × Bool)) : State :=
  let x := s.rsX r
  let s := (s.setRsX r { x with ready := x.ready.filter (fun u => u ≠ t), run := some t }).setTask r t 4
  (s.netBusy r).taskStart r t off mis
/-- The scheduler of a region gives the engine its next instance (R214, R216): one of higher priority preempts the running
one, which stays at the head of its list. -/
def State.taskDispatch (s : State) (r off : Nat) (mis : List (Nat × Bool)) : State :=
  if s.stopped || s.dieState (r / 4) ≠ 0 || s.regionHeld r || (s.rsX r).halt then s
  else match s.taskBest r, (s.rsX r).run with
    | some t, none => s.taskTake r t off mis
    | some t, some u =>
      if s.fld (R.TK_CFG r t) F.TK_CFG_PRIO < s.fld (R.TK_CFG r u) F.TK_CFG_PRIO then
        let s := s.taskPart r u (s.now off)
        let x := s.rsX r
        ((s.setRsX r { x with ready := u :: x.ready }).setTask r u 5).taskTake r t off mis
      else s
    | none, _ => s
/-- The running instance of a region evaluates what is left up to its END node, and is complete (R62, R63, R186, R221). -/
def State.taskComplete (s : State) (r off : Nat) : State :=
  match (s.rsX r).run with
  | none => s
  | some t =>
    let k := taskKey r t
    let now := s.now off
    let s := (s.taskRun r t now 8192).taskStalls r (now - (s.taskX k).since)
    let x := s.taskX k
    let s := ((s.setRsX r { s.rsX r with run := none }).netBusy r).setTask r t 1
    let s := s.incr (R.TK_RUNS r t)
    let s := s.maxFld (R.TK_EXEC_MAX r t) F.TK_EXEC_MAX_NS (now - x.disp.getD now)
    if s.taskInPhase r t then
      let s := ((s.setTaskX k { x with live := false, done := true }).taskEnds r t now).taskTriggers r now
      s.when (s.regionDone r) (fun s => s.regionReport off)
    else s.setTaskX k { x with done := true }

-- cycle points

/-- Publication at t0 (R63): the background instances that are due, in ascending task number; one that is not complete
trips the watchdog (R234). -/
def State.taskPublish (s : State) (r : Nat) : State :=
  s.each (s.usedTasks r) (fun s t =>
    let k := taskKey r t
    let x := s.taskX k
    if !x.live || s.taskInPhase r t || x.due ≠ s.seq then s
    else if x.done then ((s.netWrites x.writes s.t0).taskGone r t).taskEnds r t s.t0
    else s.watchdog r t true)
/-- The cyclic tasks of a region that are due (R213). -/
def State.taskDue (s : State) (r : Nat) : State :=
  s.each (s.usedTasks r) (fun s t =>
    if !s.taskEvent r t && s.taskState r t ≠ 0 &&
        s.cycleNo % s.fld (R.TK_TIME r t) F.TK_TIME_K = s.fld (R.TK_TIME r t) F.TK_TIME_PH
    then s.taskBegin r t s.t0 else s)
/-- Background instances are released at the Phase S gate (R217): the latch copy into region locals (R63), and the wake
point. -/
def State.taskRelease (s : State) (r now : Nat) : State :=
  s.each (s.usedTasks r) (fun s t =>
    let k := taskKey r t
    let x := s.taskX k
    if !x.live || s.taskInPhase r t || x.rel then s
    else
      let wake := s.t0 + s.fld (R.TK_CFG r t) F.TK_CFG_OFFS * 10000
      let s := s.each ((s.taskLatch r t).map (fun e => (localReg e.2, s.readRef true e.1))) (fun s e => s.wr e.1 e.2)
      let s := s.setTaskX k { x with rel := true, wake := wake }
      if wake ≤ now then s.taskReady r t now else s.setTask r t 2)
/-- The scheduler examines the release list (R218). -/
def State.taskWake (s : State) (r now : Nat) : State :=
  s.each (s.usedTasks r) (fun s t =>
    if s.taskState r t = 2 ∧ (s.taskX (taskKey r t)).wake ≤ now then s.taskReady r t now else s)
/-- The release lists are examined at a tick, a gate, a close and a t0 (R218). -/
def State.wakeAll (s : State) (now : Nat) : State := s.each s.activeRegions (fun s r => s.taskWake r now)
/-- In-phase instances that have not completed at the close trip the watchdog (R234). -/
def State.taskClose (s : State) (r : Nat) : State :=
  s.each ((s.usedTasks r).filter (s.taskGoes r)) (fun s t => s.watchdog r t false)

-- kill and enable

/-- The output words of an owner that a test picks. -/
def State.ownedWords (s : State) (p : Owner → Bool) : List Nat :=
  (s.img.owners.filter (fun e => Ref.space e.1 = 1 && Ref.index e.1 < 65536 && p e.2)).map (fun e => Ref.index e.1)
/-- A kill (R228): P0 1 for a command, 2 for HOLD_MAX; none at a fence. A running in-phase instance ends at its next node
boundary. The task's output words are fallow from the next close until an owner writes them. -/
def State.taskKill (s : State) (r t now : Nat) (p0 : Option Nat) : State :=
  if !s.bit (R.TK_CFG r t) F.TK_CFG_USED || s.taskState r t = 0 then s
  else
    let k := taskKey r t
    let s := s.when ((s.rsX r).run = some t) (fun s => s.taskCut r now)
    let s := ((s.taskGone r t).setTaskX k default).netBusy r
    let s := s.wr (R.TK_STATE r t) 0
    let words := s.ownedWords (fun o => match o with
      | .task q u => q.val = r && u.val = t
      | _ => false)
    let s := { s with stopFallow := (s.stopFallow ++ words).eraseDups }
    let s := s.each (s.flowsOf r t [1, 2]) (fun s f => s.flowDrop f)
    let s := s.set1 R.TK_HUB_STAT F.TK_HUB_STAT_KILL
    match p0 with
    | some c => s.eventU false 0x3004 2 8 k [Word.ofN c]
    | none => s
/-- ENABLE (R229). -/
def State.taskEnable (s : State) (r t : Nat) : State :=
  if s.bit (R.TK_CFG r t) F.TK_CFG_USED ∧ s.taskState r t = 0 then s.setTask r t 1 else s
/-- A TK_TASK_CMD code (R227, R229, R233): PROGRAM and REMOTE only; the status of R451. -/
def State.taskCommand (s : State) (r t code : Nat) : State × Nat :=
  if s.mode ≠ 1 ∧ s.mode ≠ 2 then (s, 1)
  else match code with
    | 1 => (s.taskKill r t s.t0 (some 1), 0)
    | 2 => (s.taskEnable r t, 0)
    | _ => (s, 0)
/-- The holder of a flow that has been held for more than HOLD_MAX cycles is killed (R227). -/
def State.flowHeld (s : State) (f : Nat) : State :=
  if s.flowOver f then s.taskKill (s.flowRegion f) (s.flowHolder f) s.t0 (some 2) else s

-- the controller stop

/-- The lanes, and the axes, that are configured. -/
def State.usedLanes (s : State) : List Nat := (List.range 16).filter s.laneUsed
def State.usedAxes (s : State) : List Nat := s.usedUnits 128 R.AX_CFG
/-- Every task of a region is abandoned, its flags are cleared and DT restarts (R222, R235, R202). -/
def State.taskHalt (s : State) (r : Nat) : State :=
  let s := s.taskCut r s.t0
  let s := s.each (s.usedTasks r) (fun s t =>
    (s.setTaskX (taskKey r t) default).when (s.taskState r t ≠ 0) (fun s => s.wr (R.TK_STATE r t) 1))
  let s := (s.setRsX r default).netBusy r
  (s.wr (R.TK_FLAGS_LO r) 0).wr (R.TK_FLAGS_HI r) 0
/-- The output words of tasks and lanes, which a stop makes fallow (R235). -/
def State.stopWords (s : State) : List Nat :=
  s.ownedWords (fun o => match o with
    | .task _ _ => true
    | .lane _ => true
    | _ => false)
/-- The units in a controller stop (R235): the lanes enter HOLD at t0, before the terms of the cycle's Phase S (log 217); no task runs and the flags are clear, the flows are idle, the slots without INDEP are
fallow, and the axes stop. -/
def State.unitsHalt (s : State) : State :=
  let tag := s.tag 0
  let s := s.each (List.range 128) (fun s c => s.swatchDue c 10)
  let s := (s.each (List.range 16) (fun s r => s.taskHalt r)).hgEval s.t0
  let s := s.each s.usedFlows (fun s f => s.flowDrop f)
  let s := s.each s.usedLanes (fun s l => s.laneConds l ((s.laneX l).conds ||| 2))
  let s := s.each s.usedSlots (fun s k =>
    if s.bit (R.LE_CFG k) F.LE_CFG_INDEP || s.dieState (k / 1024) ≠ 0 then s else s.setFcause k 1 tag)
  s.each s.usedAxes (fun s a => s.axSetCause a 2)
/-- The units after a stop (R236): the lanes stay in HOLD. -/
def State.unitsRun (s : State) : State :=
  let s := s.each s.usedLanes (fun s l => s.laneConds l ((s.laneX l).conds &&& 5))
  let s := s.each s.usedSlots (fun s k => s.clrFcause k 1)
  s.each s.usedAxes (fun s a => s.axClrCause a 2)
/-- The effects of a controller stop at the t0 at which it begins (R235). -/
def State.stopBegins (s : State) : State :=
  let causes := s.fld R.TK_CTL F.TK_CTL_CAUSE
  let s := (s.set1 R.TK_CTL F.TK_CTL_STOPPED).unitsHalt
  let s := { s with stopFallow := (s.stopFallow ++ s.stopWords).eraseDups }
  let fatal : Bool := causes.testBit 1 || causes.testBit 2
  let s := s.eventU (!fatal) 0x5002 (if fatal then 4 else 0) 0xE 0 [Word.ofN causes]
  s.irq0 F.HI_IRQ0_STAT_STOP
/-- The controller runs again (R236). -/
def State.stopOver (s : State) : State := (s.setFld R.TK_CTL F.TK_CTL_STOPPED 0).unitsRun
/-- At t0 the stop follows its causes (R236). -/
def State.stopApply (s : State) : State :=
  let on : Bool := s.fld R.TK_CTL F.TK_CTL_CAUSE ≠ 0
  if on && !s.stopped then s.stopBegins else if !on && s.stopped then s.stopOver else s

-- modes

/-- A key code becomes the package mode (R41, R231, R236); a mode change ends the check-value unit's CHANNELS (R478). -/
def State.keyApply (s : State) (code : Nat) : State :=
  let s := s.when (code ≠ s.mode) (fun s => s.setFld R.CV_CTL F.CV_CTL_MODE 0)
  let s := s.setFld R.TK_CTL F.TK_CTL_MODE code
  let s := s.when (code = 0 || code = 3) (fun s => s.each (List.range 128) (fun s c => s.swatchDue c 9))
  if code = 0 then ((s.stopCause 0).stopEnds 1).stopEnds 3 else s.stopEnds 0
/-- CTL_STOP and CTL_START apply (R233, R236): PROGRAM and REMOTE only; the status of R451. -/
def State.ctlCommand (s : State) (code : Nat) : State × Nat :=
  if s.mode ≠ 1 ∧ s.mode ≠ 2 then (s, 1)
  else match code with
    | 1 => (s.stopCause 3, 0)
    | 2 => ((s.stopEnds 1).stopEnds 3, 0)
    | _ => (s, 0)

-- the commands

/-- TASK_DISPATCH (R216). -/
def execTaskDispatch (r : RegionIx) (off : Nat) (mismatches : List (Nat × Bool)) (s : State) :
    Host.Outcome State Fault Refusal :=
  .next (s.taskDispatch r off mismatches)
/-- TASK_COMPLETE (R62). -/
def execTaskComplete (r : RegionIx) (off : Nat) (s : State) : Host.Outcome State Fault Refusal :=
  .next (s.taskComplete r off)
/-- RELEASE_TICK (R217, R218): the instances whose tick OFFS has come leave the release list. -/
def execReleaseTick (r : RegionIx) (off : Nat) (s : State) : Host.Outcome State Fault Refusal :=
  .next (s.taskWake r (s.now off))
/-- KILL (R227, R228). -/
def execKill (r : RegionIx) (t : Fin 256) (s : State) : Host.Outcome State Fault Refusal :=
  let (s, c) := s.taskCommand r t 1
  .next (s.werrIf R.TK_TASK_CMD c)
/-- ENABLE (R229). -/
def execEnable (r : RegionIx) (t : Fin 256) (s : State) : Host.Outcome State Fault Refusal :=
  let (s, c) := s.taskCommand r t 2
  .next (s.werrIf R.TK_TASK_CMD c)
/-- WAIT_EXPIRY (R225): the expiry of a wait is a non-field input, and is assigned a cycle (R60). -/
def execWaitExpiry (f : FlowIx) (s : State) : Host.Outcome State Fault Refusal :=
  let k := LogKind.expiry f (s.flowX f).count
  .next (if s.flowState f ≠ 2 then s else if s.role = 2 then s.seenAdd (s.tag 0) k else s.logAdd (s.tag 0) k)
/-- HOLD_MAX_EXPIRY (R227). -/
def execHoldMaxExpiry (f : FlowIx) (s : State) : Host.Outcome State Fault Refusal := .next (s.flowHeld f)
/-- KEY_CHANGE (R231): the accepted code is a non-field input, except that before step 9 of start-up it only waits to be
read there (R511). -/
def execKeyChange (code : BitVec 2) (s : State) : Host.Outcome State Fault Refusal :=
  let s := (s.setFld R.TK_KEY F.TK_KEY_KEY code.toNat).setFld R.TK_KEY F.TK_KEY_PINS code.toNat
  let s := { s with boot := { s.boot with keyed := true } }
  .next (if s.role = 2 ∨ s.fld R.BT_STAT F.BT_STAT_PHASE ≠ 7 then s else s.logAdd (s.tag 0) (.key code))
/-- PAIR_DIFF (R232). -/
def execPairDiff (s : State) : Host.Outcome State Fault Refusal :=
  .next (if s.role = 2 then s.raiseEdge 1 0xE 0 R.TK_KEY F.TK_KEY_PAIR_DIFF (s.tag 0) else s)
/-- CTL_STOP (R230, R233). -/
def execCtlStop (s : State) : Host.Outcome State Fault Refusal :=
  let (s, c) := s.ctlCommand 1
  .next (s.werrIf R.TK_CTL_CMD c)
/-- CTL_START (R236). -/
def execCtlStart (s : State) : Host.Outcome State Fault Refusal :=
  let (s, c) := s.ctlCommand 2
  .next (s.werrIf R.TK_CTL_CMD c)

end Sys2Proof.Machine
end

