-- ==== Sys2Proof/Machine/Changes.lean ====
section
/-!
DEFINITION. Forces (R237 to R241, R533) and on-line change groups (R242, R243, R177, R209).
-/
namespace Sys2Proof.Machine

-- forces

/-- The BAR0 writes that a command makes (R460). -/
def cmdWrites (d : Desc) : List (Nat × Word × Word) :=
  match d.opc with
  | 1 => [(d.p0.toNat, d.p1, d.p2)]
  | 2 => (List.range (d.len / 4)).map (fun i =>
      (d.p0.toNat + 4 * i, Word.ofBytes ((d.data.drop (4 * i)).take 4), (0xFFFFFFFF : Word)))
  | _ => []
/-- The BAR0 writes that an entry of the log makes. -/
def entryWrites (e : LogEntry) : List (Nat × Word × Word) :=
  match e.kind with
  | .hostWrite a v m => [(a, v, m)]
  | .hostCmd ms => (ms.map (fun m => cmdWrites m.desc)).flatten
  | _ => []
/-- A command of a register awaits its cycle in the log (R241). -/
def State.logAwaits (s : State) (a : Nat) : Bool :=
  s.log.any (fun e => (entryWrites e).any (fun w => w.1 = a && regCmd a w.2.1 w.2.2 ≠ 0))
/-- The active entries of the force table: (entry, reference) (R237). -/
def State.forces (s : State) : List (Nat × Nat) :=
  s.io.filterMap (fun e =>
    if 0x50000 ≤ e.1 ∧ e.1 < 0x60000 ∧ e.1 % 16 = 0 ∧ e.2.getLsbD 31 = true then
      some ((e.1 - 0x50000) / 16, e.2.toNat % 2 ^ 20) else none)
/-- Entry i of the force table is active, with its reference. -/
def State.forceAt (s : State) (i : Nat) : Option Nat :=
  let w := s.rd (R.FORCE i)
  if w.getLsbD 31 then some (w.toNat % 2 ^ 20) else none
/-- REF is a declared word of space 0, 1 or 2 (R237). -/
def State.forceRefOk (s : State) (ref : Nat) : Bool :=
  Ref.space ref ≤ 2 && (Ref.space ref = 2 || Ref.index ref < 65536) && (Smap.find s.img.decls ref).isSome
/-- REF lies in a permission range (R237). -/
def State.forcePermit (s : State) (ref : Nat) : Bool :=
  (List.range 64).any (fun j =>
    s.fld (R.TK_FRC_PERM_LO j) F.TK_FRC_PERM_LO_REF ≤ ref && ref ≤ s.fld (R.TK_FRC_PERM_HI j) F.TK_FRC_PERM_HI_REF)
/-- The first failing check of a SET (R241), as TK_FRC_STAT.CAUSE. -/
def State.forceCheck (s : State) (i ref : Nat) (mask : Word) : Nat :=
  if s.mode ≠ 1 then 1
  else if !s.forceRefOk ref then 5
  else if !s.forcePermit ref then 2
  else if s.refTy ref ≠ .u32 ∧ mask ≠ 0xFFFFFFFF then 3
  else if s.forces.any (fun e => e.1 ≠ i && e.2 = ref) then 4
  else 0
/-- An output word as the hub forms it at t0 from the values of the last close and the forces in effect (R533). -/
def State.formOut (s : State) (w : Nat) : Word :=
  let v := if s.closeFallow.contains w then s.wordFallow w
    else s.forced (Ref.outWord w) (Smap.get (fun _ => 0) s.closeVal w)
  let m := Smap.get (fun _ => 0) s.closeRew w
  (v &&& ~~~ m) ||| (s.snapVal w &&& m)
/-- A force on a reference has changed: an output word is formed again in the control-die copies (R533). -/
def State.forceMoved (s : State) (ref : Nat) : State :=
  let w := Ref.index ref
  if Ref.space ref = 1 ∧ w < 65536 then
    { s with outCopy := Smap.set (fun _ => 0) s.outCopy w (s.formOut w) }
  else s
/-- Show the result of a force command, the number of active entries, and whether another command awaits its cycle. -/
def State.forceStat (s : State) (cause : Nat) : State :=
  let a := R.TK_FRC_STAT
  ((s.setB a F.TK_FRC_STAT_BUSY (s.logAwaits R.TK_FRC_CMD)).setFld a F.TK_FRC_STAT_CAUSE cause).setFld a F.TK_FRC_STAT_COUNT s.forces.length
/-- Clear an entry. -/
def State.forceClear (s : State) (i : Nat) : State :=
  match s.forceAt i with
  | some ref => (s.wrAll (R.FORCE i) [0, 0, 0]).forceMoved ref
  | none => s
/-- SET applies (R241): the staged reference, mask and value. -/
def State.forceSet (s : State) (i : Nat) : State :=
  let ref := s.fld R.TK_FRC_REF F.TK_FRC_REF_REF
  let mask := s.rd R.TK_FRC_MASK
  let c := s.forceCheck i ref mask
  if c ≠ 0 then s.forceStat c
  else
    let s := (s.forceClear i).wrAll (R.FORCE i) [Word.ofN (ref + 2 ^ 31), mask, s.rd R.TK_FRC_VAL]
    (s.forceMoved ref).forceStat 0
/-- RELEASE and RELEASE_ALL apply (R241). -/
def State.forceRelease (s : State) (i : Nat) : State := (s.forceClear i).forceStat 0
def State.forceReleaseAll (s : State) : State := (s.each s.forces (fun s e => s.forceClear e.1)).forceStat 0
/-- A TK_FRC_CMD code (R241). -/
def State.forceCommand (s : State) (code i : Nat) : State :=
  match code with
  | 1 => s.forceSet i
  | 2 => s.forceRelease i
  | 3 => s.forceReleaseAll
  | _ => s.setB R.TK_FRC_STAT F.TK_FRC_STAT_BUSY (s.logAwaits R.TK_FRC_CMD)

-- on-line change

/-- An entry of a group (R242). -/
structure Olc where
  kind : Nat
  sub : Nat
  tgt : Nat
  old : Word
  new : Word
  deriving DecidableEq, Repr
/-- Entry i of the buffer. -/
def State.olcEntry (s : State) (i : Nat) : Olc :=
  let w := (s.rd (R.TK_OLC_BUF (4 * i))).toNat
  ⟨w % 16, w / 16 % 16, (s.rd (R.TK_OLC_BUF (4 * i + 1))).toNat, s.rd (R.TK_OLC_BUF (4 * i + 2)),
    s.rd (R.TK_OLC_BUF (4 * i + 3))⟩
/-- Fields of TARGET (R242). -/
def Olc.ref (e : Olc) : Nat := e.tgt % 2 ^ 20
def Olc.slot (e : Olc) : Nat := e.tgt % 4096
def Olc.word (e : Olc) : Nat := e.tgt / 4096 % 16
def Olc.recipe (e : Olc) : Nat := e.tgt % 256
def Olc.step (e : Olc) : Nat := e.tgt / 256 % 4096
def Olc.wr (e : Olc) : Nat := e.tgt / 2 ^ 20 % 1024
def Olc.exit (e : Olc) : Nat := e.tgt / 2 ^ 20 % 4
/-- What names the target of an entry. -/
def Olc.key (e : Olc) : Nat × Nat × Nat :=
  match e.kind with
  | 1 => (1, 0, e.ref)
  | 2 => (2, e.sub, e.tgt % 65536)
  | 3 => (3, 0, e.tgt % 2 ^ 30)
  | _ => (4, e.sub, e.tgt % 2 ^ 22)
/-- Byte address in the recipe store of the word that an entry changes. -/
def State.olcAddr (s : State) (e : Olc) : Nat :=
  if e.kind = 3 then s.writeAddr e.recipe e.step e.wr + 4
  else match e.sub with
    | 0 => s.stepAddr e.recipe e.step (5 + 3 * e.exit)
    | 1 => s.stepAddr e.recipe e.step (6 + 3 * e.exit)
    | _ => s.extAddr e.recipe e.step e.exit 0
/-- The value of a target. -/
def State.olcGet (s : State) (e : Olc) : Word :=
  match e.kind with
  | 1 => s.rd (R.CONST (Ref.index e.ref / 8192) (Ref.index e.ref % 8192))
  | 2 => s.lawWord e.slot e.sub e.word
  | _ =>
    let v := s.dword (s.olcAddr e)
    if e.kind = 4 ∧ e.sub = 1 then Word.ofN (v.toNat / 65536) else v
/-- A sample that runs keeps the coefficient with which it was released (R242). -/
def State.olcKeep (s : State) (k key : Nat) : State :=
  let x := s.slotX k
  let v : Word := Smap.get (fun _ => 0) s.lawMem key
  s.setSlotX k { x with ready := x.ready.map (fun r =>
    if (Smap.find r.old key).isSome then r else { r with old := Smap.put r.old key v }) }
/-- Write a target. -/
def State.olcPut (s : State) (e : Olc) : State :=
  match e.kind with
  | 1 => s.wr (R.CONST (Ref.index e.ref / 8192) (Ref.index e.ref % 8192)) e.new
  | 2 =>
    let key := lawKey e.slot e.sub e.word
    (s.olcKeep e.slot key).setLawKey key e.new
  | _ =>
    let a := s.olcAddr e
    let v := s.dword a
    s.setDword a (if e.kind = 4 ∧ e.sub = 1 then Fld.put ⟨16, 16⟩ v e.new.toNat else e.new)
/-- TARGET fails (R243). -/
def State.olcTargetBad (s : State) (e : Olc) : Bool :=
  match e.kind with
  | 1 => Ref.space e.ref ≠ 3 || (Smap.find s.img.decls e.ref).isNone
  | 2 => !s.bit (R.LE_CFG e.slot) F.LE_CFG_USED || e.sub > s.fld (R.LE_CFG e.slot) F.LE_CFG_NSTG || e.word ≥ 12
  | 3 => !s.rcpValid e.recipe || e.step ≥ s.rcpSteps e.recipe || e.wr ≥ s.stepWrites e.recipe e.step
  | _ => !s.rcpValid e.recipe || e.step ≥ s.rcpSteps e.recipe || e.exit ≥ s.stepExits e.recipe e.step ||
      (e.sub = 2 && !s.stepExt e.recipe e.step)
/-- A word is no value of a type: a non-finite binary32. -/
def tyBad (t : Ty) (w : Word) : Bool := t = .f32 && !F32.finite w
/-- The type of VALUE and VALUE2 of an exit (R151, R164); none where the field is ignored. -/
def State.exitTy (s : State) (x : ExitD) (second : Bool) : Option Ty :=
  match x.typ with
  | 0 => if second then none else some .u32
  | 1 => some (s.refTy x.src)
  | 2 => some (s.refTy x.src)
  | 3 => some .f32
  | _ => none
/-- VALUE fails (R243, R146, R152). -/
def State.olcValueBad (s : State) (e : Olc) : Bool :=
  match e.kind with
  | 1 => tyBad (s.refTy e.ref) e.new
  | 2 => !F32.finite e.new
  | 3 =>
    let w := s.stepWrite e.recipe e.step e.wr
    let t := s.refTy w.target
    if w.mode = 2 then !s.constOk (e.new.toNat % 2 ^ 20) t || e.new.toNat ≥ 2 ^ 20 else tyBad t e.new
  | _ =>
    let x := s.stepExit e.recipe e.step e.exit
    if e.sub = 1 then e.new.toNat ≥ 65536
    else
      let bad := match s.exitTy x (e.sub = 2) with
        | some t => tyBad t e.new
        | none => false
      bad || (e.sub = 0 && x.typ = 0 && e.new = 0) ||
        (e.sub = 2 && x.typ = 3 && (F32.sign e.new || F32.isZero e.new || Dy.lt (Dy.ofInt 1) (F32.toDy e.new)))
/-- A law word is bound by an enabled LE_TPMAP byte (R115, R243). -/
def State.olcMapped (s : State) (e : Olc) : Bool :=
  e.kind = 2 && (List.range 8).any (fun n =>
    let m := (s.rd (if n < 4 then R.LE_TPMAP0 e.slot else R.LE_TPMAP1 e.slot)).toNat >>> (8 * (n % 4)) % 256
    m ≥ 128 && m % 8 = e.sub && m / 8 % 16 = e.word)
/-- The first failing check of an entry, in the order of R243; 0 for none. -/
def State.olcCause (s : State) (earlier : List Olc) (e : Olc) : Nat :=
  if e.kind = 0 ∨ e.kind > 4 ∨ (e.kind = 2 ∧ e.sub ≥ 8) ∨ (e.kind = 4 ∧ e.sub ≥ 3) ∨
      ((e.kind = 1 ∨ e.kind = 3) ∧ e.sub ≠ 0) then 4
  else if s.olcTargetBad e then 5
  else if s.olcValueBad e then 6
  else if s.olcMapped e then 7
  else if s.olcGet e ≠ e.old then 8
  else if earlier.any (fun f => f.key = e.key) then 9
  else 0
/-- The first failing entry and its cause. -/
def State.olcCheck (s : State) (i : Nat) (earlier : List Olc) : List Olc → Option (Nat × Nat)
  | [] => none
  | e :: rest =>
    let c := s.olcCause earlier e
    if c ≠ 0 then some (i, c) else s.olcCheck (i + 1) (e :: earlier) rest
/-- Some entry changes the step of a recipe, or a constant that a CONST write of it names (R177). -/
def State.olcTouches (s : State) (es : List Olc) (n k : Nat) : Bool :=
  es.any (fun e =>
    ((e.kind = 3 || e.kind = 4) && e.recipe = n && e.step = k) ||
      (e.kind = 1 && (s.stepWriteList n k).any (fun w => w.mode = 2 && w.value.toNat % 2 ^ 20 = e.ref)))
/-- Staged entries of a lane that hold a changed step are frogged and fetched again (R177). -/
def State.olcFrog (s : State) (l : Nat) (es : List Olc) : State :=
  let n := s.laneRecipe l
  let hit := (List.range 8).filter (fun i => !s.stgFree l i && s.olcTouches es n (s.fld (R.SQ_STG l i) F.SQ_STG_STEP))
  if hit = [] then s
  else
    let at_ := s.seq + 2
    let s := s.each hit (fun s i =>
      let x := s.laneX l
      let wait := match x.wait with
        | some w => if w.entry = some i then some { w with ready := at_ } else some w
        | none => none
      (s.setFld (R.SQ_STG l i) F.SQ_STG_STATE 1).setLaneX l
        { x with ready := Smap.set (fun _ => 0) x.ready i at_, wait := wait })
    (s.frogCount l hit.length).set1 (R.SQ_STAT l) F.SQ_STAT_EDIT_FROG
/-- The check value of the constants of a region (R209). -/
def State.constCrc (s : State) (r : Nat) : Word :=
  Word.ofN (Crc.of 1 (wordBytes (s.rdAll (R.CONST r 0) 8192)))
/-- Apply a group (R242): as a whole, or not at all. -/
def State.olcApply (s : State) : State :=
  let st := R.TK_OLC_STAT
  let n := s.fld R.TK_OLC_CTRL F.TK_OLC_CTRL_COUNT
  let s := (s.setFld st F.TK_OLC_STAT_BUSY 0).set1 st F.TK_OLC_STAT_DONE
  let es := (List.range n).map s.olcEntry
  let fail := if s.mode = 0 ∨ s.mode = 3 then some (0, 1) else if n = 0 ∨ n > 256 then some (0, 3)
    else s.olcCheck 0 [] es
  match fail with
  | some (i, c) => (s.setFld st F.TK_OLC_STAT_CAUSE c).setFld st F.TK_OLC_STAT_INDEX i
  | none =>
    let s := (s.setFld st F.TK_OLC_STAT_CAUSE 0).setFld st F.TK_OLC_STAT_INDEX 0
    let s := s.each es (fun s e => s.olcPut e)
    let rs := ((es.filter (fun e => e.kind = 1)).map (fun e => Ref.index e.ref / 8192)).eraseDups
    let s := s.each rs (fun s r => s.wr (R.NE_CONST_CRC r) (s.constCrc r))
    let ns := ((es.filter (fun e => e.kind ≥ 3)).map Olc.recipe).eraseDups
    let s := s.each ns (fun s n => s.setDword (rcpDir n 6) (s.rcpCrc n))
    let s := s.each s.usedLanes (fun s l => s.olcFrog l es)
    s.wr R.TK_OLC_SEQ s.seq

/-- FORCE_SET (R241). -/
def execForceSet (i : Fin 4096) (s : State) : Host.Outcome State Fault Refusal := .next (s.forceSet i)
/-- FORCE_RELEASE (R241). -/
def execForceRelease (i : Fin 4096) (s : State) : Host.Outcome State Fault Refusal := .next (s.forceRelease i)
/-- RELEASE_ALL (R241). -/
def execReleaseAll (s : State) : Host.Outcome State Fault Refusal := .next s.forceReleaseAll
/-- OLC_APPLY (R242). -/
def execOlcApply (s : State) : Host.Outcome State Fault Refusal := .next s.olcApply

end Sys2Proof.Machine
end

