-- ==== Sys2Proof/Machine/Field.lean ====
section
/-!
DEFINITION. The field network (chapter "Mbaxis field network"): frames sent and received, landing, station states at the
cut-off, discovery and admission, station commands, and the tail window.
-/
namespace Sys2Proof.Machine

-- stations and rings

def State.stnState (s : State) (k : Nat) : Nat := s.fld (R.FP_S_STAT k) F.FP_S_STAT_STATE
/-- A station takes a state; a change is recorded (R373, R489). -/
def State.setStn (s : State) (k st : Nat) : State :=
  let old := s.stnState k
  if old = st then s
  else (s.setFld (R.FP_S_STAT k) F.FP_S_STAT_STATE st).eventU false 0x6002 1 0xA k [Word.ofN old, Word.ofN st]
/-- The session after the present one (R376). -/
def State.nextSession (s : State) (k : Nat) : Nat :=
  let n := s.fld (R.FP_S_STAT k) F.FP_S_STAT_SESSION
  if n ≥ 65535 then 1 else n + 1
def State.setSession (s : State) (k n : Nat) : State := s.setFld (R.FP_S_STAT k) F.FP_S_STAT_SESSION n
/-- The session of an ADMIT entry (R374): the one that R376 has stepped to, and 1 where none has been set; the next one for a
station that is still admitted. -/
def State.admitSession (s : State) (k : Nat) : Nat :=
  let n := s.fld (R.FP_S_STAT k) F.FP_S_STAT_SESSION
  if s.stnState k ≥ 2 then s.nextSession k else if n = 0 then 1 else n

-- frames

/-- The bytes of a number, little-endian. -/
def leBytes (n v : Nat) : List Byte := (List.range n).map (fun i => BitVec.ofNat 8 (v >>> (8 * i)))
/-- A segment as the device sends it (R359): station index, CTRL, SESSION, the output words and what the snapshot holds for
them, ILEN and REW. -/
structure SegOut where
  stn : Nat
  ctrl : Nat
  session : Nat
  out : List Word
  snap : List Word
  ilen : Nat
  rew : Bool
  deriving DecidableEq, Repr
/-- The bytes of a segment (R359): what the station writes is sent as 0. -/
def SegOut.bytes (g : SegOut) : List Byte :=
  leBytes 1 g.stn ++ leBytes 1 g.ctrl ++ leBytes 2 g.session ++ leBytes 2 (4 * g.out.length) ++ leBytes 2 g.ilen ++
    wordBytes g.out ++ List.replicate (8 + g.ilen + 1) 0 ++ [if g.rew then 1 else 0, 0, 0]
/-- Fields of an Mbaxis header that differ between frames (R358). -/
structure FrameHdr where
  kind : Nat
  nseg : Nat
  fidx : Nat
  nfrm : Nat
  digest : Word
  deriving DecidableEq, Repr
/-- A frame that leaves a port (R358): MAC header, Mbaxis header, body, and what fills it to 64 bytes with the frame check
sequence. Reserved bytes are 0. -/
def State.frameBytes (s : State) (p : Nat) (h : FrameHdr) (body : List Byte) : List Byte :=
  let r := p / 2
  let mac := (if s.unit = 1 then s.img.macs.2 else s.img.macs.1) + p
  let b := List.replicate 6 0xFF ++ (leBytes 6 mac).reverse ++ (leBytes 2 (s.fld (R.FP_ETYPE r) F.FP_ETYPE_ETYPE)).reverse ++
    leBytes 1 (1 + 16 * h.kind) ++ leBytes 1 (r + 4 * (p % 2) + 8 * s.unit + 16 * s.role) ++ leBytes 1 h.nseg ++
    leBytes 1 (h.fidx + 16 * h.nfrm) ++ wordBytes [s.seq, h.digest, s.tag 0] ++ leBytes 2 s.bootId ++
    List.replicate 6 0 ++ body
  b ++ List.replicate (60 - b.length) 0

-- the train

/-- A segment of the train (R359): from the station entry and the snapshot, with the bits of true terms rewritten (R307,
R361). The first cycle after a restore sends APPLY = 0 (R442). -/
def State.segment (s : State) (k : Nat) (trues : List Nat) : SegOut :=
  let x := s.stnX k
  let ws := s.stnOut k
  let out (w : Nat) : Word := (s.snapVal w &&& ~~~ s.hgMask trues w) ||| (s.wordFallow w &&& s.hgMask trues w)
  ⟨k % 126, (if x.apply && !s.boot.quiet then 1 else 0) + (if x.fallow then 2 else 0),
    s.fld (R.FP_S_STAT k) F.FP_S_STAT_SESSION, ws.map out, ws.map s.snapVal, s.fld (R.FP_S_LEN k) F.FP_S_LEN_ILEN,
    ws.any (fun w => s.hgMask trues w ≠ 0)⟩
/-- The frames of a train: header and body, with DIGEST over the snapshot of the frame's own output data (R358). Frames that no
segment fills are empty. -/
def trainOf (nf : Nat) (fs : List (List SegOut)) : List (FrameHdr × List Byte) :=
  (fs ++ List.replicate (nf - fs.length) []).mapIdx (fun i (f : List SegOut) =>
    (⟨0, f.length, i, nf - 1, Word.ofN (Crc.of 1 (wordBytes (f.map SegOut.snap).flatten))⟩, (f.map SegOut.bytes).flatten))
/-- The train of the present cycle leaves on a ring, an offset after t0 (R356, R358): both ports send its frames in FIDX order,
and count them and the rewritten segments. -/
def State.ringSend (s : State) (r off : Nat) : State :=
  let ts := s.hgTrues
  let fs := (s.trainFrames r).map (fun f => f.map (fun e => (e.1, s.segment e.1 ts)))
  let nf := s.fld (R.FP_RING_CFG r) F.FP_RING_CFG_NFRM + 1
  let rew := (fs.flatten.filter (fun e => e.2.rew)).map Prod.fst
  let t := trainOf nf (fs.map (fun f => f.map Prod.snd))
  let s := s.setRingX r { s.ringX r with sent := true, sentAt := s.now off, rew := rew }
  s.each [2 * r, 2 * r + 1] (fun s p =>
    let s := s.each t (fun s e => s.emit (.frame p (s.frameBytes p e.1 e.2)))
    (s.addTo (R.FP_TX_CNT p) nf).addTo (R.FP_REW_CNT p) rew.length)
/-- The frames of the cycle leave every used ring (R46). -/
def State.trainSend (s : State) (off : Nat) : State := s.each s.usedRings (fun s r => s.ringSend r off)
/-- What the last cycle showed of a break (R367), at the start of a cycle; the record of the new cycle begins. -/
def State.ringTurn (s : State) (r : Nat) (seq : Word) : State :=
  let x := s.ringX r
  let a := R.FP_RING_STAT r
  let brk := x.sent && (x.loop || !x.dir0 || !x.dir1)
  let s := s.when (brk && !s.bit a F.FP_RING_STAT_BREAK) (fun s =>
    s.raise 1 0xA (0x210 + r) a F.FP_RING_STAT_BREAK_SEEN (s.tag 0))
  let s := s.setB a F.FP_RING_STAT_BREAK brk
  let whole : Bool := (List.range (s.fld (R.FP_RING_CFG r) F.FP_RING_CFG_NFRM + 1)).all x.back.contains
  s.setRingX r { (default : RingX) with
    prev := if x.sent then some (seq, x.sentAt, if whole then x.pass else none) else none
    times := x.times, disc := x.disc }

-- landing

/-- A segment lands from its first copy (R48, R50, R365). -/
def State.segLand (s : State) (k p off : Nat) (g : Seg) : State :=
  let n := s.fld (R.FP_S_LEN k) F.FP_S_LEN_ILEN / 4
  let base := s.fld (R.FP_S_MAP k) F.FP_S_MAP_IN_BASE
  let s := s.each (List.range n) (fun s i =>
    let s := s.wr (R.IN_WORD (base + i)) (g.input.getD i 0)
    { s with sampleT := Smap.set (fun _ => (0 : Word)) s.sampleT (base + i) g.stime })
  let s := s.setStnX k { s.stnX k with got := some (g.istat, g.stime, g.input), gotAt := (p, off) }
  let s := (s.wr (R.FP_S_ISTAT k) g.istat).setFld (R.FP_S_LAND_T k) F.FP_S_LAND_T_OFFSET off
  let s := s.when (g.istat.getLsbD 2) (fun s => s.incr (R.FP_S_DUP_CNT k))
  s.maxFld (R.FP_LAND_MAX (k / 126)) F.FP_LAND_MAX_OFFSET off
/-- One segment of a frame received on a port (R360, R364, R365). Of two copies that differ, the one on port 2r counts first
when both arrive in one CLK_HUB cycle, which is a time of arrival in whole nanoseconds (log 258). -/
def State.segReceive (s : State) (p off : Nat) (g : Seg) : State :=
  let r := p / 2
  let k := 126 * r + g.stn
  if g.stn ≥ 126 ∨ s.stnUsed k = false ∨ g.wkc = 0 then s
  else if g.wkc ≠ 0x81 then s.incr (R.FP_S_WKC_ERR_CNT k)
  else match (s.stnX k).got with
    | some c =>
      if s.cyc.cut ∨ c = (g.istat, g.stime, g.input) then s
      else
        let s := s.raise 1 0xA k (R.FP_RING_STAT r) F.FP_RING_STAT_IN_MIS (s.tag off)
        s.when (p = 2 * r && (s.stnX k).gotAt = (2 * r + 1, off)) (fun s =>
          (s.when (c.1.getLsbD 2) (fun s => s.wr (R.FP_S_DUP_CNT k) (s.rd (R.FP_S_DUP_CNT k) - 1))).segLand k p off g)
    | none =>
      if s.cyc.cut then (s.incr R.TM_LATE_LAND_CNT).set1 R.TM_CYC_STAT F.TM_CYC_STAT_LATE_LAND
      else s.segLand k p off g
/-- This unit's own frame has come back (R367, R390). -/
def State.ownFrame (s : State) (p off : Nat) (looped : Bool) (f : RxFrame) : State :=
  let r := p / 2
  let x := s.ringX r
  let s := s.setRingX r { x with
    loop := x.loop || looped, dir0 := x.dir0 || !f.dir, dir1 := x.dir1 || f.dir
    pass := if !f.dir && !looped && f.fidx = 0 && f.seq = s.seq then some (s.now off) else x.pass
    back := if !f.dir && !looped && f.seq = s.seq then x.back ++ [f.fidx] else x.back }
  s.when looped (fun s => s.set1 (R.FP_STAT p) F.FP_STAT_LOOPED)
/-- A frame of the other unit is forwarded to the other port of its ring (R357). -/
def State.frameForward (s : State) (p : Nat) (f : RxFrame) : State :=
  if s.bit (R.FP_RING_CFG (p / 2)) F.FP_RING_CFG_PAIR then s.emit (.forward (p ^^^ 1) f) else s
/-- A frame that is not dropped for what it is (R354): no MAC Control frame, of the ring's EtherType, and of an allowed length. -/
def State.frameWhole (s : State) (p : Nat) (f : RxFrame) : Bool :=
  f.etype ≠ 0x8808 && f.etype = s.fld (R.FP_ETYPE (p / 2)) F.FP_ETYPE_ETYPE && 64 ≤ f.size && f.size ≤ 1518
/-- A frame of the other unit lands (R364, R365): it is whole, of the running cycle, and before the cut-off. -/
def State.frameLands (s : State) (p : Nat) (home : Bool) (f : RxFrame) : Bool :=
  s.bit (R.FP_CFG p) F.FP_CFG_USED && !home && f.fcsOk && s.frameWhole p f && f.seq = s.seq && !s.cyc.cut
/-- A frame arrives at a field port (R354, R365). -/
def State.frameReceive (s : State) (p off : Nat) (home looped : Bool) (f : RxFrame) : State :=
  let st := R.FP_STAT p
  if !s.bit (R.FP_CFG p) F.FP_CFG_USED then s
  else if !f.fcsOk then
    ((s.incr (R.FP_FCS_CNT p)).set1 st F.FP_STAT_FCS_ERR).set1 st F.FP_STAT_DROPPED |>.incr (R.FP_DROP_CNT p)
  else if !s.frameWhole p f then (s.incr (R.FP_DROP_CNT p)).set1 st F.FP_STAT_DROPPED
  else
    let s := s.incr (R.FP_RX_CNT p)
    let s := if home then s.ownFrame p off looped f else s.frameForward p f
    if f.seq = s.seq then s.each f.segs (fun s g => s.segReceive p off g) else s

-- the cut-off

/-- The state that a landed segment's STATE gives (R373, R375): FALLOW leaves an ADMITTED station as it is, and the first
one after the admission ends FALLOW in its segment. -/
def State.stnReport (s : State) (k : Nat) (istat : Word) : State :=
  match istat.toNat % 4 with
  | 0 => s.setStn k 3
  | 1 => s.setStn k 4
  | 2 =>
    if s.stnState k ≠ 2 then s.setStn k 5
    else s.when (s.stnX k).first (fun s => s.setStnX k { s.stnX k with apply := true, fallow := false, first := false })
  | _ => s
/-- A station becomes ABSENT (R376): it takes the next session. -/
def State.stnAbsent (s : State) (k : Nat) : State :=
  ((s.setStn k 0).setSession k (s.nextSession k)).setStnX k { s.stnX k with adm := false, disc := false }
/-- A station becomes DISCOVERED (R373): one that was admitted takes the next session, as R374 gives the admission a new one
(log 259). -/
def State.stnSeen (s : State) (k : Nat) : State :=
  let s := s.when (s.stnState k ≥ 2) (fun s => s.setSession k (s.nextSession k))
  s.setStn k 1
/-- A station at the landing cut-off (R52, R64, R366, R373 to R376). -/
def State.stnCut (s : State) (k : Nat) : State :=
  let x := s.stnX k
  let a := R.FP_S_STAT k
  match x.got with
  | some (istat, _, _) =>
    let s := (s.setStnX k { x with age := 0, landed := true, miss := 0, disc := false }).setFld a F.FP_S_STAT_MISS 0
    s.stnReport k istat
  | none =>
    let m := x.miss + 1
    let s := s.setStnX k { x with age := min (x.age + 1) 255, landed := false, miss := m, disc := false }
    let s := (s.setFld a F.FP_S_STAT_MISS (min m 7)).incr (R.FP_S_MISS_CNT k)
    let st := s.stnState k
    if x.disc ∧ (st = 0 ∨ st ≥ 2) then s.stnSeen k
    else if st ≥ 2 ∧ m > s.fld (R.FP_S_LEN k) F.FP_S_LEN_MISS_TOL then s.stnAbsent k
    else s
/-- Every station at the landing cut-off; the hedgerow sees their states (R302). -/
def State.stnsCut (s : State) (now : Nat) : State := (s.each s.usedStns (fun s k => s.stnCut k)).hgEval now

-- discovery and admission

/-- A DISCOVER entry has come back to the unit that performs discovery (R374, R378). -/
def State.stnFound (s : State) (r : Nat) (e : DiscEntry) : State :=
  match (s.ringStns r).find? (fun k => s.rd64 (R.FP_S_EUI_LO k) = e.eui) with
  | none => (s.set1 (R.FP_RING_STAT r) F.FP_RING_STAT_UNKNOWN).wr64 (R.FP_UNKNOWN_EUI_LO r) e.eui
  | some k =>
    let x := s.stnX k
    let a := R.FP_S_STAT k
    let s := s.setStnX k { x with disc := true }
    let c := if s.rd (R.FP_S_TYPE k) ≠ e.stype then 1 else if s.rd (R.FP_S_CRC k) ≠ e.crc then 2 else 0
    let s := s.setFld a F.FP_S_STAT_CAUSE c
    if c = 0 then
      s.setStnX k { s.stnX k with adm := true, warned := false, tries := if x.adm then x.tries else 0 }
    else
      let s := s.setStnX k { s.stnX k with adm := false, warned := true }
      s.when (!x.warned) (fun s => s.statusEvent 1 0xA k a (Word.ofN (c * 256)) (s.tag 0))
/-- An ADMIT entry has come back (R374, R375): an acknowledgement is a non-field input. -/
def State.stnAnswer (s : State) (k off : Nat) (acked : Bool) : State :=
  let x := s.stnX k
  if !x.adm then s
  else if acked then
    (s.setStnX k { x with adm := false }).inputLog (s.tag off) (.station (Fin.ofNat 504 k))
  else if x.tries + 1 ≥ 16 then
    (s.setStnX k { x with adm := false, tries := 0 }).setFld (R.FP_S_STAT k) F.FP_S_STAT_CAUSE 3
  else s.setStnX k { x with tries := x.tries + 1 }
/-- The log entry of an admission applies (R373, R375). -/
def State.stnAdmit (s : State) (k : Nat) : State :=
  let s := (s.setSession k (s.admitSession k)).setStn k 2
  let s := (s.setFld (R.FP_S_STAT k) F.FP_S_STAT_MISS 0).incr (R.FP_S_ADMIT_CNT k)
  s.setStnX k { s.stnX k with apply := false, fallow := true, miss := 0, adm := false, first := true }

-- commands

/-- A station command (R377): 1 HOLD, 2 FALLOW, 3 RESUME, 4 READMIT. -/
def State.stnCommand (s : State) (k code : Nat) : State :=
  let a := R.FP_STN_CMD_STAT (k / 126)
  let s := s.setB a F.FP_STN_CMD_STAT_BUSY (s.logAwaits (R.FP_STN_CMD (k / 126)))
  let c := if code ≠ 2 ∧ s.mode ≠ 1 ∧ s.mode ≠ 2 then 1 else if s.stnUsed k = false then 3
    else if s.stnState k < 2 then 2 else 0
  let s := s.setFld a F.FP_STN_CMD_STAT_CAUSE c
  let x := s.stnX k
  if c ≠ 0 then s
  else match code with
    | 1 => s.setStnX k { x with apply := false }
    | 2 => s.setStnX k { x with fallow := true }
    | 3 => s.setStnX k { x with apply := true, fallow := false }
    | 4 => s.setSession k (s.nextSession k)
    | _ => s

-- the tail window

/-- Bytes that fit between an offset and the end of the tail window (R354, R362). -/
def State.tailRoom (s : State) (r off : Nat) : Nat :=
  (s.period - 100 - off) * 10 / s.byteTime r
/-- A TIME frame (R390): of the train of a cycle, its departure, the departure at the other port and its return, and
whether it has passed the whole ring. -/
def State.timeData (s : State) (r : Nat) (seq : Word) (tx : Nat) (dtx l : Word) (valid : Bool) : TailItem :=
  let sec := tx / 1000000000
  let u := (s.rd R.TM_RTC_UTC).toNat
  let flags := (if valid then 1 else 0) + s.fld R.TM_STATE F.TM_STATE_STATE * 2 + (u / 65536 % 4) * 16
  ⟨4, r, 1, wordBytes [seq, Word.ofN (tx % 1000000000), Word.ofN sec] ++ leBytes 2 (sec / 2 ^ 32) ++ leBytes 2 u ++
    wordBytes [dtx, l] ++ leBytes 4 flags⟩
/-- The TIME frame of a ring, for the train of the previous cycle (R390). Departures within their 20 ns, and DTX, are open;
so are L where the train has not passed the whole ring, and every time of a train that was not sent (log 1). -/
def State.timeFrame (s : State) (r : Nat) : TailItem × State :=
  let (a, s) := s.draw
  let (b, s) := s.draw
  let (c, s) := s.draw
  match (s.ringX r).prev with
  | none => (s.timeData r (s.seq - 1) a.toNat b c false, s)
  | some (seq, start, pass) =>
    let tx := start + a.toNat % 21
    let dtx := Word.ofI ((b.toNat % 41 : Nat) - 20 : Int)
    match pass with
    | some o => (s.timeData r seq tx dtx (Word.ofN (o - tx)) true, s)
    | none => (s.timeData r seq tx dtx c false, s)
/-- The ADMIT entry of a station (R374). -/
def State.admitFrame (s : State) (k : Nat) : TailItem :=
  let len := s.fld (R.FP_S_LEN k)
  ⟨2, k, 1, leBytes 8 (s.rd64 (R.FP_S_EUI_LO k)) ++ leBytes 2 (k % 126) ++ leBytes 2 (s.admitSession k) ++
    leBytes 2 (s.fld (R.FP_S_HOLD k) F.FP_S_HOLD_MS) ++ leBytes 2 (len F.FP_S_LEN_OLEN) ++
    leBytes 2 (len F.FP_S_LEN_ILEN) ++ wordBytes ((s.stnOut k).map s.wordFallow)⟩
/-- A frame goes out on port 2r of a ring (R358, R362). -/
def State.tailEmit (s : State) (r : Nat) (i : TailItem) : State :=
  (s.emit (.frame (2 * r) (s.frameBytes (2 * r) ⟨i.kind, i.nseg, 0, 0, 0⟩ i.data))).incr (R.FP_TX_CNT (2 * r))
/-- Send one tail frame if its last byte leaves within the room (R362, R363); otherwise it keeps its place. -/
def State.tailSend (s : State) (r room : Nat) (i : TailItem) : State × Nat × Bool :=
  let n := 50 + max i.data.length 22
  if n ≤ room then (s.tailEmit r i, room - (n + 12), true)
  else (s.set1 (R.FP_RING_STAT r) F.FP_RING_STAT_TAIL_FULL, 0, false)
/-- Tail frames have come back whole (R380): on the port opposite to the one that sent them, or on that port in a broken ring
(log 234). -/
def State.tailBacks (s : State) (r n : Nat) : State :=
  s.addTo (R.FP_RX_CNT (if s.bit (R.FP_RING_STAT r) F.FP_RING_STAT_BREAK then 2 * r else 2 * r + 1)) n
def State.tailBack (s : State) (r : Nat) : State := s.tailBacks r 1
/-- TIME frames have left: how many of them come back, which no command reports, is open (log 1, log 234). -/
def State.timeBack (s : State) (r n : Nat) : State :=
  let (w, s) := s.draw
  s.tailBacks r (w.toNat % (n + 1))
/-- A tail frame that this unit has not sent is the partner's (R357, R362): it is forwarded, on the port opposite to port 2r of
its ring, from which tail frames are sent. -/
def State.tailForward (s : State) (r kind : Nat) : State :=
  if s.bit (R.FP_RING_CFG r) F.FP_RING_CFG_PAIR then s.emit (.forwardTail (2 * r + 1) kind) else s
/-- The tail window of a ring (R362): TIME, ADMIT, DISCOVER and MAILBOX frames in this order, in a unit that acts. The
lengths that the spec does not give are those of the data alone, and a DISCOVER frame has room for a free number of
entries (log 52). -/
def State.tailWindow (s : State) (r : Nat) : State :=
  let cfg := R.FP_RING_CFG r
  if !s.ringUsed r || !s.acts then s
  else
    let room := s.tailRoom r (s.fld (R.FP_TAIL_START r) F.FP_TAIL_START_OFFSET)
    let (ti, s) := s.timeFrame r
    let (s, room, kept) := ((s.ringX r).times ++ [ti]).foldl (fun acc i =>
      let (s, room, kept) := acc
      let (s, room, ok) := s.tailSend r room i
      (s, room, if ok then kept else kept ++ [i])) (s, room, [])
    let n := (s.ringX r).times.length + 1 - kept.length
    let s := (s.setRingX r { s.ringX r with times := kept }).timeBack r n
    let (s, room) := ((s.ringStns r).filter (fun k => (s.stnX k).adm)).foldl (fun acc k =>
      let (s, room, _) := acc.1.tailSend r acc.2 (acc.1.admitFrame k)
      (s, room)) (s, room)
    let (s, room) := if s.cycleNo % s.fld cfg F.FP_RING_CFG_DISC_PERIOD = 0 || (s.ringX r).disc then
        let (n, s) := s.draw
        let (s, room, ok) := s.tailSend r room ⟨1, r, 0, List.replicate (24 * (n.toNat % 61 + 1)) 0⟩
        (s.setRingX r { s.ringX r with disc := !ok }, room)
      else (s, room)
    let (s, _, ms) := s.mails.foldl (fun acc m =>
      let (s, room, out) := acc
      if m.sent || m.stn / 126 ≠ r then (s, room, out ++ [m])
      else
        let body := leBytes 4 m.paddr ++ leBytes 4 m.len ++ (if m.wr then m.data else List.replicate m.len 0)
        let (s, room, ok) := s.tailSend r room ⟨3, m.stn, 1, body⟩
        (s, room, out ++ [{ m with sent := ok }])) (s, room, [])
    { s with mails := ms }

-- rows

/-- TAIL_WINDOW (R362). -/
def execTailWindow (ring : FRingIx) (_off : Nat) (s : State) : Host.Outcome State Fault Refusal :=
  .next (s.tailWindow ring)
/-- DISCOVER_RETURN (R374). -/
def execDiscoverReturn (ring : FRingIx) (entries : List DiscEntry) (s : State) :
    Host.Outcome State Fault Refusal :=
  .next (if s.acts then (s.tailBack ring).each entries (fun s e => s.stnFound ring e) else s.tailForward ring 1)
/-- ADMIT_RETURN (R374). -/
def execAdmitReturn (k : StnIx) (off : Nat) (acked : Bool) (s : State) : Host.Outcome State Fault Refusal :=
  .next (if s.acts then (s.tailBack (k.val / 126)).stnAnswer k off acked else s.tailForward (k.val / 126) 2)
/-- STN_HOLD (R377). -/
def execStnHold (k : StnIx) (s : State) : Host.Outcome State Fault Refusal := .next (s.stnCommand k 1)
/-- STN_FALLOW (R377). -/
def execStnFallow (k : StnIx) (s : State) : Host.Outcome State Fault Refusal := .next (s.stnCommand k 2)
/-- STN_RESUME (R377). -/
def execStnResume (k : StnIx) (s : State) : Host.Outcome State Fault Refusal := .next (s.stnCommand k 3)
/-- READMIT (R377). -/
def execReadmit (k : StnIx) (s : State) : Host.Outcome State Fault Refusal := .next (s.stnCommand k 4)
/-- LINK_LOST (R380). -/
def execLinkLost (p : PortIx) (s : State) : Host.Outcome State Fault Refusal :=
  let a := R.FP_STAT p
  .next (if s.bit a F.FP_STAT_LINK then (s.setFld a F.FP_STAT_LINK 0).set1 a F.FP_STAT_LINK_LOST else s)
/-- FIELD_LINK_UP (R380). -/
def execFieldLinkUp (p : PortIx) (s : State) : Host.Outcome State Fault Refusal :=
  .next (s.set1 (R.FP_STAT p) F.FP_STAT_LINK)

end Sys2Proof.Machine
end

