-- ==== Sys2Proof/Machine/ImageRefs.lean ====
section
/-!
DEFINITION. What the image rules say of references (R510): which a writer or a reader may name (R27, R53, R54), the nodes
of the nets (R190, R191, R196, R197, R219), the one writer of each destination (R22, R54), latch lists (R63, R217), and
LOCAL values (R35, R57).
-/
namespace Sys2Proof.Machine

-- references

/-- A reference names no reserved index, and no unit that the variant lacks (R4, R47, R54, R55, R56, R183, R267). -/
def State.refOk (s : State) (ref : Nat) : Bool :=
  let i := Ref.index ref
  ref = Ref.none || (s.refExists ref && (match Ref.space ref with
    | 0 => i % 65536 < 0xF900
    | 1 => i % 65536 < 0xF800
    | 5 => i % 32 ≤ 22
    | 6 => i % 256 ≤ 12 || (16 ≤ i % 256 && i % 256 < 64)
    | _ => true))
/-- A reference to a local, slot field or axis field stays in a region (R27, R54). -/
def refOwn (r ref : Nat) : Bool :=
  match Ref.space ref with
  | 2 => Ref.index ref / 8192 = r
  | 4 => Ref.index ref / 32 / 256 = r
  | 5 => Ref.index ref / 32 / 8 = r
  | _ => true
/-- A task or slot of a region may read a reference (R54). -/
def State.readOk (s : State) (r ref : Nat) : Bool := s.refOk ref && refOwn r ref
/-- The slot fields that have a writer (R114, R132), and those that a lane writes (R143). -/
def slotFieldWritten (f : Nat) : Bool := f = 0 || f = 4 || (6 ≤ f && f ≤ 20) || (26 ≤ f && f ≤ 29) || f = 31
def slotFieldLane (f : Nat) : Bool := f = 0 || f = 4 || (6 ≤ f && f ≤ 20)
/-- A writer may write a reference (R53, R54, R102, R143, R183, R219, R254). -/
def writeOk (w : Owner) (ref : Nat) : Bool :=
  let i := Ref.index ref
  match w, Ref.space ref with
  | _, 1 => i < 0xF800
  | .slot k, 2 => refOwn (k.val / 256) ref
  | .slot k, 4 => refOwn (k.val / 256) ref && slotFieldWritten (i % 32)
  | .slot k, 5 => refOwn (k.val / 256) ref && (i % 32 ≤ 6 || i % 32 = 8)
  | .task r _, 2 => refOwn r.val ref
  | .task r _, 4 => refOwn r.val ref && slotFieldWritten (i % 32)
  | .task r _, 5 => refOwn r.val ref && i % 32 ≤ 8
  | .task _ _, 6 => i % 256 = 6 || i % 256 = 7
  | .task r _, 7 => isFlagRef ref && (i - 0x400) / 64 = r.val
  | .lane _, 2 => true
  | .lane _, 4 => slotFieldLane (i % 32)
  | .lane _, 5 => i % 32 ≤ 6 || i % 32 = 8
  | .lane l, 6 => i / 256 = l.val && ((8 ≤ i % 256 && i % 256 < 12) || (32 ≤ i % 256 && i % 256 < 64))
  | _, _ => false

-- operations

/-- What R197 says of an operation: its TYPE codes; for the operands A, B and C, 0 when unused, 1 of TYPE, 2 of a type of its
own; for the result, 0 none, 1 of TYPE, 2 fixed, 3 a flag; the instance words at C; and whether DST holds state. -/
structure NetOp where
  tys : List Nat
  a : Nat
  b : Nat
  c : Nat
  res : Nat
  inst : Nat
  keep : Bool
  deriving DecidableEq, Repr
/-- The operation table (R197); none for a reserved code. -/
def netOp (opc : Nat) : Option NetOp :=
  let any : List Nat := [0, 1, 2]
  match opc with
  | 0x00 => some ⟨[0, 1, 2, 3], 0, 0, 0, 0, 0, false⟩
  | 0x01 => some ⟨any, 1, 0, 0, 1, 0, false⟩
  | 0x02 => some ⟨[1], 1, 1, 1, 1, 0, false⟩
  | 0x03 => some ⟨[1], 1, 1, 1, 1, 0, false⟩
  | 0x04 => some ⟨[1], 1, 1, 1, 1, 0, false⟩
  | 0x05 => some ⟨[1], 1, 0, 0, 1, 0, false⟩
  | 0x06 => some ⟨[0, 1], 1, 1, 0, 1, 0, false⟩
  | 0x07 => some ⟨[0, 1], 1, 1, 0, 1, 0, false⟩
  | 0x08 => some ⟨[1], 1, 1, 0, 1, 0, false⟩
  | 0x10 => some ⟨any, 1, 1, 0, 2, 0, false⟩
  | 0x11 => some ⟨any, 1, 1, 0, 2, 0, false⟩
  | 0x12 => some ⟨any, 1, 1, 0, 2, 0, false⟩
  | 0x13 => some ⟨any, 1, 1, 0, 2, 0, false⟩
  | 0x14 => some ⟨any, 1, 1, 0, 2, 0, false⟩
  | 0x15 => some ⟨any, 1, 1, 0, 2, 0, false⟩
  | 0x16 => some ⟨any, 1, 1, 1, 2, 0, false⟩
  | 0x17 => some ⟨[0, 2], 1, 1, 1, 2, 0, true⟩
  | 0x20 => some ⟨any, 1, 1, 1, 1, 0, false⟩
  | 0x21 => some ⟨any, 1, 1, 0, 1, 0, false⟩
  | 0x22 => some ⟨any, 1, 1, 0, 1, 0, false⟩
  | 0x23 => some ⟨any, 1, 1, 0, 1, 0, false⟩
  | 0x24 => some ⟨[0, 1], 1, 1, 0, 1, 0, false⟩
  | 0x25 => some ⟨[0, 2], 1, 0, 0, 1, 0, false⟩
  | 0x26 => some ⟨[0, 2], 1, 0, 0, 1, 0, false⟩
  | 0x27 => some ⟨any, 1, 1, 0, 1, 0, false⟩
  | 0x28 => some ⟨any, 1, 1, 0, 1, 0, false⟩
  | 0x29 => some ⟨any, 1, 1, 1, 1, 0, false⟩
  | 0x2A => some ⟨[2], 1, 0, 0, 1, 0, false⟩
  | 0x30 => some ⟨any, 2, 1, 1, 1, 0, false⟩
  | 0x31 => some ⟨any, 1, 1, 1, 1, 0, false⟩
  | 0x38 => some ⟨[1], 1, 0, 1, 2, 1, false⟩
  | 0x39 => some ⟨[1], 1, 0, 1, 2, 1, false⟩
  | 0x3A => some ⟨[1], 1, 1, 0, 2, 0, true⟩
  | 0x3B => some ⟨[1], 1, 1, 0, 2, 0, true⟩
  | 0x40 => some ⟨[1], 1, 1, 1, 2, 3, false⟩
  | 0x41 => some ⟨[1], 1, 1, 1, 2, 3, false⟩
  | 0x42 => some ⟨[1], 1, 1, 1, 2, 3, false⟩
  | 0x43 => some ⟨[1], 0, 0, 1, 2, 0, false⟩
  | 0x44 => some ⟨[1], 1, 1, 1, 2, 1, true⟩
  | 0x45 => some ⟨[1], 1, 1, 1, 2, 1, true⟩
  | 0x48 => some ⟨any, 2, 0, 0, 2, 0, false⟩
  | 0x49 => some ⟨any, 2, 0, 0, 2, 0, false⟩
  | 0x4A => some ⟨any, 2, 0, 0, 2, 0, false⟩
  | 0x4B => some ⟨any, 2, 0, 0, 2, 0, false⟩
  | 0x4C => some ⟨any, 2, 0, 0, 2, 0, false⟩
  | 0x4D => some ⟨any, 2, 0, 0, 2, 0, false⟩
  | 0x50 => some ⟨any, 1, 0, 0, 0, 0, false⟩
  | 0x51 => some ⟨[0, 1, 2, 3], 0, 0, 0, 0, 0, false⟩
  | 0x52 => some ⟨any, 1, 0, 0, 3, 0, false⟩
  | 0x53 => some ⟨any, 1, 0, 0, 3, 0, false⟩
  | 0x7F => some ⟨[0, 1, 2, 3], 0, 0, 0, 0, 0, false⟩
  | _ => none
/-- The instance words of a node (R196). -/
def NetNode.insts (nd : NetNode) : List Nat :=
  match netOp nd.opc with
  | some o => (List.range o.inst).map (fun j => nd.c + j)
  | none => []
/-- The variables that a node reads, and those that it writes, by the operation table. -/
def NetNode.inputs (nd : NetNode) : List Nat :=
  match netOp nd.opc with
  | some o => ((if o.a = 0 then [] else [nd.a]) ++ (if o.b = 0 || nd.kb then [] else [nd.b]) ++
      (if o.c = 0 then [] else [nd.c]) ++ (if o.keep then [nd.dst] else []) ++ nd.insts).filter (fun ref => ref ≠ Ref.none)
  | none => []
def NetNode.outputs (nd : NetNode) : List Nat :=
  match netOp nd.opc with
  | some o => ((if o.res = 0 then [] else [nd.dst]) ++ nd.insts).filter (fun ref => ref ≠ Ref.none)
  | none => []
/-- The TYPE code of a declared type (R188). -/
def tyCode : Ty → Nat
  | .i32 => 0
  | .u32 => 1
  | .f32 => 2
/-- A variable is of a node's TYPE (R191); reference 0xF_FFFF takes any (R55). -/
def State.nodeTy (s : State) (nd : NetNode) (ref : Nat) : Bool := ref = Ref.none || tyCode (s.refTy ref) = nd.ty
/-- An operand may be read, and has TYPE where the operation asks it (R54, R191). -/
def State.operandOk (s : State) (r : Nat) (nd : NetNode) (how ref : Nat) : Bool :=
  how = 0 || (s.readOk r ref && (how = 2 || s.nodeTy nd ref))
/-- The rules of one node of a task (R54, R191, R196, R197, R219). -/
def State.nodeOk (s : State) (r : RegionIx) (t : Fin 256) (nd : NetNode) : Bool :=
  match netOp nd.opc with
  | none => false
  | some o => o.tys.contains nd.ty && s.operandOk r nd o.a nd.a && (nd.kb || s.operandOk r nd o.b nd.b) &&
      s.operandOk r nd o.c nd.c && nd.outputs.all (fun ref => s.refOk ref && writeOk (.task r t) ref) &&
      (o.res = 3) = isFlagRef nd.dst && (o.res ≠ 1 || s.nodeTy nd nd.dst) &&
      nd.insts.all (fun ref => Ref.space ref = 2) && (!o.keep || Ref.space nd.dst = 2)

-- tasks

/-- The nodes of a task as indices of the store; one too many for a partition that forms a loop (R190). -/
def State.taskPath (s : State) (r t : Nat) : List Nat :=
  netPath (s.netNode r) 8193 (some (s.fld (R.TK_CFG r t) F.TK_CFG_ENTRY))
/-- What a task reads, and its outputs (R62). -/
def State.taskIn (s : State) (r t : Nat) : List Nat := ((s.taskNodes r t).map NetNode.inputs).flatten
def State.taskOut (s : State) (r t : Nat) : List Nat := ((s.taskNodes r t).map NetNode.outputs).flatten
/-- The partition of a task (R190): it ends, and each of its nodes is right. -/
def State.partOk (s : State) (r : RegionIx) (t : Nat) : Bool :=
  decide ((s.taskPath r t).length ≤ 8192) && (s.taskNodes r t).all (s.nodeOk r (Fin.ofNat 256 t))
/-- Every instance word of a region is written by its own node only (R196). -/
def State.instsOk (s : State) (r : Nat) : Bool :=
  let is := (((s.usedTasks r).map (s.taskPath r)).flatten).eraseDups
  is.all (fun i => (s.netNode r i).insts.all (fun ref =>
    is.all (fun j => j = i || !(s.netNode r j).outputs.contains ref)))
/-- The in-phase event tasks that a flag which an in-phase task sets or clears triggers (R62). -/
def State.flagNext (s : State) (r t : Nat) : List Nat :=
  (s.usedTasks r).filter (fun u => s.taskInPhase r u && s.taskEvent r u && (s.taskNodes r t).any (fun nd =>
    (nd.opc = 0x52 ∨ nd.opc = 0x53) && isFlagRef nd.dst && (s.taskMask r u).testBit (Ref.index nd.dst % 64)))
/-- No chain of flags from a task is longer than a number of tasks (R62). -/
def State.chainOk (s : State) (r : Nat) : (n : Nat) → Nat → Bool
  | 0, _ => false
  | n + 1, t => (s.flagNext r t).all (s.chainOk r n)
/-- An in-phase task reads a local or a flag that another one writes (R216). -/
def State.taskPred (s : State) (r a b : Nat) : Bool :=
  a ≠ b && (s.taskOut r a).any (fun w => (Ref.space w = 2 || isFlagRef w) && (s.taskIn r b).contains w)
/-- The tasks of a list that still wait when each that has no predecessor in it has been taken out, a number of times; none
when predecessors form no cycle (R216). -/
def State.predCycle (s : State) (r : Nat) : (n : Nat) → List Nat → List Nat
  | 0, ts => ts
  | n + 1, ts => s.predCycle r n (ts.filter (fun b => ts.any (fun a => s.taskPred r a b)))

-- slots

/-- The selectors of a slot, with the kinds that each permits (R81). -/
def slotSels (k : Nat) : List (Nat × List Nat) :=
  [(R.LE_IN_SP k, [0, 3]), (R.LE_IN_PV k, [0, 1, 2]), (R.LE_IN_AUX0 k, [0, 1, 2, 3]), (R.LE_IN_AUX1 k, [0, 1, 2, 3]),
    (R.LE_IN_TRK k, [0, 3])]
/-- The references that a slot reads: those of its selectors, and its own fields that KIND 3 names (R81). -/
def State.slotIn (s : State) (k : Nat) : List Nat :=
  (List.range 5).filterMap (fun i => match s.fld (slotInReg k i) F.LE_IN_SP_KIND with
    | 0 => some (s.fld (slotInReg k i) F.LE_IN_SP_REF)
    | 3 => some (Ref.slotField k (ownField i))
    | _ => none)
/-- The variable that a slot writes (R102). -/
def State.slotOut (s : State) (k : Nat) : List Nat :=
  if s.fld (R.LE_OUT_DST k) F.LE_OUT_DST_KIND = 1 then
    [s.fld (R.LE_OUT_DST k) F.LE_OUT_DST_REF].filter (fun ref => ref ≠ Ref.none)
  else []
/-- The PWM pair that a slot drives (R102). -/
def State.slotPair (s : State) (k : Nat) : List Nat :=
  if s.fld (R.LE_OUT_DST k) F.LE_OUT_DST_KIND = 2 then [k / 256 * 12 + s.fld (R.LE_OUT_DST k) F.LE_OUT_DST_PAIR] else []
/-- The selectors and the destination of a slot (R27, R54, R81, R82, R102). -/
def State.slotRefsOk (s : State) (k : Nat) : Bool :=
  (slotSels k).all (fun e =>
    let kind := s.fld e.1 F.LE_IN_SP_KIND
    e.2.contains kind && ((kind ≠ 1 && kind ≠ 2) || s.fld e.1 F.LE_IN_SP_SDI < 12)) &&
    (s.slotIn k).all (s.readOk (k / 256)) &&
    (s.slotOut k).all (fun ref => s.refOk ref && writeOk (.slot (Fin.ofNat 4096 k)) ref) &&
    (s.fld (R.LE_OUT_DST k) F.LE_OUT_DST_KIND ≠ 2 || s.fld (R.LE_OUT_DST k) F.LE_OUT_DST_PAIR < 12)

-- axes

/-- The types of the output words of a format (R246). -/
def fmtTys (fmt : Nat) : List Ty :=
  match fmt with
  | 0 => [.i32]
  | 1 => [.u32, .i32]
  | 2 => [.i32, .f32]
  | _ => [.u32, .i32, .f32]
/-- The output words of a REMOTE axis (R246). -/
def State.axisOut (s : State) (a : Nat) : List Nat :=
  if s.fld (R.AX_CFG a) F.AX_CFG_OUT = 1 then
    (List.range (fmtTys (s.fld (R.AX_CFG a) F.AX_CFG_FMT)).length).map (fun j =>
      s.fld (R.AX_OUT_REF a) F.AX_OUT_REF_REF + j)
  else []
/-- The words of a REMOTE axis are output words of the types of its format (R246). -/
def State.axisOutOk (s : State) (a : Nat) : Bool :=
  (s.axisOut a).all (fun ref => s.refOk ref && Ref.space ref = 1 && Ref.index ref < 0xF800) &&
    (s.axisOut a = [] || (s.axisOut a).map s.refTy = fmtTys (s.fld (R.AX_CFG a) F.AX_CFG_FMT))

-- writers

/-- Every write that the image gives to a slot, a task or an axis by what they hold. -/
def State.heldWriters (s : State) : List (Nat × Owner) :=
  (s.usedSlots.map (fun k => (s.slotOut k).map (fun ref => (ref, Owner.slot (Fin.ofNat 4096 k))))).flatten ++
    ((List.range 16).map (fun r => ((s.usedTasks r).map (fun t => (s.taskOut r t).map (fun ref =>
      (ref, Owner.task (Fin.ofNat 16 r) (Fin.ofNat 256 t))))).flatten)).flatten ++
    (s.usedAxes.map (fun a => (s.axisOut a).map (fun ref => (ref, Owner.axis (Fin.ofNat 128 a))))).flatten
/-- Every write that the image gives: those of slots, tasks and axes, those of lanes by their chambers (R143), and the listed
ones. -/
def State.writers (s : State) : List (Nat × Owner) :=
  s.heldWriters ++ s.img.chambers.filterMap (fun e => (s.chamberLane e.1).map (fun l => (e.2, Owner.lane (Fin.ofNat 16 l)))) ++
    s.img.owners
/-- A task writes it. -/
def ownedByTask : Owner → Bool
  | .task _ _ => true
  | _ => false
/-- Two writes do not meet in one destination (R22, R54, R143): tasks may share a local and a flag, and no other writers
share anything. -/
def writersApart (a b : Nat × Owner) : Bool :=
  a.1 ≠ b.1 || a.2 = b.2 || ((Ref.space a.1 = 2 || Ref.space a.1 = 7) && ownedByTask a.2 && ownedByTask b.2)
/-- The variant has a writer (R4). -/
def State.ownerHere (s : State) : Owner → Bool
  | .slot k => decide (k.val < 1024 * s.dies)
  | .task r _ => decide (r.val < 4 * s.dies)
  | .axis a => decide (a.val < 32 * s.dies)
  | _ => true
/-- The image's owners with the writers that its slots, tasks and axes hold: those whose fields are not the host's (R54,
R114). -/
def State.fullOwners (s : State) : List (Nat × Owner) :=
  s.img.owners ++ s.heldWriters.filter (fun w => !s.img.owners.contains w)
/-- Every writer is there and may write what it owns (R4, R53, R54), and each destination has one (R22). -/
def State.ownersOk (s : State) : Bool :=
  let ws := s.writers
  let pairs := s.usedSlots.map s.slotPair
  s.img.owners.all (fun e => s.refOk e.1 && s.ownerHere e.2 && (match e.2 with
      | .axis _ => Ref.space e.1 = 1 && Ref.index e.1 < 0xF800
      | w => writeOk w e.1)) &&
    ws.all (fun a => ws.all (writersApart a)) && pairs.flatten.eraseDups.length = pairs.flatten.length
/-- What the hub, a slot's engine, an axis or a lane writes of its own accord: the mailbox locals of the flows (R224), the
fields that a sample sets (R108, R114), those that an axis shows (R267) and those of a lane's step (R183). -/
def State.selfWritten (s : State) (ref : Nat) : Bool :=
  let i := Ref.index ref
  match Ref.space ref with
  | 2 => s.usedFlows.any (fun f => s.flowRegion f = i / 8192 && s.fld (R.FL_CFG f) F.FL_CFG_MBOX ≤ i % 8192 &&
      i % 8192 < s.fld (R.FL_CFG f) F.FL_CFG_MBOX + 18)
  | 4 => [1, 2, 3, 5, 6, 21, 22, 23, 24, 25, 30].contains (i % 32) ||
      (i % 32 = 0 && s.bit (R.LE_CFG (i / 32)) F.LE_CFG_SP_TRACK)
  | 5 => 9 ≤ i % 32
  | 6 => i % 256 ≤ 5 || i % 256 = 12 || (16 ≤ i % 256 && i % 256 < 32)
  | _ => false
/-- The latch list of a background task (R63, R217): at most 512 words of its region's locals, with every image word that it
reads, and every local, slot field, axis field and lane field that it reads and another writes. -/
def State.latchOk (s : State) (ws : List (Nat × Owner)) (r : RegionIx) (t : Nat) : Bool :=
  let l := s.taskLatch r t
  s.taskInPhase r t || (decide (l.length ≤ 512) &&
    l.all (fun e => s.readOk r e.1 && Ref.space e.2 = 2 && refOwn r e.2) &&
    (s.taskIn r t).all (fun ref => l.any (fun e => e.1 = ref) ||
      (Ref.space ref > 1 && (Ref.space ref = 3 || Ref.space ref = 7 ||
        !(s.selfWritten ref || ws.any (fun w => w.1 = ref && w.2 ≠ Owner.task r (Fin.ofNat 256 t)))))))

-- recipes

/-- The steps of the image's recipes, as recipe and step. -/
def State.rcpAllSteps (s : State) : List (Nat × Nat) :=
  (((List.range 256).filter (fun n => s.rcpSteps n ≠ 0)).map (fun n =>
    (List.range (s.rcpSteps n)).map (fun k => (n, k)))).flatten
/-- The references that the exits of the image's recipes read (R150, R151). -/
def State.exitRefs (s : State) : List Nat :=
  (s.rcpAllSteps.map (fun e => ((s.stepExitList e.1 e.2).map (fun x =>
    (if x.typ = 0 ∨ x.typ = 5 then [] else [x.src]) ++ (if s.stepExt e.1 e.2 then [x.src2] else []))).flatten)).flatten
/-- The codes of RECORD actions lie in their range (R489). -/
def State.recordsOk (s : State) : Bool :=
  s.rcpAllSteps.all (fun e => (s.stepActList e.1 e.2).all (fun a => a.kind ≠ 3 || 0xF000 ≤ a.arg.toNat % 65536))

-- LOCAL values

/-- A slot's value depends on one that is unit-local (R35). -/
def State.slotUnitLocal (s : State) (k : Nat) : Bool :=
  !s.bit (R.LE_CFG k) F.LE_CFG_TIMING || (s.slotIn k).any s.isLocal ||
    (slotSels k).any (fun e => s.fld e.1 F.LE_IN_SP_KIND = 1 || s.fld e.1 F.LE_IN_SP_KIND = 2)
/-- In a pair, a LOCAL value reaches no output word, by an axis neither, and a slot or net that uses one gives LOCAL values only (R35, R57);
exits are checked with their recipes (R146). -/
def State.localsOk (s : State) : Bool :=
  !s.pairEn || (s.img.locals.all (fun ref => Ref.space ref ≠ 1) &&
    s.usedAxes.all (fun a => s.axisOut a = [] || (List.range 9).all (fun f => !s.isLocal (Ref.axisField a f))) &&
    s.usedSlots.all (fun k => !s.slotUnitLocal k || (s.slotOut k).all s.isLocal) &&
    (List.range 16).all (fun r => (s.usedTasks r).all (fun t =>
      !(s.taskIn r t).any s.isLocal || (s.taskOut r t).all s.isLocal)))

end Sys2Proof.Machine
end

