-- ==== Sys2Proof/Machine/ImageRules.lean ====
section
/-!
DEFINITION. The checks of a loaded CONFIG against the variant and against the image rules (R4, R510): each is a
predicate on a state that holds the image and nothing else. Whether the placement in banks meets R26 is a field of the image,
since the spec does not give the banks (log 60).
-/
namespace Sys2Proof.Machine

/-- A sum of fractions, as numerator and denominator. -/
def fracSum (l : List (Nat × Nat)) : Nat × Nat :=
  l.foldl (fun a c => (a.1 * c.2 + c.1 * a.2, a.2 * c.2)) (0, 1)

-- the variant and the cycle

/-- The words of a specification in use (R318). -/
def State.specWords (s : State) (i : Nat) : List Word := (List.range 4).map (s.specWord i)
/-- The specifications of the image that record. -/
def State.specsUsed (s : State) : List Nat :=
  s.specs.filterMap (fun e => if e.1 % 4 = 0 ∧ e.2.getLsbD 8 = true then some (e.1 / 4) else none)
/-- Units that the variant has (R4): the image holds nothing for a region, a cluster or a slot beyond its dies, and names
none in its flows, specifications, probes, lists and the exits of its recipes (R54). -/
def State.unitsOk (s : State) : Bool :=
  let d := s.dies
  s.io.all (fun e => e.2 = 0 || !((0x1000000 + 0x400000 * d ≤ e.1 && e.1 < 0x2000000) ||
      (0xB0000 + 4096 * d ≤ e.1 && e.1 < 0xB4000))) &&
    s.lawMem.all (fun e => e.1 / 4096 < 32 * d) && s.usedFlows.all (fun f => s.flowRegion f < 4 * d) &&
    s.specsUsed.all (fun i => s.specOk i (s.specWords i) &&
      (specKind (s.specWord i 0) ≠ 0 || s.refOk (s.specWord i 1).toNat)) && s.exitRefs.all s.refOk &&
    (List.range 16).all (fun r => (List.range (min 64 (s.ceProbes r))).all (fun j =>
      s.probeKind r j ≠ 0 || s.refOk (s.probeSrc r j))) &&
    s.img.decls.all (fun e => s.refOk e.1) && s.img.retain.all s.refOk && s.img.locals.all s.refOk &&
    s.img.chambers.all (fun e => s.refOk e.2) && s.img.latch.all (fun e => e.2.all (fun w => s.refOk w.1 && s.refOk w.2))
/-- The period and the offsets of the cycle (R45, R59, R73), and the cut-off against the latest landing of every ring that has
a station (R75). -/
def State.cycleOk (s : State) : Bool :=
  let l := s.fld R.TM_LAND_CUTOFF F.TM_LAND_CUTOFF_OFFSET
  let n := s.fld R.TM_PH_S_START F.TM_PH_S_START_OFFSET
  let p := s.fld R.TM_PH_L_START F.TM_PH_L_START_OFFSET
  s.fld R.TM_CYC_CFG F.TM_CYC_CFG_PERIOD ≤ 8 &&
    s.fld R.TM_CLOSE F.TM_CLOSE_OFFSET + 2000 = s.period && l ≤ n &&
    n + 300 + s.fld R.TM_SQ_ALLOW F.TM_SQ_ALLOW_UNITS ≤ p && p + 2000 ≤ s.period &&
    s.usedRings.all (fun r => s.ringStns r = [] || s.fld (R.FP_MODEL_LAND r) F.FP_MODEL_LAND_OFFSET + 1000 ≤ l)
/-- Pair, checkpoint and start-up settings (R418, R423, R439, R513), for a length of the loaded sections, which come at 400
bytes a microsecond. -/
def State.pairOk (s : State) (len : Nat) : Bool :=
  let w := s.fld R.BT_RING_WAIT F.BT_RING_WAIT_MS
  (!s.pairEn || s.usedRings.all (fun r => s.bit (R.FP_RING_CFG r) F.FP_RING_CFG_PAIR)) &&
    s.fld R.XL_TIMING F.XL_TIMING_LEASE_US ≥ 3 * s.fld R.XL_TIMING F.XL_TIMING_HB_US &&
    s.fld R.KA_CKPT_SIZE F.KA_CKPT_SIZE_BYTES ≤ BackupPart.bufA.size && 200 ≤ w && w ≤ 1300 && len + 130 * 400000 ≤ w * 400000

-- slots

/-- The operand codes of a stage name earlier stages only (R94). -/
def stageOk (g : Stage) (j : Nat) : Bool := [g.a, g.b, g.c].all (fun c => c ≤ 6 || (8 ≤ c && c < 8 + j))
/-- Coefficients are finite, and HI is not below LO (R96, R117). -/
def stageNumsOk (g : Stage) : Bool :=
  (List.range 12).all (fun w => F32.finite (g.word w)) &&
    (match g.typ with
    | 0 => Dy.le (g.coef 6) (g.coef 5)
    | 4 => Dy.le (g.coef 1) (g.coef 0)
    | _ => true)
/-- The law of a slot (R94, R96, R107). -/
def State.slotLawOk (s : State) (k : Nat) : Bool :=
  let gs := s.slotStages k
  let t := s.fld (R.LE_CFG k) F.LE_CFG_TRK_STAGE
  (List.range gs.length).all (fun j => stageOk (gs.getD j default) j && stageNumsOk (gs.getD j default)) &&
    (!s.bit (R.LE_CFG k) F.LE_CFG_TRK_EN || (t < gs.length && (gs.getD t default).typ = 0))
/-- The timing of a slot (R77, R78). -/
def State.slotTimeOk (s : State) (k : Nat) : Bool :=
  let p := (s.rd (R.LE_PERIOD k)).toNat
  if s.bit (R.LE_CFG k) F.LE_CFG_TIMING then
    s.fld (R.LE_FSYNC k) F.LE_FSYNC_PH ≤ s.fld (R.LE_FSYNC k) F.LE_FSYNC_DIV_M1
  else 1000 ≤ p && p ≤ 1000000 && 1000000000 % p = 0 && s.fld (R.LE_PHASE k) F.LE_PHASE_NS < p
/-- The PV source of a slot has an age (R122, R123): a station or CAN word, or an SDI channel. -/
def State.pvAged (s : State) (k : Nat) : Bool :=
  let a := R.LE_IN_PV k
  let ref := s.fld a F.LE_IN_PV_REF
  match s.fld a F.LE_IN_PV_KIND with
  | 0 => Ref.space ref = 0 && Ref.index ref < 0xF000
  | 3 => false
  | _ => true
/-- A member of a cascade (R97): the members stand at positions 0 to their number less one, 2 to 4 of them, from the head
on; they share timing class and period, and each drives the setpoint of the next. -/
def State.slotCascOk (s : State) (k : Nat) : Bool :=
  let c (j : Nat) : Nat := R.LE_CFG j
  let ms := s.jobSlots (s.jobHead k)
  !s.bit (c k) F.LE_CFG_CASC || (ms.contains k && ms.head? = some (s.jobHead k) && decide (2 ≤ ms.length) &&
    ms.map (fun j => s.fld (c j) F.LE_CFG_CASC_POS) = List.range ms.length &&
    ms.all (fun j => s.bit (c j) F.LE_CFG_TIMING = s.bit (c k) F.LE_CFG_TIMING && s.slotPeriod j = s.slotPeriod k) &&
    (ms.zip ms.tail).all (fun e => s.slotOut e.1 = [Ref.slotField e.2 0]))
/-- The limits of a slot (R106, R532) and its supervision fields (R123, R126, R132); REENG_N of 0 lies outside its range
(R129; log 248). -/
def State.slotFieldsOk (s : State) (k : Nat) : Bool :=
  let v (a : Nat) : Dy := F32.toDy (s.rd a)
  let pos (a : Nat) : Bool := F32.finite (s.rd a) && Dy.le Dy.zero (v a)
  [R.LE_MAN_OUT k, R.LE_OUT_HI k, R.LE_OUT_LO k, R.LE_OPEN_OUT k].all (fun a => F32.finite (s.rd a)) &&
    Dy.le (v (R.LE_OUT_LO k)) (v (R.LE_OUT_HI k)) &&
    [R.LE_OUT_RATE k, R.LE_FE_LIMIT k, R.LE_FRZ_BAND k, R.LE_MOVE_MIN k].all pos &&
    s.fld (R.LE_SUP_CFG k) F.LE_SUP_CFG_FE_ACTION ≠ 3 && s.fld (R.LE_SUP_CFG k) F.LE_SUP_CFG_FB_ACTION ≠ 3 &&
    s.fld (R.LE_FB_AGE k) F.LE_FB_AGE_MAX ≤ 254 && (!s.bit (R.LE_SUP_CFG k) F.LE_SUP_CFG_AGE_EN || s.pvAged k) &&
    s.fld (R.LE_FE_TIME k) F.LE_FE_TIME_SAMPLES ≥ 1 && s.fld (R.LE_FRZ_N k) F.LE_FRZ_N_SAMPLES ≥ 2 &&
    (!s.bit (R.LE_SUP_CFG k) F.LE_SUP_CFG_REENG_AUTO || s.fld (R.LE_SUP_CFG k) F.LE_SUP_CFG_REENG_N ≥ 1)
/-- The jobs of a cluster as (cost, period, field-synchronous) (R93, R97): a cascade is one, of its members' cost. -/
def State.clusterJobs (s : State) (c : Nat) : List (Nat × Nat × Bool) :=
  (s.usedSlots.filter (fun k => k / 32 = c && s.jobHead k = k)).map (fun k =>
    (((s.jobSlots k).map (fun j => Law.cost (s.slotStages j))).sum, s.slotPeriod k, s.bit (R.LE_CFG k) F.LE_CFG_TIMING))
/-- The load of a cluster (R24): at most 0.9 cycles in a nanosecond, field-synchronous jobs counting in every cycle (R74). -/
def State.loadOk (s : State) (jobs : List (Nat × Nat × Bool)) : Bool :=
  let (n, d) := fracSum (jobs.map (fun j => (j.1, if j.2.2 then s.period else j.2.1)))
  10 * n ≤ 9 * d
/-- The per-period rule of a cluster (R101). -/
def periodsOk (jobs : List (Nat × Nat × Bool)) : Bool :=
  jobs.all (fun j =>
    let b := (jobs.filter (fun i => j.2.1 < i.2.1)).foldl (fun m i => max m i.1) 0
    let sum := ((jobs.filter (fun i => i.2.1 ≤ j.2.1)).map (fun i => (j.2.1 + i.2.1 - 1) / i.2.1 * i.1)).sum
    10 * (b + sum) ≤ 9 * j.2.1)
/-- The Phase L rule of a cluster (R74). -/
def State.phaseLOk (s : State) (jobs : List (Nat × Nat × Bool)) : Bool :=
  let w := ((jobs.filter (fun j => j.2.2)).map (fun j => j.1)).sum
  let (n, d) := fracSum ((jobs.filter (fun j => !j.2.2)).map (fun j => (j.1, j.2.1)))
  let start := s.fld R.TM_PH_L_START F.TM_PH_L_START_OFFSET + 2200
  start ≤ s.period && (w = 0 || (10 * n < 9 * d && 10 * w * d ≤ (s.period - start) * (9 * d - 10 * n)))
/-- The slot fallow values (R312): every one is finite, and an output word that a slot writes has the slot's as its own,
converted as R90 converts an output. -/
def State.slotFallowOk (s : State) : Bool :=
  (List.range (1024 * s.dies)).all (fun k => F32.finite (s.rd (R.SLOT_FALLOW k))) &&
    s.usedSlots.all (fun k => (s.slotOut k).all (fun ref =>
      Ref.space ref ≠ 1 || s.rd (R.WORD_FALLOW (Ref.index ref)) = (Ty.ofDy (s.refTy ref) (s.slotFallow k)).1))
/-- All slots and clusters. -/
def State.slotsOk (s : State) : Bool :=
  s.slotFallowOk &&
  s.usedSlots.all (fun k => s.slotLawOk k && s.slotTimeOk k && s.slotFieldsOk k && s.slotRefsOk k && s.slotCascOk k) &&
    (List.range 128).all (fun c => let j := s.clusterJobs c; s.loadOk j && periodsOk j && s.phaseLOk j)

-- tasks

/-- Instances of an in-phase task that can belong to one cycle (R71); chains are at most 4 tasks deep (R62). -/
def State.taskMult (s : State) (r : Nat) : (fuel : Nat) → Nat → Nat
  | 0, _ => 1
  | fuel + 1, t =>
    if s.taskEvent r t then
      1 + (((s.usedTasks r).filter (fun w => s.taskInPhase r w && (s.taskNodes r w).any (fun nd =>
        (nd.opc = 0x52 ∨ nd.opc = 0x53) && isFlagRef nd.dst &&
          (s.taskMask r t).testBit (Ref.index nd.dst % 64)))).map (s.taskMult r fuel)).sum
    else 1
/-- Cost of a task in nanoseconds: its nodes and its dispatch (R71). -/
def State.taskCost (s : State) (r t : Nat) : Nat := (s.taskNodes r t).length + 24
/-- The event reserve of a region (R71). -/
def State.eventReserve (s : State) (r : Nat) : Nat :=
  (((s.usedTasks r).filter (fun t => s.taskInPhase r t && s.taskEvent r t)).map (fun t =>
    s.taskMult r 4 t * s.taskCost r t)).sum
/-- The references that make a task which writes one of them in-phase (R62): what exits and field-synchronous slots read. -/
def State.phaseRefs (s : State) : List Nat :=
  s.exitRefs ++ ((s.usedSlots.filter (fun k => s.bit (R.LE_CFG k) F.LE_CFG_TIMING)).map s.slotIn).flatten
/-- The tasks of a region as parts of the image: in-phase where R62 asks it, their nodes (R190, R191, R196, R197), latch lists
(R63, R217), chains of flags (R62) and predecessors (R216). -/
def State.tasksOk (s : State) (refs : List Nat) (ws : List (Nat × Owner)) (r : RegionIx) : Bool :=
  let ts := s.usedTasks r
  let inn := ts.filter (s.taskInPhase r)
  ts.all (fun t => s.partOk r t && s.latchOk ws r t &&
      (s.taskInPhase r t || !(s.taskOut r t).any (fun w => refs.contains w))) &&
    s.instsOk r && inn.all (s.chainOk r 4) && s.predCycle r inn.length inn = []
/-- The Phase N rule (R71), the load rule (R72), periods (R62, R213), offsets (R217) and priorities (R215) of a region. -/
def State.regionOk (s : State) (r : Nat) : Bool :=
  let ts := s.usedTasks r
  let inn := ts.filter (s.taskInPhase r)
  let k (t : Nat) : Nat := s.fld (R.TK_TIME r t) F.TK_TIME_K
  let prio (t : Nat) : Nat := s.fld (R.TK_CFG r t) F.TK_CFG_PRIO
  let e := s.eventReserve r
  let sum := ((inn.filter (fun t => !s.taskEvent r t)).map (s.taskCost r)).sum
  let (n, d) := fracSum ((e, s.period) ::
    (ts.filter (fun t => !(s.taskInPhase r t && s.taskEvent r t))).map (fun t => (s.taskCost r t, k t * s.period)))
  ts.all (fun t => k t ≥ 1 && (s.taskEvent r t || s.fld (R.TK_TIME r t) F.TK_TIME_PH < k t) &&
      (s.taskEvent r t || k t ≠ 1 || s.taskInPhase r t) &&
      (s.taskInPhase r t || s.fld (R.TK_CFG r t) F.TK_CFG_OFFS * 10000 < k t * s.period)) &&
    ts.all (fun t => s.taskInPhase r t || inn.all (fun u => prio u < prio t)) &&
    s.fld R.TM_LAND_CUTOFF F.TM_LAND_CUTOFF_OFFSET + 50 + sum + e ≤ s.fld R.TM_PH_S_START F.TM_PH_S_START_OFFSET &&
    10 * n ≤ 9 * d
/-- Flows: a wait has a time-out (R225), and TO is below HOLD_MAX cycles (R227). -/
def State.flowsOk (s : State) : Bool :=
  s.usedFlows.all (fun f => (!s.bit (R.FL_CFG f) F.FL_CFG_WAIT_EN || (s.rd (R.FL_TO f)).toNat ≠ 0) &&
    (s.rd (R.FL_TO f)).toNat < s.fld (R.FL_HOLD f) F.FL_HOLD_HOLD_MAX * s.period)

-- ranges and tables

/-- Permission ranges (R237). -/
def rangeOk (lo hi : Nat) : Bool := lo > hi || (Ref.space lo = Ref.space hi && Ref.space lo ≤ 2)
/-- The permission ranges name locals of regions that the variant has (R4). An unused range, with both bounds 0, names input
word 0 as any range does. -/
def State.permOk (s : State) : Bool :=
  (List.range 64).all (fun j =>
    let lo := s.fld (R.TK_FRC_PERM_LO j) F.TK_FRC_PERM_LO_REF
    let hi := s.fld (R.TK_FRC_PERM_HI j) F.TK_FRC_PERM_HI_REF
    rangeOk lo hi && (hi < lo || Ref.space hi ≠ 2 || s.refExists hi))
/-- A STEPPER axis: its VMAX (R249), thresholds (R264) and stall action (R265). -/
def State.stepperOk (s : State) (a : Nat) : Bool :=
  !F32.lt (F32.ofInt 64000000) (s.rd (R.AX_VMAX a)) && s.fld (R.AX_CFG a) F.AX_CFG_STALL_ACT ≠ 3 &&
    (List.range 7).all (fun i => F32.lt (s.rd (R.AX_ST_VTH a i)) (s.rd (R.AX_ST_VTH a (i + 1))))
/-- A pair: its dead times (R283), its carrier and fallow codes (R298), the requirements of a PAIR and of a TIME carrier (R274),
and the duty as a fraction where a slot writes it (R277), each refused at load (DEDUCED, log 273). -/
def State.pairOkCfg (s : State) (p : Nat) : Bool :=
  let c := R.PW_CFG p
  let sync := s.fld c F.PW_CFG_SYNC
  let q := s.pwSrc p
  let per := (s.pwShadow p).per
  s.fld (R.PW_DT p) F.PW_DT_DT_MIN ≤ s.fld (R.PW_DT p) F.PW_DT_DT_MAX && s.fld (R.PW_DT p) F.PW_DT_DT_MAX ≤ 64000 &&
    s.fld (R.PW_GUARD p) F.PW_GUARD_GUARD ≤ 32 && s.fld c F.PW_CFG_FALLOW ≠ 3 && sync ≠ 3 &&
    (s.fld c F.PW_CFG_MODE ≠ 1 || s.fld c F.PW_CFG_RELOAD ≠ 3) &&
    (sync ≠ 1 || (s.fld c F.PW_CFG_SYNC_SRC < 12 && s.bit (R.PW_CFG q) F.PW_CFG_USED &&
      (s.fld (R.PW_CFG q) F.PW_CFG_SYNC = 0 || s.fld (R.PW_CFG q) F.PW_CFG_SYNC = 2) && (s.pwShadow q).per = per)) &&
    (sync ≠ 2 || (5 * per % 128 = 0 && per ≠ 0 && 1000000000 % (5 * per / 128) = 0 && 5 * (s.pwShadow p).phase % 128 = 0)) &&
    (s.bit c F.PW_CFG_DUTY_FRAC || !s.usedSlots.any (fun k => (s.slotPair k).contains p))
/-- A channel's ratios and its group's rate (R293, R294). -/
def State.sdiOk (s : State) (ch : Nat) : Bool :=
  let m := s.fld (R.SD_CFG ch) F.SD_CFG_MAIN_OSR
  let f := s.fld (R.SD_CFG ch) F.SD_CFG_FAST_OSR
  let r := s.fld (R.SD_GRP_CFG (ch / 4)) F.SD_GRP_CFG_FNOM
  decide (16 ≤ m) && decide (m ≤ 256) && decide (8 ≤ f) && decide (f ≤ 32) && decide (5000 ≤ r) && decide (r ≤ 25000)
/-- Axes (R245, R246, R247, R261), PWM pairs (R274, R277, R283) and SDI channels (R294). -/
def State.motionOk (s : State) : Bool :=
  let ax := s.usedAxes
  let groups := (ax.filter s.axStepper).map (fun a => (a / 8, s.fld (R.AX_CFG a) F.AX_CFG_GROUP))
  ax.all (fun a => s.fld (R.AX_CFG a) F.AX_CFG_OUT ≠ 3 && s.axisOutOk a && (!s.axStepper a || s.stepperOk a)) &&
    groups.all (fun g => g.2 < 3) && groups.eraseDups.length = groups.length &&
    s.usedSlots.all (fun k => (s.slotPair k).all (fun p => !(ax.filter s.axStepper).any (fun a => (s.axPairs a).contains p))) &&
    (ax = [] || s.fld R.TM_PH_L_START F.TM_PH_L_START_OFFSET + 3500 + 2000 ≤ s.period) &&
    (s.usedUnits 192 R.PW_CFG).all s.pairOkCfg && (s.usedUnits 192 R.SD_CFG).all s.sdiOk
/-- The nominal block rate of the ANALOG specifications (R328): at most 1 GB/s. A source's rate is a sample period's, the
cycle's, or the modulator's over its ratio. -/
def State.recordOk (s : State) : Bool :=
  let rate (i : Nat) : Nat × Nat :=
    let src := (s.specWord i 1).toNat
    match specKind (s.specWord i 0) with
    | 0 => (1000000000, s.period)
    | 1 => (1000000000, s.slotPeriod (src % 4096))
    | _ =>
      let ch := src % 256
      (s.fld (R.SD_GRP_CFG (ch / 4)) F.SD_GRP_CFG_FNOM * 1000,
        if src / 256 = 1 then s.fld (R.SD_CFG ch) F.SD_CFG_FAST_OSR else s.fld (R.SD_CFG ch) F.SD_CFG_MAIN_OSR)
  let (n, d) := fracSum ((s.specsUsed.filter (fun i => !specDiscrete (s.specWord i 0))).map (fun i =>
    (64 * (rate i).1, max 1 ((rate i).2 * (if specDmode (s.specWord i 0) = 2 then 6 else 12) *
      ((s.specWord i 2).toNat % 2 ^ 16)))))
  n ≤ 1000000000 * d
/-- The hedgerow (R302, R304, R306). -/
def State.hedgerowOk (s : State) : Bool :=
  s.hgTerms.all s.hgTermOk && s.hgPlaced
/-- Chambers of lanes (R142, R143), and the codes of RECORD actions (R489). -/
def State.lanesOk (s : State) : Bool :=
  let cs := s.usedLanes.map (fun l => s.fld (R.SQ_CFG l) F.SQ_CFG_CHAMBER)
  cs.eraseDups.length = cs.length &&
    (s.img.chambers.map (fun e => e.2)).eraseDups.length = s.img.chambers.length &&
    s.img.chambers.all (fun e => s.targetKind e.1 e.2) && s.recordsOk
/-- The capacity of a ring (R363): the train leaves room for the tail window, ends before it, and its frames hold the
segments. Its two ports run at one speed of R354 (R355). `per` is the time of a byte, in tenths of a nanosecond. -/
def State.ringFits (s : State) (r : Nat) : Bool :=
  let per := s.byteTime r
  let nf := s.fld (R.FP_RING_CFG r) F.FP_RING_CFG_NFRM + 1
  let len := ((s.ringStns r).map s.segBytes).sum + 62 * nf
  s.fld (R.FP_CFG (2 * r)) F.FP_CFG_SPEED ≤ 2 &&
    s.fld (R.FP_CFG (2 * r)) F.FP_CFG_SPEED = s.fld (R.FP_CFG (2 * r + 1)) F.FP_CFG_SPEED &&
    (len + 1538) * per ≤ (s.period - 100) * 10 && len * per ≤ 10 * s.fld (R.FP_TAIL_START r) F.FP_TAIL_START_OFFSET &&
    (s.trainFrames r).length ≤ nf &&
    (s.ringStns r).all (fun k => s.segBytes k ≤ 1476)
/-- Station words (R47), whole words in a segment (R359), and the capacity of the rings (R363). -/
def State.stationsOk (s : State) : Bool :=
  s.usedRings.all s.ringFits && s.usedStns.all (fun k =>
    let a := R.FP_S_LEN k
    let w := (s.rd (a - 4)).toNat
    s.fld a F.FP_S_LEN_OLEN % 4 = 0 && s.fld a F.FP_S_LEN_ILEN % 4 = 0 &&
      w % 65536 + s.fld a F.FP_S_LEN_OLEN / 4 ≤ 0xE000 && w / 65536 + s.fld a F.FP_S_LEN_ILEN / 4 ≤ 0xE000)
/-- Receive maps (R406): IMAGE entries lie in their range and do not overlap. -/
def State.canMapsOk (s : State) : Bool :=
  let ws := ((s.img.canRx.map (fun e => e.2)).flatten).filterMap (fun m => match m.action with
    | .image w => some w
    | _ => none)
  ws.all (fun w => 0xE000 ≤ w && w + 16 ≤ 0xEFFF) && ws.Pairwise (fun a b => a + 17 ≤ b ∨ b + 17 ≤ a)
/-- Transmit entries: one entry for an identifier and IDE on a port (R412), with its words in their range (R47, R408). -/
def State.canTxOk (s : State) : Bool :=
  let ids := s.img.canTx.map (fun e => (e.1 / 64, e.2.ident, e.2.ide))
  ids.eraseDups.length = ids.length &&
    s.img.canTx.all (fun e => 0xE000 ≤ e.2.word && e.2.word + (e.2.len + 3) / 4 ≤ 0xF000)
/-- The bit timing of every used port and of the candidates of its rate detection (R398, R399): only a port that is to detect its
rate has none (R403, log 267). -/
def State.canTimesOk (s : State) : Bool :=
  ((List.range 16).filter (fun p => s.bit (R.CF_CFG p) F.CF_CFG_USED)).all (fun p =>
    (s.fld (R.CF_MODE p) F.CF_MODE_REQ = 3 || s.rd (R.CF_NBT p) ≠ 0) &&
      s.canTimed p (s.canBrp p) (s.rd (R.CF_NBT p)) (s.rd (R.CF_DBT p)))

/-- The CONFIG section of an image passes (R4, R26, R510). -/
def State.imageOk (s : State) (i : Image) : Bool :=
  let refs := s.phaseRefs
  let ws := s.writers
  i.placed && s.unitsOk && s.cycleOk && s.pairOk i.loadLen && s.slotsOk &&
    (List.finRange 16).all (fun r => s.regionOk r && s.tasksOk refs ws r) && s.flowsOk && s.permOk && s.motionOk &&
    s.recordOk && s.hedgerowOk && s.lanesOk && s.stationsOk && s.canMapsOk && s.canTxOk && s.canTimesOk && s.ownersOk &&
    s.localsOk

end Sys2Proof.Machine
end

