-- ==== Sys2Proof/Machine/SeqRun.lean ====
section
/-!
DEFINITION. The Phase S gate (R58, R65, R66, R175, R176), the actions of a commit and their journal (R153, R180), and the
commands to lanes (R157).
-/
namespace Sys2Proof.Machine

-- actions

/-- A HOST_EVENT (R153, R462): lost when no slot is posted. -/
def State.hostEvent (s : State) (l : Nat) (a : ActD) (step stepTag : Nat) (seq : Word) : State :=
  let k := 8 + a.opt % 8
  match s.ringFill k 3 0 false [s.seq, Word.ofN (a.arg.toNat % 2 ^ 16 + l * 2 ^ 16),
      Word.ofN (step + stepTag * 2 ^ 16), seq, 0, 0, 0] with
  | some s' => s'
  | none => s.incr (R.HI_RING_LOST k)
/-- Run one action of a commit (R153, R175). The record of RECORD has class 0 and P0 = recipe + 256 × step (DESIGN CHOICE, log
251). -/
def State.laneAction (s : State) (l : Nat) (a : ActD) (step stepTag : Nat) (seq : Word) (now : Nat) : State :=
  match a.kind with
  | 1 => s.canAction (a.arg.toNat % 16) (a.arg.toNat / 16 % 64)
  | 2 => s.when s.acts (fun s => s.hostEvent l a step stepTag seq)
  | 3 => s.eventP true (a.arg.toNat % 2 ^ 16) 0 9 l (Word.ofN (s.laneRecipe l + step * 256)) seq (Word.ofN stepTag)
  | 4 => if s.targetFenced a.ref then s else s.writeVar a.ref (s.laneCur [] a.ref + a.arg) (tagOf now)
  | 5 =>
    let i := Ref.index a.ref - 0x400
    (s.setFlag (i / 64) (i % 64) true).hgEval now
  | 6 => s.wr (R.SQ_LT l (a.arg.toNat % 8)) 0
  | 7 => s.busPulse (a.arg.toNat % 8) now true
  | 8 => s.userMark a.arg l seq step now
  | _ => s
/-- Run the actions of a commit with the journal (R180): those that ran before a restart are suppressed. -/
def State.laneActions (s : State) (l : Nat) (acts : List (ActD × Nat × Nat × Word)) (now : Nat) : State :=
  match acts with
  | [] => s
  | (_, step, _, seq) :: _ =>
    let x := s.laneX l
    let same : Bool := x.supp && s.rd (R.SQ_ACT_JRNL l) = seq && x.jStep = step
    let skip := if same then min x.jRun acts.length else 0
    let s := (s.wr (R.SQ_ACT_JRNL l) seq).setLaneX l { x with jStep := step, jRun := skip, supp := false }
    let s := s.when (skip > 0) (fun s => s.set1 (R.SQ_STAT l) F.SQ_STAT_ACT_SUPP)
    s.each (acts.drop skip) (fun s a =>
      let s := s.setLaneX l { s.laneX l with jRun := (s.laneX l).jRun + 1 }
      s.laneAction l a.1 a.2.1 a.2.2.1 a.2.2.2 now)

-- Phase S

/-- The lanes in the order of R65: from the first lane that the previous Phase S deferred. -/
def State.laneOrder (s : State) : List Nat :=
  let d := s.cyc.defer.getD 0
  s.usedLanes.filter (fun l => l ≥ d) ++ s.usedLanes.filter (fun l => l < d)
/-- The conditions of a lane (R158): bits 0 HEDGEROW, 1 STOP, 2 FENCE. -/
def State.laneCondBits (s : State) (hedge : List Nat) (l : Nat) : Nat :=
  (if s.hgHits hedge 5 l then 1 else 0) + (if s.stopped then 2 else 0) + (if s.laneFence l then 4 else 0)
/-- The progress of a Phase S: units counted, what the lanes gave, and the first lane deferred. -/
structure SRun where
  units : Nat
  outs : List (Nat × LaneOut)
  defer : Option Nat
  deriving DecidableEq, Repr, Inhabited
/-- Process one lane, or defer it with every later one (R66). -/
def State.phaseLane (s : State) (x : SRun) (hedge : List Nat) (l : Nat) (tag : Word) : State × SRun :=
  let n := s.seq
  let (s1, win) := s.laneBegin l (s.laneCondBits hedge l) n tag
  if x.defer.isSome then (s1.laneDefer l win tag, x)
  else
    let (s2, o) := s1.laneEnd l win n tag
    if x.outs ≠ [] ∧ x.units + o.cost > s.fld R.TM_SQ_ALLOW F.TM_SQ_ALLOW_UNITS then
      ((s1.laneDefer l win tag).set1 R.TM_CYC_STAT F.TM_CYC_STAT_S_DEFER, { x with defer := some l })
    else (s2, { x with units := x.units + o.cost, outs := x.outs ++ [(l, o)] })
/-- Phase S (R65, R66, R172, R175): the lanes, their writes, and then their actions. It ends at most 300 ns and 1 ns for
each unit after the gate (R176); when, within that bound, is open (log 1), but above the allowance it lasts that long. -/
def State.phaseS (s : State) (off : Nat) : State :=
  let now := s.now off
  let tag := tagOf now
  let hedge := s.hgAtS
  let s := { s with hg := { s.hg with pendS := [] } }
  let (s, x) := s.laneOrder.foldl (fun acc l => acc.1.phaseLane acc.2 hedge l tag) (s, ⟨0, [], none⟩)
  let s := s.each x.outs (fun s e => s.laneDeliver e.2.writes tag)
  let byLane := (List.range 16).flatMap (fun l => x.outs.filter (fun e => e.1 = l))
  let s := s.each byLane (fun s e => s.laneActions e.1 e.2.acts now)
  let (w, s) := s.draw
  let long := 300 + x.units
  let done := off + (if x.units > s.fld R.TM_SQ_ALLOW F.TM_SQ_ALLOW_UNITS then long else w.toNat % (long + 1))
  let s := s.maxFld R.TM_PH_MAX_S F.TM_PH_MAX_S_OFFSET done
  { s with cyc := { s.cyc with sDone := true, sOff := done, defer := x.defer } }
/-- A FATAL fault without a code of its own (R34, R42). -/
def State.fatal (s : State) (typ inst : Nat) : State := (s.eventU false 1 4 typ inst []).stopCause 2

/-- PHASE_S_GATE (R58, R59): it opens at its offset when every region has reported Phase N done; background instances are
released (R217). -/
def execPhaseSGate (off : Nat) (fetchLate : Bool) (s : State) : Host.Outcome State Fault Refusal :=
  if s.cyc.sDone || !s.computes || off < s.fld R.TM_PH_S_START F.TM_PH_S_START_OFFSET then .next s
  else if !s.activeRegions.all s.regionDone then .next (s.set1 R.TM_CYC_STAT F.TM_CYC_STAT_N_LATE)
  else
    let s := s.when fetchLate (fun s => s.fatal 4 4)
    let s := s.wakeAll (s.now off)
    let s := s.each s.activeRegions (fun s r => s.taskRelease r (s.now off))
    .next (s.phaseS off)

-- commands

/-- A lane command that the package mode permits (R233): all in PROGRAM and REMOTE, HOLD and ABORT in RUN. -/
def State.laneModeOk (s : State) (code : Nat) : Bool :=
  s.mode = 1 || s.mode = 2 || (s.mode = 3 && (code = 2 || code = 4))
/-- A lane's block (R157, R181, R233): a command is refused by the mode with WHY 2, or waits for Phase S. -/
def State.busLane (s : State) (l a : Nat) (v m tag : Word) : State × Nat :=
  if a = R.SQ_CMD l then
    let code := (regCmd a v m).toNat
    if code = 0 || !s.laneUsed l then (s, 0)
    else if !s.laneModeOk code then (s.laneReject l code 2 tag, 1)
    else ((s.setLaneX l { s.laneX l with host := (s.laneX l).host ++ [code] }).wr a (Word.ofN code), 0)
  else if a = R.SQ_CMD_ARG l then
    if s.mode = 1 ∨ s.mode = 2 then (s.regWrite a v m, 0) else (s, 1)
  else (s.regWrite a v m, 0)
/-- A host command to a lane (R157): its argument in SQ_CMD_ARG and its code in SQ_CMD, with the refusal of R451. -/
def State.laneHost (s : State) (l code : Nat) (arg : Option Word) : State :=
  let s := match arg with
    | some w => s.when (s.laneUsed l && s.laneModeOk code) (fun s => s.wr (R.SQ_CMD_ARG l) w)
    | none => s
  let (t, st) := s.busLane l (R.SQ_CMD l) (Word.ofN code) 7 (s.tag 0)
  t.werrIf (R.SQ_CMD l) st

/-- LANE_START (R157). -/
def execLaneStart (l : LaneIx) (recipe : Fin 256) (s : State) : Host.Outcome State Fault Refusal :=
  .next (s.laneHost l 1 (some (Word.ofN recipe)))
/-- LANE_HOLD (R157). -/
def execLaneHold (l : LaneIx) (s : State) : Host.Outcome State Fault Refusal := .next (s.laneHost l 2 none)
/-- LANE_RESUME (R157). -/
def execLaneResume (l : LaneIx) (s : State) : Host.Outcome State Fault Refusal := .next (s.laneHost l 3 none)
/-- LANE_ABORT (R157, R161). -/
def execLaneAbort (l : LaneIx) (s : State) : Host.Outcome State Fault Refusal := .next (s.laneHost l 4 none)
/-- LANE_ADVANCE (R157). -/
def execLaneAdvance (l : LaneIx) (exit : Fin 4) (s : State) : Host.Outcome State Fault Refusal :=
  .next (s.laneHost l 5 (some (Word.ofN exit)))
/-- LANE_CLEAR (R157). -/
def execLaneClear (l : LaneIx) (s : State) : Host.Outcome State Fault Refusal := .next (s.laneHost l 6 none)
/-- LANE_GOTO (R157). -/
def execLaneGoto (l : LaneIx) (step : Fin 4096) (s : State) : Host.Outcome State Fault Refusal :=
  .next (s.laneHost l 7 (some (Word.ofN step)))

end Sys2Proof.Machine
end

