-- ==== Sys2Proof/Machine/Time.lean ====
section
/-!
DEFINITION. The time base, the PTP servo, the calendar clock and the edge inputs (chapter "Time base, network time and
calendar").
-/
namespace Sys2Proof.Machine

-- the state of the time base

def State.tmState (s : State) : Nat := s.fld R.TM_STATE F.TM_STATE_STATE
/-- The time base takes a state; entering or leaving LOCKED is recorded (R386, R489). -/
def State.setTm (s : State) (n : Nat) : State :=
  let old := s.tmState
  let s := s.setFld R.TM_STATE F.TM_STATE_STATE n
  s.when (old ≠ n && (old = 3 || n = 3)) (fun s => s.eventM 0xD003 0 0xD 0x1C2 (Word.ofN n) none)
/-- Round n / d to nearest, ties away from zero. -/
def roundDiv (n : Int) (d : Nat) : Int :=
  let q : Nat := (2 * n.natAbs + d) / (2 * d)
  if n < 0 then -(q : Int) else q
/-- ADDEND for a correction of y ppb (R388): round(0x35555555 × (1 − y / 10^9)). -/
def servoAddend (y : Dy) : Word :=
  let d := (Dy.ofInt (10 ^ 9)).sub y
  let den : Nat := 10 ^ 9 * 2 ^ (-d.e).toNat
  Word.ofI (roundDiv (0x35555555 * (d.m * 2 ^ d.e.toNat)) den)
/-- The proportional and integral part of a servo step (R388). -/
def State.servoTrim (s : State) (o : Int) : State :=
  let d := Dy.ofInt o
  let i := s.tm.integ.add ((F32.toDy (s.rd R.TM_SRV_KI)).mul d)
  let y := (((F32.toDy (s.rd R.TM_SRV_KP)).mul d).add i).clamp (Dy.ofInt (-1000000)) (Dy.ofInt 1000000)
  let s := { s with tm := { s.tm with integ := i } }
  (s.wr R.TM_ADDEND (servoAddend y)).wr R.TM_SRV_FREQ (Word.ofI (y.awayTo 0))
/-- One step of the servo on an offset (R386, R388). -/
def State.servoStep (s : State) (o : Int) : State :=
  let thr := (s.rd R.TM_SRV_STEP_THR).toNat
  let s := s.wr R.TM_SRV_OFS (Word.ofI o)
  let s := if s.tmState = 3 then s else s.setTm 2
  if o.natAbs ≥ thr then
    if s.tmState = 3 then { s.setTm 2 with tm := { s.tm with good := 0 } }
    else { s with tm := { s.tm with integ := Dy.zero, good := 0 }, tbStep := some (s.tbStep.getD 0 - o) }
  else
    let n := if o.natAbs < s.fld R.TM_SRV_LOCK F.TM_SRV_LOCK_LOCK_THR then s.tm.good + 1 else 0
    let s := { s with tm := { s.tm with good := n } }.servoTrim o
    s.when (s.tmState = 2 && n ≥ s.fld R.TM_SRV_LOCK F.TM_SRV_LOCK_LOCK_N) (fun s => s.setTm 3)
/-- A time stamp of the RGMII interface, which resolves 4 ns (R387). -/
def rgmiiStamp (t : Nat) : Int := (t / 4 * 4 : Nat)
/-- The offset of the time base from the transmitter's time, in nanoseconds (R387, log 266): the stamps of this device are
corrected by the PHY's latencies. -/
def State.ptpOfs (s : State) (m : PtpMeas) : Int :=
  let rx (t : Nat) : Int := rgmiiStamp t - (s.fld R.TM_MG_LAT F.TM_MG_LAT_RX : Nat)
  let tx (t : Nat) : Int := rgmiiStamp t + (s.fld R.TM_MG_LAT F.TM_MG_LAT_TX : Nat)
  let near : Int := rx m.sync.2 - m.sync.1 - m.corrSync
  if m.p2p then near - (rx m.resp.2 - tx m.req.1 - ((m.resp.1 : Int) - m.req.2) - m.corrDelay) / 2
  else (near - ((m.req.2 : Int) - tx m.req.1 - m.corrDelay)) / 2
/-- A measured offset (R388); while LOCKED the UTC offset and the leap flags are copied (R395). -/
def State.ptpOffset (s : State) (o : Int) (utc : Word) : State :=
  let s := s.servoStep o
  s.when (s.tmState = 3) (fun s => s.wr R.TM_RTC_UTC utc)
/-- No offset for 4 s (R386): ADDEND and the integral stand. -/
def State.tmHoldover (s : State) : State :=
  if s.tmState = 2 ∨ s.tmState = 3 then { s.setTm 4 with tm := { s.tm with good := 0 } } else s

-- steps by software

def State.tmCause (s : State) (c : Nat) : State :=
  (s.setFld R.TM_SET_CMD F.TM_SET_CMD_CODE 0).setFld R.TM_SET_CMD F.TM_SET_CMD_CAUSE c
/-- The time that TM_SET holds (R389). -/
def State.tmSetTime (s : State) : Nat :=
  ((s.rd R.TM_SET_SEC_LO).toNat + s.fld R.TM_SET_SEC_HI F.TM_SET_SEC_HI_SEC * 2 ^ 32) * 1000000000 + (s.rd R.TM_SET_NS).toNat
/-- CLK_HUB cycles until the time base has advanced by a time (R383): each adds ADDEND, u2.30 ns, to the fraction. -/
def State.hubCycles (s : State) (ns : Nat) : Nat :=
  let a := 4 * max 1 (s.rd R.TM_ADDEND).toNat
  (ns * 2 ^ 32 - s.tm.frac + a - 1) / a
/-- The time base runs through a cycle (R383): the CLK_HUB edge that begins the next one is the first at or after its t0,
and the fraction is what the time base stands beyond it. -/
def State.hubRun (s : State) (ns : Nat) : State :=
  let a := 4 * max 1 (s.rd R.TM_ADDEND).toNat
  { s with tm := { s.tm with frac := s.tm.frac + s.hubCycles ns * a - ns * 2 ^ 32 } }
/-- How far a SET to a time would step the time base at the next t0. -/
def State.tmDelta (s : State) (set : Bool) (v : Int) : Int := if set then v - (s.t0 + s.period : Nat) else v
/-- TM_SET_CMD (R389): SET to a time, or OFFSET. A step above 1 s reports TWO_PARTY and waits for its confirmation. -/
def State.tmCommand (s : State) (set : Bool) : State :=
  let v : Int := if set then s.tmSetTime else (s.rd R.TM_SET_NS).toInt
  if s.tmState = 2 ∨ s.tmState = 3 then s.tmCause 1
  else if set ∧ (s.rd R.TM_SET_NS).toNat > 999999999 then s.tmCause 3
  else if (s.tmDelta set v).natAbs > 1000000000 then s.tmCause 2
  else
    let s := (s.tmCause 0).setFld R.TM_SET_CMD F.TM_SET_CMD_CODE (if set then 1 else 2)
    { s with tm := { s.tm with set := some (set, v) } }
/-- A confirmed time-base step applies at the next t0 (R389, R494): false while LOCKING or LOCKED or for a bad value. -/
def State.tmConfirmed (s : State) (set : Bool) (sec : Nat) (ns : Int) : State × Bool :=
  if s.tmState = 2 ∨ s.tmState = 3 then (s.tmCause 1, false)
  else if set ∧ (ns < 0 ∨ ns > 999999999) then (s.tmCause 3, false)
  else ({ s.tmCause 0 with tm := { s.tm with set := some (set, if set then sec * 1000000000 + ns else ns) } }, true)
/-- The step that takes effect at this t0, which t0 already counts (R384): a servo step wins and refuses the command with
LOCKED. -/
def State.tmNext (s : State) : State × Option Int :=
  match s.tbStep, s.tm.set with
  | some d, none => ({ s with tbStep := none }, some d)
  | some d, some _ => ({ s.tmCause 1 with tbStep := none, tm := { s.tm with set := none } }, some d)
  | none, some (set, v) =>
    if s.tmState = 2 ∨ s.tmState = 3 then ({ s.tmCause 1 with tm := { s.tm with set := none } }, none)
    else (({ s with tm := { s.tm with set := none } }.setFld R.TM_SET_CMD F.TM_SET_CMD_CODE 0).setTm 1, some (if set then v - (s.t0 : Int) else v))
  | none, none => (s, none)
/-- A reading of the time base that latches its seconds (R396). -/
def State.tmNow (s : State) (t : Nat) : State :=
  ((s.wr R.TM_NOW_NS (Word.ofN (t % 1000000000))).wr R.TM_NOW_SEC_LO (Word.ofN (t / 1000000000))).wr R.TM_NOW_SEC_HI
    (Word.ofN (t / 1000000000 / 2 ^ 32 % 65536))

-- the calendar clock

/-- Show the RTC: seconds and sub-second counts of 1/32,768 s (R394). -/
def State.rtcShow (s : State) : State :=
  let n := s.tm.rtc / 1000000000
  let sec := n / 32768
  ((s.wr R.TM_RTC_SEC_LO (Word.ofN sec)).wr R.TM_RTC_SEC_HI (Word.ofN (sec / 2 ^ 32 % 65536))).wr R.TM_RTC_SUB
    (Word.ofN (n % 32768))
/-- The RTC advances by nanoseconds of elapsed time; it wraps with its 48 bits. -/
def State.rtcRun (s : State) (ns : Nat) : State :=
  { s with tm := { s.tm with rtc := (s.tm.rtc + ns * 32768) % (2 ^ 48 * 32768 * 1000000000) } }.rtcShow
/-- The RTC takes a time in nanoseconds. -/
def State.rtcSet (s : State) (t : Nat) : State :=
  { s with tm := { s.tm with rtc := t * 32768 / 1000000000 * 1000000000 } }.rtcShow
def State.rtcSec (s : State) : Nat := s.tm.rtc / 1000000000 / 32768
/-- The seed of the time base (R394): RTC seconds and sub-second × 30,517.578125 ns; 0 seconds when the RTC is not valid. -/
def State.rtcSeed (s : State) : Nat :=
  if s.bit R.TM_RTC_STAT F.TM_RTC_STAT_RTC_VALID then
    let n := s.tm.rtc / 1000000000
    n / 32768 * 1000000000 + n % 32768 * 30517578125 / 1000000
  else 0
/-- A write of TM_RTC_SEC (R395): above 1 s it awaits its two-party change. -/
def State.rtcWrite (s : State) (hi : Word) : State :=
  let sec : Nat := s.tm.rtcLo.toNat + hi.toNat % 65536 * 2 ^ 32
  if ((sec : Int) - (s.rtcSec : Int)).natAbs > 1 then s
  else { s with tm := { s.tm with rtc := (sec * 32768 + s.tm.rtc / 1000000000 % 32768) * 1000000000 } }.rtcShow
/-- A confirmed RTC write (R395, R494). -/
def State.rtcConfirmed (s : State) (sec : Nat) : State :=
  { s with tm := { s.tm with rtc := (sec * 32768 + s.tm.rtc / 1000000000 % 32768) * 1000000000 } }.rtcShow
/-- A 32 s window ends: TRIM counts are added or removed (R394). -/
def State.rtcTrim (s : State) : State :=
  let d := s.fldI R.TM_RTC_TRIM F.TM_RTC_TRIM_TRIM
  { s with tm := { s.tm with rtc := ((s.tm.rtc : Int) + d * 1000000000).toNat } }.rtcShow

-- edge inputs

/-- A capture goes into the log; a standby only keeps it, since the lease holder's captures are used (R392, R424). -/
def State.capLog (s : State) (tag : Word) (k : LogKind) : State :=
  if s.role = 2 then s.seenAdd tag k else s.logAdd tag k
/-- The log entry that carries the image words of an edge input: one per cycle (R392). -/
def State.edgeLog (s : State) (e : Nat) (tag : Word) : State :=
  let x := s.edgeX e
  if x.entry = some s.seq then s.setEdgeX e { x with dirty := true }
  else
    (s.setEdgeX e { x with entry := some s.seq, dirty := false }).capLog tag
      (.edgeImage (Fin.ofNat 64 e) x.rise x.fall x.count (if x.level then 1 else 0))
/-- At a cycle start an input whose words changed after its entry makes the entry of this cycle. -/
def State.edgeNext (s : State) (e : Nat) : State :=
  if (s.edgeX e).dirty then s.edgeLog e (s.tag 0) else s
/-- An edge within 8 ns after the last counted one (R392). -/
def EdgeX.near (x : EdgeX) (now : Nat) : Bool := x.last.any (fun t => decide (now < t + 8))
/-- A transition that has stayed stable for FILT (R392): counted in the directions of EDGE, stamped unless it is within 8 ns
of the previous, and sent on its routes; the image words carry every level (R47). -/
def State.edgeTake (s : State) (e off : Nat) (level : Bool) : State :=
  let c := R.TM_EDGE_CFG e
  if !s.bit c F.TM_EDGE_CFG_USED then s
  else
    let tag := s.tag off
    let x := s.edgeX e
    let near := x.near (s.now off)
    let k := s.fld c F.TM_EDGE_CFG_EDGE
    let s := s.setEdgeX e { x with level := level }
    let s :=
      if k = 2 || (k = 0 && level) || (k = 1 && !level) then
        let y := { x with level := level, count := x.count + 1, last := some (s.now off) }
        let y := if near then y else if level then { y with rise := tag } else { y with fall := tag }
        let s := s.setEdgeX e y
        s.when (s.bit c F.TM_EDGE_CFG_FLOW_EN && !near) (fun s =>
          s.capLog tag (.edgeItem (Fin.ofNat 64 e) tag level))
      else s
    s.when (s.bit c F.TM_EDGE_CFG_IMAGE) (fun s => s.edgeLog e tag)
/-- The pin of an edge input has had a level since an instant, for a time: the hedgerow takes the level at once (R302), and a
transition counts once it has been stable for FILT ns (R392). -/
def State.edgePin (s : State) (e off : Nat) (level : Bool) (stable : Nat) : State :=
  let x := s.edgeX e
  let s := (s.setEdgeX e { x with pin := level }).hgEval (s.now off)
  s.when (x.level != level && decide (s.fld (R.TM_EDGE_CFG e) F.TM_EDGE_CFG_FILT ≤ stable)) (fun s => s.edgeTake e off level)
/-- The image words of an edge input (R47): a log entry of it applies (R392). -/
def State.edgeImage (s : State) (e : Nat) (ws : List Word) : State := s.wrAll (R.IN_WORD (0xF800 + 4 * e)) ws

-- rows

/-- PTP_OFFSET (R387, R388) in a domain from 0 to 127: none is measured while the management core is in reset (R482). -/
def execPtpOffset (m : PtpMeas) (utc : BitVec 18) (s : State) : Host.Outcome State Fault Refusal :=
  .next (if s.mg.down ∨ 127 < m.domain then s else s.ptpOffset (s.ptpOfs m) (Word.ofN utc.toNat))
/-- HOLDOVER (R386). -/
def execHoldover (s : State) : Host.Outcome State Fault Refusal := .next s.tmHoldover
/-- TM_SET (R389). -/
def execTmSet (s : State) : Host.Outcome State Fault Refusal := .next (s.tmCommand true)
/-- TM_OFFSET (R389). -/
def execTmOffset (s : State) : Host.Outcome State Fault Refusal := .next (s.tmCommand false)
/-- RTC_UPDATE (R395): while HOST or LOCKED, and while its core runs (R482), the firmware writes the time base to the RTC,
which is then valid. -/
def execRtcUpdate (off : Nat) (s : State) : Host.Outcome State Fault Refusal :=
  .next (if s.mg.down = false ∧ (s.tmState = 1 ∨ s.tmState = 3) then (s.rtcSet (s.now off)).set1 R.TM_RTC_STAT F.TM_RTC_STAT_RTC_VALID else s)
/-- RTC_SEC_WRITE (R395). -/
def execRtcSecWrite (v : Word) (s : State) : Host.Outcome State Fault Refusal := .next (s.rtcWrite v)
/-- RTC_TRIM_WINDOW (R394). -/
def execRtcTrimWindow (s : State) : Host.Outcome State Fault Refusal := .next s.rtcTrim
/-- EDGE_CAPTURE (R392): a transition at an instant, with the time for which it has been stable so far. -/
def execEdgeCapture (e : Fin 64) (off : Nat) (level : Bool) (stable : Nat) (s : State) :
    Host.Outcome State Fault Refusal :=
  .next (s.edgePin e off level stable)
/-- TM_NOW_READ (R396): the nanoseconds are read and the seconds latched. -/
def execTmNowRead (off : Nat) (s : State) : Host.Outcome State Fault Refusal := .next (s.tmNow (s.now off))

end Sys2Proof.Machine
end

