-- ==== Sys2Proof/Machine/Links.lean ====
section
/-!
DEFINITION. Loss and return of the host link (R466, R467), fences of control dies and of region ports (R30, R36 to R39),
clock monitors (R31), and supply and temperature faults of the dies.
-/
namespace Sys2Proof.Machine

-- the host link

/-- The rings that a standby does not read (R465). -/
def ringHeld (k : Nat) : Bool := k < 16 || k ≥ 32
/-- NOT_HOLDER follows the role (R465). -/
def State.ringsRole (s : State) : State :=
  s.each ((List.range 64).filter ringHeld) (fun s k =>
    s.setB (R.HI_RING_STAT k) F.HI_RING_STAT_NOT_HOLDER (s.role = 2))
/-- A register that returns to its reset value at a link loss (R454, R458). -/
def hostReg (a : Nat) : Bool :=
  a = 0x18 || a = 0x20 || a = 0x24 || a = 0x28 || a = 0x30 || a = 0x34 || a = 0x38 || (0x2C000 ≤ a && a < 0x2D000)
/-- The HI_ registers at their reset values, with no work on any ring. -/
def State.hostReset (s : State) : State :=
  ({ s with io := s.io.filter (fun e => !hostReg e.1), hrings := [] }).ringsRole
/-- The HOST session ends (R485). -/
def State.hostLogout (s : State) : State :=
  { s with mg := { s.mg with sess := s.mg.sess.filter (fun e => e.1 ≠ 0) } }.wr R.MG_SESSION 0
/-- The host link is lost (R467). -/
def State.hostLoss (s : State) : State :=
  if s.hostDown then s
  else
    let s := { s with hostDown := true }.hostReset
    let s := (s.setFld R.HI_LINK F.HI_LINK_SPEED 0).setFld R.HI_LINK F.HI_LINK_WIDTH 0
    (s.each (List.range 16) (fun s p => s.canReclaim p)).hostLogout
/-- The host link returns (R467). Speed and width are as they train (log 1). -/
def State.hostReturn (s : State) : State :=
  if !s.hostDown then s
  else
    let (w, s) := { s with hostDown := false }.draw
    let s := s.hostReset
    let a := R.HI_LINK
    let s := s.setFld a F.HI_LINK_SPEED (1 + w.toNat % 4)
    let s := s.setFld a F.HI_LINK_WIDTH (2 ^ (w.toNat / 4 % 4))
    let s := s.setFld a F.HI_LINK_DOWN_CNT (s.fld a F.HI_LINK_DOWN_CNT + 1)
    s.irq0 F.HI_IRQ0_STAT_LINK

-- fences

/-- The BISTs of some regions have ended or are given up; with the last, GO of their command has been carried out (R12). -/
def State.bistLess (s : State) (p : Nat → Bool) : State :=
  let rest := s.integ.bist.filter (fun q => !p q)
  ({ s with integ := { s.integ with bist := rest } }).when (rest = []) (fun s => s.setFld R.CV_BIST_CMD F.CV_BIST_CMD_GO 0)

/-- A capture engine stops with a fence (R30, R344). -/
def State.ceFence (s : State) (r end_ : Nat) : State :=
  let s := s.each ((List.range 8).map (fun i => 8 * r + i)) (fun s c => s.swatchWin c end_ 0 0)
  ((s.ceDrop r end_).set1 (R.CE_STAT r) F.CE_STAT_FENCED).setCeState r 0
/-- The DRAM port of a region is fenced (R30). -/
def State.portFence (s : State) (r off : Nat) : State :=
  if s.bit (R.CE_STAT r) F.CE_STAT_FENCED || s.dieState (r / 4) ≠ 0 then s
  else
    let s := s.recFence (fun q => q = r) 3 (s.now off)
    (s.ceFence r 3).eventU false 0x4004 2 3 r []
/-- The pair state of the partner, as its last HELLO gave it. -/
def State.partnerState (s : State) : Option Nat := s.xl.partner.map (fun h => h.state)
/-- A partner is HOLDER or STANDBY (R441). -/
def State.partnerThere (s : State) : Bool := s.partnerState = some 2 || s.partnerState = some 3
/-- The partner matches (R427): this unit is holder, the partner is STANDBY, and its digests have matched for 64 cycles. -/
def State.partnerFit (s : State) : Bool := s.role = 1 && s.xl.matched ≥ 64 && s.partnerState = some 3
/-- The partner takes the lease over a die fence (R40): it matches, and its dies are all ACTIVE. -/
def State.partnerWhole (s : State) : Bool :=
  s.partnerFit && (match s.xl.partner with
    | some h => h.dies
    | none => false)
/-- A control die is fenced (R36, R37, R43): its pad ring shows the fallow patterns, its tasks are killed, its terms count as
true, its trip inputs count as active (R292), and its engines and record sources stop. `row` is the row of R36's table. -/
def State.dieFence (s : State) (d row off : Nat) : State :=
  if s.dieState d = 1 ∨ s.dieState d = 2 then s
  else
    let now := s.now off
    let s := s.recFence (fun r => r / 4 = d) 4 now
    let s := { (s.setDie d 1).emit (.fence d) with fences := Smap.put s.fences d s.seq }
    let s := s.each ((List.range 48).map (fun p => 48 * d + p)) (fun s p =>
      if s.bit (R.PW_CFG p) F.PW_CFG_USED then s.pwLatch p else s)
    let rs := (List.range 4).map (fun r => 4 * d + r)
    let s := s.each ((List.range 4).map (fun i => 4 * d + i)) (fun s i =>
      let a := R.PW_TRIP_STAT i
      let seen := s.fld a F.PW_TRIP_STAT_SEEN ||| (7 ^^^ s.fld a F.PW_TRIP_STAT_FILT)
      (s.setFld a F.PW_TRIP_STAT_FILT 7).setFld a F.PW_TRIP_STAT_SEEN seen)
    let s := (s.each rs (fun s r => s.ceFence r 4)).bistLess (fun q => q / 4 = d)
    let s := s.each rs (fun s r => s.each (s.usedTasks r) (fun s t => s.taskKill r t (s.now off) none))
    let s := s.each (s.usedSlots.filter (fun k => k / 1024 = d)) (fun s k =>
      s.setSlotX k { s.slotX k with ready := [] })
    let s := s.hgEval now
    let s := s.eventU false 0x5001 3 4 d [Word.ofN row]
    let s := s.irq0 F.HI_IRQ0_STAT_FENCE
    s.when s.partnerWhole (fun s => { s with xl := { s.xl with want := 3 } })

-- clocks

/-- The row of R31's table for a domain, from 0. -/
def Domain.row : Domain → Nat
  | .core _ => 0 | .pwm _ => 1 | .hub => 2 | .mem => 3 | .host => 4 | .field _ => 5 | .xlnk => 6 | .can => 7
  | .mgmt => 8 | .sdm _ => 9 | .rtc => 10
/-- A clock monitor flags a domain (R31). The monitors are sensors of R483 and record SENSOR, where no status bit shows them. -/
def State.clockFault (s : State) (d : Domain) : State :=
  let inst := 0x1D0 + Domain.row d
  let rec_ (cls typ i : Nat) : State := s.eventM 0xD001 cls typ i (Word.ofN inst) none
  match d with
  | .core d => s.dieFence d 2 0
  | .pwm d => s.dieFence d 2 0
  | .hub => (rec_ 4 0xD inst).stopCause 2
  | .mem => (rec_ 4 0xD inst).stopCause 2
  | .mgmt => (rec_ 4 0xD inst).stopCause 2
  | .host => (rec_ 1 0xD inst).hostLoss
  | .field p => rec_ 2 0xA (0x200 + p)
  | .xlnk => rec_ 2 0xF (1 - s.unit)
  | .can =>
    let s := s.each (List.range 16) (fun s p => s.eventM 0xD001 2 0xB p (Word.ofN inst) none)
    { s with canBad := true }.canUpdateAll (s.tag 0)
  | .sdm g =>
    -- balls of an absent die have no function, and the inputs of a fenced one are ignored (R2, R37)
    if s.dieRuns (g / 12) then
      ((s.raise 2 7 (4 * g) (R.SD_GRP_STAT g) F.SD_GRP_STAT_CLK_FAULT (s.tag 0)).sdiClkFault g).hgEval s.t0
    else s
  | .rtc =>
    let (tag, s) := s.mgTag
    (s.raise 1 0xD 0x1C1 R.TM_RTC_STAT F.TM_RTC_STAT_CLK_FAULT tag).setTm 0

-- rows

/-- HOST_LINK_LOSS (R467). -/
def execHostLinkLoss (s : State) : Host.Outcome State Fault Refusal := .next s.hostLoss
/-- HOST_LINK_RETURN (R467). -/
def execHostLinkReturn (s : State) : Host.Outcome State Fault Refusal := .next s.hostReturn
/-- CLOCK_MONITOR_FAULT (R31). -/
def execClockMonitorFault (d : Domain) (s : State) : Host.Outcome State Fault Refusal := .next (s.clockFault d)
/-- LINK_HUNG (R29). -/
def execLinkHung (d : DieIx) (s : State) : Host.Outcome State Fault Refusal := .next (s.dieFence d 1 0)
/-- DIE_SUPPLY_FAULT (R36). -/
def execDieSupplyFault (d : DieIx) (s : State) : Host.Outcome State Fault Refusal := .next (s.dieFence d 3 0)
/-- DIE_OVERTEMP (R36). -/
def execDieOvertemp (d : DieIx) (s : State) : Host.Outcome State Fault Refusal := .next (s.dieFence d 4 0)
/-- DIE_FENCE (R39). -/
def execDieFence (d : DieIx) (s : State) : Host.Outcome State Fault Refusal := .next (s.dieFence d 7 0)
/-- REGION_PORT_FENCE (R30). -/
def execRegionPortFence (r : RegionIx) (s : State) : Host.Outcome State Fault Refusal := .next (s.portFence r 0)

end Sys2Proof.Machine
end

