-- ==== Sys2Proof/Machine/Ckpt.lean ====
section
/-!
DEFINITION. The checkpoint: what it holds, its buffers, and its restoration (R178 to R180, R205, R379, R438, R439, R442,
R443).
-/
namespace Sys2Proof.Machine

-- what it holds

/-- The slot, axis and lane registers of the checkpoint (R438, R178). -/
def ckptSlotRegs (k : Nat) : List Nat :=
  [R.LE_MODE k, R.LE_SP k, R.LE_MAN_OUT k, R.LE_OUT k, R.LE_SUP_STAT k, R.LE_FB_AGE k, R.LE_FE_CNT k, R.LE_FRZ_CNT k]
def ckptAxisRegs (a : Nat) : List Nat :=
  [R.AX_POS_LO a, R.AX_POS_HI a, R.AX_VEL a, R.AX_ACC a, R.AX_STATE a, R.AX_MOVE_CNT a, R.AX_REMAIN_LO a,
    R.AX_REMAIN_HI a, R.AX_USE_VMAX a, R.AX_USE_AMAX a, R.AX_USE_DMAX a, R.AX_USE_JMAX a]
def ckptLaneRegs (l : Nat) : List Nat :=
  [R.SQ_STATE l, R.SQ_POS l, R.SQ_TIMER l, R.SQ_SEQ l, R.SQ_ABORT_ENT l] ++
    (List.range 4).map (R.SQ_RC l) ++ (List.range 8).map (R.SQ_LT l)
/-- The region locals that hold instance words (R197, R205). -/
def State.instLocals (s : State) (r : Nat) : List Nat :=
  ((s.usedTasks r).map (fun t => ((s.taskNodes r t).map (fun nd => nd.writes.drop 1)).flatten)).flatten.filter
    (fun ref => Ref.space ref = 2)
/-- The locals of the mailbox of a flow (R224). -/
def State.flowMbox (s : State) (f : Nat) : List Nat :=
  (List.range 18).map (fun i => R.LOCAL (s.flowRegion f) (s.fld (R.FL_CFG f) F.FL_CFG_MBOX + i))
/-- The BAR0 words that the checkpoint holds. -/
def State.ckptRegs (s : State) : List Nat :=
  (s.usedSlots.map ckptSlotRegs).flatten ++ (s.usedAxes.map ckptAxisRegs).flatten ++
    (s.usedLanes.map ckptLaneRegs).flatten ++
    (((List.range 16).map s.instLocals).flatten ++ s.img.retain).map localReg ++
    ((List.range 16).map (fun r => (s.usedTasks r).map (R.TK_STATE r))).flatten ++
    (s.usedFlows.map (fun f => R.FL_STAT f :: s.flowMbox f)).flatten ++
    s.usedStns.map R.FP_S_STAT ++ [R.TK_CTL, R.XL_EPOCH, R.XL_LOG_POS]
/-- The state words of the stages in law memory (R89). -/
def lawState (m : List (Nat × Word)) : List (Nat × Word) := m.filter (fun e => e.1 % 16 ≥ 12)
/-- The running exponents of the stages (R89). -/
def State.lawExps (s : State) : List (Nat × Nat) :=
  s.usedSlots.flatMap (fun k => (List.range (s.fld (R.LE_CFG k) F.LE_CFG_NSTG + 1)).map (fun i =>
    (R.LE_STG k i, s.fld (R.LE_STG k i) F.LE_STG_EXP)))
/-- The output words of lanes and background tasks, those that a stop or a kill has made fallow at that value. -/
def State.ckptOuts (s : State) : List (Nat × Word) :=
  let words := s.ownedWords (fun o => match o with
    | .lane _ => true
    | .task r t => !s.taskInPhase r t
    | _ => false)
  (s.outMaster.filter (fun e => words.contains e.1)).map (fun e =>
    (e.1, if s.stopFallow.contains e.1 then s.wordFallow e.1 else e.2))
/-- The words of a checkpoint, in an order of the model's (log 261): registers, law memory, exponents, output words, and the
numbers of the network and the log. -/
def Ckpt.words (c : Ckpt) : List Word :=
  c.io.map Prod.snd ++ c.law.map Prod.snd ++ c.exps.map (fun e => Word.ofN e.2) ++ c.outs.map Prod.snd ++
    [Word.ofN c.bootId, c.lseq]
/-- A checkpoint with its length and its CRC (R438, R439): it is valid. -/
def Ckpt.seal (c : Ckpt) : Ckpt :=
  { c with len := 4 * c.words.length, crc := Word.ofN (Crc.of 1 (wordBytes c.words)), valid := true }
/-- The CRC of a checkpoint matches (R441). -/
def Ckpt.whole (c : Ckpt) : Bool := c.crc = Word.ofN (Crc.of 1 (wordBytes c.words))
/-- The items as they stand now (R438). -/
def State.ckptTake (s : State) : Ckpt where
  epoch := s.seq
  wraps := s.wraps
  layout := s.rd R.KA_CKPT_LAYOUT
  len := 0
  crc := 0
  restores := 0
  valid := false
  io := s.ckptRegs.map (fun a => (a, s.rd a))
  law := lawState s.lawMem
  exps := s.lawExps
  t0 := s.t0
  outs := s.ckptOuts
  slots := s.slots.map (fun e => (e.1, { e.2 with ready := [], tp := [], host := [], wait := none, carried := none, rels := [] }))
  axes := s.axes
  lanes := s.lanes
  tasks := s.tasks
  rss := s.rss
  flows := s.flows
  stns := s.stns
  bootId := s.bootId
  lseq := s.lseq

-- the buffers

/-- Show the state of the buffers (R447). -/
def State.ckptShow (s : State) : State :=
  let a := R.KA_CKPT_STAT
  let on (b : Option Ckpt) : Bool := match b with
    | some c => c.valid
    | none => false
  (s.setB a F.KA_CKPT_STAT_VALID_A (on s.boot.bufA)).setB a F.KA_CKPT_STAT_VALID_B (on s.boot.bufB)
/-- Epoch cycles (R438): K = max(1, 1,000 µs / T). -/
def State.isEpoch (s : State) : Bool := s.cycleNo % max 1 (1000000 / s.period) = 0
/-- The unit writes checkpoints (R438): a single unit, a holder or a standby. -/
def State.ckptWrites (s : State) : Bool := s.role ≠ 2 || s.pairState = 3
/-- A copy begins at the close of an epoch, or the epoch is skipped (R438). -/
def State.ckptEpoch (s : State) : State :=
  if !s.isEpoch || !s.ckptWrites then s
  else if s.boot.copying.isSome then (s.set1 R.KA_CKPT_STAT F.KA_CKPT_STAT_SKIP).incr R.KA_SKIP_CNT
  else
    let b := s.bit R.KA_CKPT_STAT F.KA_CKPT_STAT_ACTIVE
    let c := s.ckptTake
    let s := if b then { s with boot := { s.boot with bufA := none, copying := some c } }
      else { s with boot := { s.boot with bufB := none, copying := some c } }
    s.ckptShow
/-- The copy is done: the inactive buffer is valid and becomes the active one (R438). -/
def State.ckptDone (s : State) : State :=
  match s.boot.copying with
  | none => s
  | some c =>
    let c := c.seal
    let a := R.KA_CKPT_STAT
    let b := s.bit a F.KA_CKPT_STAT_ACTIVE
    let s := if b then { s with boot := { s.boot with bufA := some c, copying := none } }
      else { s with boot := { s.boot with bufB := some c, copying := none } }
    ((s.setB a F.KA_CKPT_STAT_ACTIVE (!b)).wr R.KA_CKPT_EPOCH c.epoch).ckptShow
/-- A valid buffer whose CRC matches. -/
def ckptOk (b : Option Ckpt) : Option Ckpt :=
  match b with
  | some c => if c.valid && c.whole then some c else none
  | none => none
/-- The valid buffer with the later epoch: true for buffer B (R441). -/
def State.ckptLatest (s : State) : Option (Bool × Ckpt) :=
  match ckptOk s.boot.bufA, ckptOk s.boot.bufB with
  | some a, some b => if 0 < (b.epoch - a.epoch).toInt then some (true, b) else some (false, a)
  | some a, none => some (false, a)
  | none, some b => some (true, b)
  | none, none => none

-- restoration

/-- A lane after a restart (R179, R180): the journal suppresses, the values are issued again, and the recipe's policy acts
in the first Phase S. What is awaited, without its staged entry, and the axis move counters are kept (log 219). -/
def State.laneRestore (s : State) (l : Nat) (old : LaneX) : State :=
  let x := s.laneX l
  let st := s.laneState l
  s.setLaneX l { x with
    host := [], ready := [], wait := x.wait.map (fun w => { w with entry := none }), ends := [], adv := [], kept := none
    jStep := old.jStep, jRun := old.jRun, supp := true, fresh := true, reissue := st = 1 || st = 2 || st = 3 }
/-- The fallow causes of a restored slot (R105): a requested FALLOW, a FALLOW action and a slot fault that stand. -/
def State.slotCauses (s : State) (k : Nat) : State :=
  let a := R.LE_STAT k
  let s := s.when (s.fld (R.LE_MODE k) F.LE_MODE_REQ = 4) (fun s => s.setFld a ⟨12, 1⟩ 1)
  let s := s.when (s.supAct k 1) (fun s => s.setFld a ⟨10, 1⟩ 1)
  s.when (s.fltAct k 1) (fun s => s.setFld a ⟨11, 1⟩ 1)
/-- An axis after a restart (R443): one that moved is STOPPING with the FAULT cause, and a stepper has lost its
position. -/
def State.axRestore (s : State) (a : Nat) (tag : Word) : State :=
  let x := s.axisX a
  let s := s.setAxisX a { x with writes := [], stalls := 0, held := false, causes := 0 }
  if s.axState a = 1 ∨ s.axState a = 2 then
    let s := s.when (s.axStepper a) (fun s => s.set1 (R.AX_STAT a) F.AX_STAT_POS_LOST)
    let s := (s.axSetCause a 3).setAxState a 2
    let s := s.setAxisX a { s.axisX a with causes := s.axCause a }
    let d := s.rd (R.AX_DSTOP a)
    if !limitOk d (limitA s.period d) then s.raise 1 5 a (R.AX_STAT a) F.AX_STAT_REJ_PARAM tag
    else s.axFollow a x.goal (if x.v = 0 ∧ x.a = 0 then [] else planFor (s.axQuery a x.goal d true false))
  else s
/-- The tasks of a checkpoint go on in cycle h as after the epoch (R438): an instance that had not been published keeps its
evaluation and its distance from its publication, and DT begins anew (R202). Flags are not in the checkpoint (log 262). -/
def State.tasksRestore (s : State) (c : Ckpt) (h : Word) : State :=
  let dn := h - (c.epoch + 1)
  let go (t : Nat) : Nat := ((t : Int) + (s.t0 + s.period - 1) / s.period * s.period - (c.t0 + s.period)).toNat
  { s with
    tasks := c.tasks.map (fun (e : Nat × TaskX) => (e.1, { e.2 with
      cyc := e.2.cyc + dn, due := e.2.due + dn, wake := go e.2.wake, disp := e.2.disp.map go, since := go e.2.since
      ready := go e.2.ready, prev := none }))
    rss := c.rss.map (fun (e : Nat × RsX) => (e.1, { e.2 with cond := [], halt := false })) }
/-- The items of a checkpoint are restored into every unit (R379, R442), for cycle h. -/
def State.ckptRestore (s : State) (c : Ckpt) (h : Word) : State :=
  let old := s.lanes
  let s := s.each c.io (fun s e => s.wr e.1 e.2)
  let s := { s with
    lawMem := Smap.setAll (fun _ => (0 : Word)) s.lawMem c.law
    outMaster := c.outs.foldl (fun m (e : Nat × Word) => Smap.put m e.1 e.2) s.outMaster
    slots := c.slots, axes := c.axes, lanes := c.lanes, bootId := c.bootId, lseq := c.lseq }
  let s := (s.each c.exps (fun s e => s.setFld e.1 F.LE_STG_EXP e.2)).each s.usedSlots (fun s k => s.slotCauses k)
  let s := s.tasksRestore c h
  let s := { s with flows := c.flows.map (fun (e : Nat × FlowX) => (e.1, { e.2 with queue := [] })) }
  let s := s.each s.usedFlows (fun s f => s.setFld (R.FL_STAT f) F.FL_STAT_QUEUED 0)
  let s := { s with stns := c.stns.map (fun (e : Nat × StnX) => (e.1, { e.2 with
    got := none, miss := 0, disc := false, adm := false, tries := 0 })) }
  let s := s.each s.usedStns (fun s k => s.setFld (R.FP_S_STAT k) F.FP_S_STAT_MISS 0)
  let s := s.each s.usedLanes (fun s l => s.laneRestore l (Smap.get (fun _ => default) old l))
  s.each s.usedAxes (fun s a => s.axRestore a (s.tag 0))

-- rows

/-- CHECKPOINT_DONE (R438). -/
def execCheckpointDone (s : State) : Host.Outcome State Fault Refusal := .next s.ckptDone

end Sys2Proof.Machine
end

