-- ==== Sys2Proof/Machine/Pair.lean ====
section
/-!
DEFINITION. Paired operation (R418 to R437): pair states, the link, the lease and its moves, the digest, the log between
the units, local pins, and the resync.
-/
namespace Sys2Proof.Machine

-- states

/-- The partner's unit ID. -/
def State.partnerId (s : State) : Nat := 1 - s.unit
/-- The pair is active: paired operation is enabled and the unit runs. -/
def State.paired (s : State) : Bool := s.pairEn && s.boot.up
/-- Pair states in which the pins that the unit owns hold their fallow patterns (R435). -/
def pinsHeld (n : Nat) : Bool := n = 1 || n = 4 || n = 5 || n = 6
/-- Pair states that do not compute the control path (R419). -/
def pairIdle (n : Nat) : Bool := n = 1 || n = 4 || n = 5
/-- The pairs, and the stepper axes, whose pins this unit drives (R266, R287). -/
def State.ownPairs (s : State) : List Nat :=
  (s.usedUnits 192 R.PW_CFG).filter (fun p => !s.bit (R.PW_STAT p) F.PW_STAT_NOT_OWNER)
def State.ownSteppers (s : State) : List Nat :=
  s.usedAxes.filter (fun a => s.axStepper a && s.fld (R.AX_CFG a) F.AX_CFG_OWNER = s.unit)
/-- The pins that this unit owns take their fallow patterns, or follow their pairs again (R435). -/
def State.pinsHold (s : State) : State := s.each s.ownPairs (fun s p => s.pwForce p 2)
def State.pinsFree (s : State) : State :=
  let s := s.each s.ownPairs (fun s p => s.pwRelease p 2)
  s.each s.ownSteppers (fun s a => s.inputLog (s.tag 0) (.posLost (Fin.ofNat 128 a)))
/-- The units run again, unless the controller is stopped. -/
def State.pairRun (s : State) : State := if s.stopped then s else s.unitsRun
/-- Every proposal lapses (R493): its slot is free. -/
def State.propsLapse (s : State) : State :=
  let s := s.each s.mg.props (fun s e => s.wrAll (R.LF_PROP e.1) [0, 0, 0, 0])
  { s.setFld R.HG_PATCH_STAT F.HG_PATCH_STAT_PENDING 0 with mg := { s.mg with props := [] } }
/-- The lease has moved (R445, R493): proposals lapse, and outstanding mailbox answers are discarded, so that the completion
slots that waited for them are free. -/
def State.leaseMoved (s : State) : State :=
  let s := s.each s.mails (fun s m =>
    let k := 8 + m.member.ring
    s.setHringX k { s.hringX k with resv := (s.hringX k).resv - 1 })
  { s.propsLapse with mails := [] }
/-- The unit takes a pair state (R419, R435): in one that does not compute, its units behave as in a controller stop
(R235). The check-value unit leaves CHANNELS with RESYNC, unless start-up has yet to end it (R478). -/
def State.setPair (s : State) (n : Nat) : State :=
  let old := s.pairState
  let s := s.setFld R.XL_STATE F.XL_STATE_STATE n
  let s := s.when (n = 2) (fun s => s.setFld R.XL_STATE F.XL_STATE_HOLDER_ID s.unit)
  let s := { s with xl := { s.xl with held := false } }
  let s := s.when (old = 5 && n ≠ 5 && s.boot.loops) (fun s => s.setFld R.CV_CTL F.CV_CTL_MODE 0)
  let s := s.ringsRole.canUpdateAll (s.tag 0)
  let s := s.when (pairIdle n && !pairIdle old) (fun s => s.unitsHalt)
  let s := s.when (pairIdle old && !pairIdle n) (fun s => s.pairRun)
  let s := s.when (pinsHeld n && !pinsHeld old) (fun s => s.pinsHold)
  s.when (pinsHeld old && (n = 2 || n = 3)) (fun s => s.pinsFree)

-- the lease

def State.leaseNs (s : State) : Nat := s.fld R.XL_TIMING F.XL_TIMING_LEASE_US * 1000
/-- Both paths have been silent for LEASE_US at t0 (R423). -/
def State.holderSilent (s : State) : Bool := s.t0 ≥ s.xl.hbT + s.leaseNs && s.t0 ≥ s.xl.ringT + s.leaseNs
/-- Order log entries by their time. -/
def insertTime (now : Word) (e : LogEntry) : List LogEntry → List LogEntry
  | [] => [e]
  | f :: t => if (e.tag - now).toInt < (f.tag - now).toInt then e :: f :: t else f :: insertTime now e t
/-- Give entries their cycle and consecutive numbers. -/
def numberEntries (cyc lseq : Word) : List LogEntry → List LogEntry
  | [] => []
  | e :: t => { e with cyc := cyc, lseq := lseq } :: numberEntries cyc (lseq + 1) t
/-- A KEY entry. -/
def isKey (e : LogEntry) : Bool := match e.kind with
  | .key _ => true
  | _ => false
/-- The entries that a new holder has made since a state: in time order with the key first, assigned to the next cycle
(R424). -/
def State.takeoverLog (before s : State) : State :=
  let new := (s.log.drop before.log.length).foldl (fun l e => insertTime (s.tag 0) e l) []
  let new := numberEntries (s.seq + 1) before.lseq (new.filter isKey ++ new.filter (fun e => !isKey e))
  let sent := (s.out.take (s.out.length - before.out.length)).filter (fun o => match o with
    | .logEntry _ => false
    | _ => true)
  { s with
    log := s.log.take before.log.length ++ new
    out := (new.map Out.logEntry).reverse ++ sent ++ before.out }
/-- The unit becomes holder with the next lease epoch (R424, R427). -/
def State.becomeHolder (s : State) : State := ((s.incr R.XL_EPOCH).setPair 2).leaseMoved
/-- Frames that have waited for the holder's digest leave, an offset after t0 (R433). -/
def State.heldSend (s : State) (off : Nat) : State :=
  if s.xl.held then { s with xl := { s.xl with held := false } }.when s.sends (fun s => s.trainSend off) else s
/-- A digest or a CLOSE of the partner is missing (R430, R433): the cycle is counted once (R446). -/
def State.missCount (s : State) : State :=
  if s.cyc.missed then s else { s.incr R.XL_DIG_MISS_CNT with cyc := { s.cyc with missed := true } }
/-- The standby takes the lease (R424). What the old holder had sent for later cycles without their CLOSE is lost (R430). -/
def State.takeover (s : State) : State :=
  let held := s.xl.held
  let s := s.becomeHolder.set1 R.XL_STAT F.XL_STAT_TAKEOVER
  let s := (s.incr R.XL_TKO_CNT).when held (fun s => s.trainSend 0)
  let s := { s with log := s.log.filter (fun e => s.xl.closes.any (fun c => c.1 = e.cyc)) }
  let before := s
  let key := s.fld R.TK_KEY F.TK_KEY_KEY
  let s := s.when (key ≠ s.mode) (fun s => s.logAdd (s.tag 0) (.key (BitVec.ofNat 2 key)))
  let s := s.canTakeover (s.tag 0)
  let s := s.each s.xl.seen (fun s e => s.logAdd e.1 e.2)
  let s := before.takeoverLog s
  let s := { s with xl := { s.xl with seen := [], matched := 0 } }
  let s := s.eventU false 0x7001 2 0xF s.partnerId [s.rd R.XL_EPOCH]
  s.irq0 F.HI_IRQ0_STAT_TAKEOVER
/-- A holder meets its partner's holding (R426): the lower epoch mutes, and unit 1 at equal epochs. -/
def State.dualHolder (s : State) (epoch : Nat) : State :=
  let own := (s.rd R.XL_EPOCH).toNat
  if s.role = 1 ∧ (own < epoch ∨ (own = epoch ∧ s.unit = 1)) then
    let s := s.eventU false 0x7003 2 0xF s.partnerId []
    (((s.set1 R.XL_STAT F.XL_STAT_DUAL_HOLDER).setPair 4).setFld R.XL_STATE F.XL_STATE_HOLDER_ID s.partnerId).leaseMoved
  else s
def State.xlCause (s : State) (c : Nat) : State :=
  (s.setFld R.XL_CMD_STAT F.XL_CMD_STAT_BUSY 0).setFld R.XL_CMD_STAT F.XL_CMD_STAT_CAUSE c
/-- The holder hands the lease to its partner from this cycle on and takes a state (R40, R427, R440). -/
def State.leaseGive (s : State) (n : Nat) : State :=
  let s := s.emit (.lease ((s.rd R.XL_EPOCH).toNat + 1) s.seq)
  let s := { s with xl := { s.xl with hbT := s.t0, ringT := s.t0 } }
  let s := (s.setPair n).setFld R.XL_STATE F.XL_STATE_HOLDER_ID s.partnerId
  (s.incr R.XL_EPOCH).leaseMoved
/-- A logged HANDOVER applies (R427): the roles swap, or a holder without a matched partner reports NOT_MATCHED. The standby, too,
takes the lease only where the digests of the last 64 cycles have matched, and it then logs what R416 asks. The flag says that it
applied. -/
def State.handover (s : State) : State × Bool :=
  if s.role = 1 then if s.partnerFit then ((s.leaseGive 3).xlCause 0, true) else (s.xlCause 4, false)
  else if s.pairState = 3 then
    if s.xl.matched ≥ 64 then (s.becomeHolder.canTakeover (s.tag 0), true) else (s.xlCause 4, false)
  else (s.xlCause 1, false)
/-- A confirmed TAKE applies (R427): a STANDBY takes the lease at once. -/
def State.take (s : State) : State × Bool :=
  if s.paired && s.pairState = 3 then (s.takeover.xlCause 0, true) else (s.xlCause 1, false)

-- resync

/-- The unit enters RESYNC (R436): it asks its partner for its state. -/
def State.resyncBegin (s : State) : State :=
  let s := (s.setPair 5).set1 R.CV_CTL F.CV_CTL_MODE
  let s := (s.setFld R.XL_STAT F.XL_STAT_RS_CAUSE 0).linkSend (.resync 1)
  { s with xl := { s.xl with phase := 1, shadow := 0, hbT := max s.xl.hbT s.t0 } }
/-- A resync fails (R436): 1 LINK, 2 JOURNAL, 3 SHADOW_MIS, 4 HOLDER_LOST, 5 INCOMPAT. -/
def State.resyncFail (s : State) (c : Nat) : State :=
  if s.pairState = 5 ∨ s.pairState = 6 then
    let s := (s.set1 R.XL_STAT F.XL_STAT_RESYNC_FAIL).setFld R.XL_STAT F.XL_STAT_RS_CAUSE c
    let s := s.eventU false 0x7004 1 0xF s.partnerId [Word.ofN c, 0]
    { s with xl := { s.xl with phase := 0 } }.setPair 4
  else s
/-- A word of BAR0 that a resync transfers (R436): the cycle number, the LSEQ applied, the mode and tasks with their flows and
forces, the lanes, the hedgerow and fallow tables, the station tables, and the regions but for their capture engines. -/
def bulkWord (a : Nat) : Bool :=
  let o := a % 0x100000
  a = R.TM_CYC_SEQ || a = R.XL_LOG_POS || (0x10000 ≤ a && a < 0x20000) || (0x40000 ≤ a && a < 0x60000) ||
    (0x90000 ≤ a && a < 0x100000) || (0x100000 ≤ a && a < 0x180000 && 0x1000 ≤ a % 0x10000) ||
    (0x1000000 ≤ a && a < 0x2000000 && !(0x80000 ≤ o && o < 0xC0000))
/-- The state that a holder sends to a partner that resyncs (R436). -/
def State.bulkTake (s : State) : Bulk where
  io := s.io.filter (fun e => bulkWord e.1)
  law := s.lawMem
  outs := s.outMaster
  recipes := s.dram.filter (fun e => e.1 < 67108864)
  slots := s.slots
  lanes := s.lanes
  axes := s.axes
  tasks := s.tasks
  flows := s.flows
  stns := s.stns
  cans := s.cans
  bootId := s.bootId
  lseq := s.lseq
  wraps := s.wraps
/-- The holder freezes its state at the close of the epoch, the next cycle boundary after the request, and sends it (R436). -/
def State.bulkGive (s : State) : State :=
  if s.xl.give then { s with xl := { s.xl with give := false } }.linkSend (.bulk s.bulkTake) else s
/-- Load what a resync brings (R378, R436). -/
def State.bulkLoad (s : State) (b : Bulk) : State :=
  let s := s.each b.io (fun s e => s.wr e.1 e.2)
  { s with
    lawMem := Smap.setAll (fun _ => (0 : Word)) s.lawMem b.law
    outMaster := b.outs.foldl (fun m (e : Nat × Word) => Smap.put m e.1 e.2) s.outMaster
    dram := Smap.setAll (fun _ => (0 : Byte)) s.dram b.recipes
    slots := Smap.setAll (fun _ => default) [] b.slots, lanes := Smap.setAll (fun _ => default) [] b.lanes
    axes := Smap.setAll (fun _ => default) [] b.axes, tasks := Smap.setAll (fun _ => default) [] b.tasks
    flows := Smap.setAll (fun _ => default) [] b.flows, stns := Smap.setAll (fun _ => default) [] b.stns
    cans := Smap.setAll (fun _ => default) [] b.cans
    bootId := b.bootId, lseq := b.lseq, wraps := b.wraps }
/-- The units diverge (R433): the standby does not send and mutes. -/
def State.diverge (s : State) (c : Word) : State :=
  let s := (s.set1 R.XL_STAT F.XL_STAT_DIVERGED).incr R.XL_DIG_MIS_CNT
  let s := s.eventU false 0x7002 2 0xF s.partnerId [c]
  let s := { s with xl := { s.xl with matched := 0 } }.setPair 4
  s.when (s.bit R.XL_CFG F.XL_CFG_AUTO_RESYNC) (fun s => s.resyncBegin)
/-- A fault of a unit's own memories or engines (R472): a holder with a matched partner hands over, mutes and resyncs; a
standby mutes and resyncs. -/
def State.pairFault (s : State) : State :=
  if !s.paired then s
  else if s.partnerFit then { s with xl := { s.xl with want := 5 } }
  else if s.pairState = 3 then (s.setPair 4).resyncBegin
  else s

-- the digest

/-- The words of the digest (R432): the snapshot, SQ_SEQ of every lane, and LSEQ of the last entry applied. -/
def State.digestOf (s : State) : Word :=
  let ws := (List.range 65536).map s.snapVal ++ (List.range 16).map (fun l => s.rd (R.SQ_SEQ l)) ++ [s.rd R.XL_LOG_POS]
  Word.ofN (Crc.of 1 (wordBytes ws))
/-- Keep the newest digests. -/
def keepDigest (l : List (Word × Word)) (c d : Word) : List (Word × Word) :=
  ((c, d) :: l.filter (fun e => e.1 ≠ c)).take 64
def digestFor (l : List (Word × Word)) (c : Word) : Option Word := (l.find? (fun e => e.1 = c)).map (fun e => e.2)
/-- The two digests of a cycle are compared (R433, R434). -/
def State.digestJudge (s : State) (c : Word) : State :=
  match digestFor s.xl.digs c, digestFor s.xl.peers c with
  | some own, some peer =>
    if own = peer then
      let s := { s with xl := { s.xl with
        matched := s.xl.matched + 1, shadow := if s.pairState = 6 then s.xl.shadow + 1 else s.xl.shadow } }
      if c = s.seq && s.xl.held then
        -- the moment at which the digest came, and the frames leave, is open within DIG_WAIT (log 1)
        let (w, s) := s.draw
        s.heldSend (w.toNat % (s.fld R.XL_DIG_WAIT F.XL_DIG_WAIT_NS + 1))
      else s
    else match s.pairState with
      | 3 => s.diverge c
      | 6 => (s.incr R.XL_DIG_MIS_CNT).resyncFail 3
      | _ => { s.incr R.XL_DIG_MIS_CNT with xl := { s.xl with matched := 0 } }
  | _, _ => s
/-- A digest of the partner arrives (R433). -/
def State.digestReceive (s : State) (c d : Word) : State :=
  if s.paired && s.computes && !s.xl.unused then
    { s with xl := { s.xl with peers := keepDigest s.xl.peers c d } }.digestJudge c
  else s
/-- This unit's digest of the next cycle is formed and sent (R432). -/
def State.digestSend (s : State) : State :=
  if s.paired && s.computes then
    let d := s.digestOf
    ({ s with xl := { s.xl with digs := keepDigest s.xl.digs (s.seq + 1) d } }.linkSend (.digest (s.seq + 1) d)).digestJudge
      (s.seq + 1)
  else s
/-- The wait for the holder's digest is over (R433): the frames leave. In SHADOW, which sends nothing, the count of matching
cycles starts again (R434, R436). -/
def State.digestExpire (s : State) : State :=
  if s.xl.held then
    { s.missCount with xl := { s.xl with matched := 0, shadow := 0 } }.heldSend (s.fld R.XL_DIG_WAIT F.XL_DIG_WAIT_NS)
  else s

-- the link

/-- The epoch of the checkpoint that this unit could restore (R420, R441). -/
def State.ckptEpochOf (s : State) : Option Nat :=
  if s.boot.warm then match s.boot.use, ckptOk s.boot.bufA, ckptOk s.boot.bufB with
    | some true, _, some b => some b.epoch.toNat
    | some false, some a, _ => some a.epoch.toNat
    | _, _, _ => none
  else none
/-- The HELLO of this unit (R422). -/
def State.ownHello (s : State) : Hello where
  unit := s.unit = 1
  state := s.pairState
  epoch := (s.rd R.XL_EPOCH).toNat
  imgId := s.rd R.HI_IMG
  layout := s.rd R.KA_CKPT_LAYOUT
  ckpt := s.ckptEpochOf
  dies := s.activeDies.length = s.dies
/-- This unit goes first out of SEEK when both units are there (R420): the later checkpoint, or else unit 0. -/
def State.seekFirst (s : State) (h : Hello) : Bool :=
  match s.ckptEpochOf, h.ckpt with
  | some a, some b => if a = b then s.unit = 0 else 0 < (Word.ofN a - Word.ofN b).toInt
  | some _, none => true
  | none, some _ => false
  | none, none => s.unit = 0
/-- A checkpoint that was to be restored is not used, because of the partner (R441); start-up goes on without it. -/
def State.ckptDrop (s : State) : State :=
  match s.boot.use with
  | none => s
  | some _ =>
    let s := { s with boot := { s.boot with use := none } }
    let s := (s.setFld R.KA_RESTART F.KA_RESTART_KIND 2).setFld R.KA_RESTART F.KA_RESTART_NOCKPT 5
    s.when (s.fld R.BT_STAT F.BT_STAT_PHASE = 6) (fun s => s.setFld R.BT_STAT F.BT_STAT_PHASE 4)
/-- The unit takes the lease epoch that another unit names: a change ends every proposal (R493). -/
def State.setEpoch (s : State) (e : Nat) : State :=
  let w := Word.ofN e
  (s.when (s.rd R.XL_EPOCH ≠ w) (fun s => s.propsLapse)).wr R.XL_EPOCH w
/-- A partner is discovered, with which the SHARED trigger lines are calibrated (R349), and a unit in SEEK leaves it (R420). A holder whose partner has entered RESYNC gives it its state
(R436). -/
def State.helloUse (s : State) (h : Hello) : State :=
  let found : Bool := !s.bit R.XL_STATE F.XL_STATE_PEER
  let s := s.set1 R.XL_STATE F.XL_STATE_PEER
  let asks : Bool := s.role = 1 && h.state = 5 && s.partnerState ≠ some 5
  let s := { s with xl := { s.xl with partner := some h, give := s.xl.give || asks } }.when found (fun s => s.tbCalStart)
  let s := s.when (s.role = 2 && h.state = 2) (fun s =>
    (s.setEpoch h.epoch).setB R.XL_STATE F.XL_STATE_HOLDER_ID h.unit)
  if s.pairState ≠ 1 then s
  else if h.state = 2 ∨ h.state = 3 then s.ckptDrop.resyncBegin
  else if h.state = 1 then
    if s.seekFirst h then (s.setEpoch 1).setPair 2
    else s.ckptDrop.resyncBegin
  else s
/-- A HELLO arrives (R422). -/
def State.helloReceive (s : State) (h : Hello) : State :=
  let tag := s.tag 0
  if !s.pairEn then s
  else if !s.boot.up then { s with xl := { s.xl with partner := some h } }
  else if (if h.unit then 1 else 0) = s.unit then
    let s := (s.raiseEdge 2 0xF s.unit R.XL_STAT F.XL_STAT_ID_CONFLICT tag).setFld R.XL_STATE F.XL_STATE_PEER 0
    { s with xl := { s.xl with partner := none, unused := true, conflict := true } }
  else if h.imgId ≠ s.rd R.HI_IMG then
    let s := s.raiseEdge 1 0xF s.partnerId R.XL_STAT F.XL_STAT_INCOMPAT tag
    let s := s.setFld R.XL_STATE F.XL_STATE_PEER 0
    { s with xl := { s.xl with partner := none, unused := true } }.resyncFail 5
  else { s with xl := { s.xl with unused := false, conflict := false } }.helloUse h
/-- A heartbeat arrives on a link that is used (R422, R423, R426). -/
def State.heartbeat (s : State) (off epoch : Nat) : State :=
  if !s.paired || s.xl.unused then s
  else
    let s := (s.wr R.XL_LAST_HB_T (s.tag off))
    let s := { s with xl := { s.xl with hbT := s.now off } }
    if s.role = 1 then s.dualHolder epoch else s.setEpoch epoch
/-- The link goes down (R421); a unit that is not one of a pair ignores it (R419). -/
def State.linkDown (s : State) : State :=
  if s.pairEn && s.bit R.XL_STATE F.XL_STATE_LINK then
    let s := (s.setFld R.XL_STATE F.XL_STATE_LINK 0).setFld R.XL_STATE F.XL_STATE_PEER 0
    let s := s.raise 1 0xF s.partnerId R.XL_STAT F.XL_STAT_LINK_LOST (s.tag 0)
    { s with xl := { s.xl with partner := none, unused := false, conflict := false, give := false } }.resyncFail 1
  else s

-- the log between the units

/-- The copies that stand before an entry are placed as it applies (R429). -/
def State.bulkPlace (s : State) (lseq : Word) : State :=
  let due := s.xl.bulk.filter (fun b => 0 < (lseq - b.1).toInt)
  let s := s.each due (fun s b => s.each b.2.2 (fun s w => if b.2.1 then s.setDword w.1 w.2 else s.wr w.1 w.2))
  { s with xl := { s.xl with bulk := s.xl.bulk.filter (fun b => !due.contains b) } }
/-- A log entry arrives on the link (R429 to R431): a standby keeps it for its cycle, and a copy for the entry that names it;
a holder logs what arose in the standby, with the time of its own (log 1: t0 of the cycle). A logged reception marks the standby's own copy (R416). -/
def State.entryReceive (s : State) (e : LogEntry) : State :=
  if !s.paired || s.xl.unused then s
  else if s.role = 1 then
    if e.fromStandby then s.logAddFrom true (s.tag 0) e.kind else s
  else
    let s := { s with lseq := e.lseq + 1 }
    match e.kind with
    | .close n last => { s with xl := { s.xl with closes := s.xl.closes ++ [(e.cyc, n, last)] } }
    | .canRx p _ f => { s with log := s.log ++ [e] }.canMark p f
    | .copied store ws => { s with xl := { s.xl with bulk := s.xl.bulk ++ [(e.lseq, store, ws)] } }
    | _ => { s with log := s.log ++ [e] }
/-- The holder sends CLOSE of a cycle (R430). -/
def State.closeSend (s : State) (c : Word) : State :=
  if s.role ≠ 1 then s
  else
    let es := s.log.filter (fun e => e.cyc = c)
    let last := match es.getLast? with
      | some e => e.lseq
      | none => s.rd R.XL_LOG_POS
    { s with lseq := s.lseq + 1 }.linkSend (.logEntry ⟨c, s.lseq, false, s.tag 0, .close es.length last⟩)

-- commands

/-- XL_CMD RESYNC and MUTE (R428): accepted, they act at the next cycle boundary. -/
def State.xlAsk (s : State) (mute : Bool) : State :=
  let n := s.pairState
  let lost : Bool := n = 4 && s.fld R.XL_STAT F.XL_STAT_RS_CAUSE = 4
  let ok : Bool := if mute then n = 3 || n = 5 || n = 6 else n = 3 || (n = 4 && !lost)
  if s.paired && ok then
    let s := s.setFld R.XL_CMD F.XL_CMD_CODE (if mute then 4 else 1)
    ({ s with xl := { s.xl with want := if mute then 2 else 1 } }.set1 R.XL_CMD_STAT F.XL_CMD_STAT_BUSY).setFld
      R.XL_CMD_STAT F.XL_CMD_STAT_CAUSE 0
  else s.xlCause 1
/-- What applies at a cycle boundary (R40, R427, R428, R472): 1 RESYNC, 2 MUTE, 3 the lease is given and the unit mutes,
5 so, and it then resyncs. -/
def State.xlBoundary (s : State) : State :=
  let w := s.xl.want
  let s := s.setFld R.XL_CMD F.XL_CMD_CODE 0
  let s := { s with xl := { s.xl with want := 0 } }
  match w with
  | 1 => if s.pairState = 3 ∨ s.pairState = 4 then s.resyncBegin.xlCause 0 else s.xlCause 1
  | 2 =>
    if s.pairState = 3 ∨ s.pairState = 5 ∨ s.pairState = 6 then
      let s := s.setFld R.XL_STAT F.XL_STAT_RS_CAUSE 0
      { s with xl := { s.xl with phase := 9 } }.setPair 4 |>.xlCause 0
    else s.xlCause 1
  | 3 => if s.partnerFit then s.leaseGive 4 else s
  | 5 => if s.partnerFit then (s.leaseGive 4).resyncBegin else s
  | _ => s
/-- A resync whose holder is silent has lost it (R436). -/
def State.resyncWatch (s : State) : State :=
  if (s.pairState = 5 ∨ s.pairState = 6) ∧ s.t0 ≥ s.xl.hbT + s.leaseNs then s.resyncFail 4 else s

/-- What a cyclic frame with ROLE 1 of the other unit shows (R420, R423, R426); `lands` says that it has landed. A unit in SEEK has
no cycle number in common with a holder, and takes any whole frame of another unit (log 263). -/
def State.ringHeard (s : State) (p off : Nat) (home : Bool) (f : RxFrame) (lands : Bool) : State :=
  if !s.paired || home || f.role ≠ 1 then s
  else if s.pairState = 1 then
    if s.bit (R.FP_CFG p) F.FP_CFG_USED && f.fcsOk && s.frameWhole p f then { s with xl := { s.xl with heard := true } } else s
  else if !lands then s
  else if s.role = 1 then s.dualHolder f.epoch
  else if f.unit = s.bit R.XL_STATE F.XL_STATE_HOLDER_ID then { s with xl := { s.xl with ringT := s.now off } }
  else s

-- rows

/-- CYCLIC_FRAME_RECEIVE (R365, R423, R426). -/
def execCyclicFrameReceive (port : PortIx) (off : Nat) (home looped : Bool) (f : RxFrame) (s : State) :
    Host.Outcome State Fault Refusal :=
  .next ((s.frameReceive port off home looped f).ringHeard port off home f (s.frameLands port home f))
/-- HELLO_SEND (R422): not on a link with a conflict of unit IDs, which is not used at all (log 264). -/
def execHelloSend (s : State) : Host.Outcome State Fault Refusal :=
  .next (if s.paired && s.bit R.XL_STATE F.XL_STATE_LINK && !s.xl.conflict then s.emit (.hello s.ownHello) else s)
/-- HELLO (R422). -/
def execHello (h : Hello) (s : State) : Host.Outcome State Fault Refusal := .next (s.helloReceive h)
/-- HEARTBEAT_SEND (R423). -/
def execHeartbeatSend (s : State) : Host.Outcome State Fault Refusal :=
  .next (if s.role = 1 then s.linkSend (.heartbeat (s.rd R.XL_EPOCH).toNat) else s)
/-- HEARTBEAT_RECEIVE (R423, R426). -/
def execHeartbeatReceive (off : Nat) (epoch : Nat) (s : State) : Host.Outcome State Fault Refusal :=
  .next (s.heartbeat off epoch)
/-- TAKEOVER (R423, R424): at t0, a STANDBY after silence of both paths. -/
def execTakeover (s : State) : Host.Outcome State Fault Refusal :=
  .next (if s.paired && s.pairState = 3 && s.holderSilent then s.takeover else s)
/-- HANDOVER (R427). -/
def execHandover (s : State) : Host.Outcome State Fault Refusal :=
  .next (if s.paired then s.handover.1 else s.xlCause 1)
/-- TAKE (R427). -/
def execTake (s : State) : Host.Outcome State Fault Refusal := .next s.take.1
/-- RESYNC (R428). -/
def execResync (s : State) : Host.Outcome State Fault Refusal := .next (s.xlAsk false)
/-- MUTE (R428). -/
def execMute (s : State) : Host.Outcome State Fault Refusal := .next (s.xlAsk true)
/-- DIGEST_RECEIVE (R433). -/
def execDigestReceive (cyc : Word) (d : Word) (s : State) : Host.Outcome State Fault Refusal :=
  .next (s.digestReceive cyc d)
/-- DIG_WAIT_EXPIRY (R433). -/
def execDigWaitExpiry (s : State) : Host.Outcome State Fault Refusal := .next s.digestExpire
/-- LOG_ENTRY_RECEIVE (R429). -/
def execLogEntryReceive (e : LogEntry) (s : State) : Host.Outcome State Fault Refusal := .next (s.entryReceive e)
/-- OLFOAZ_LINK_DOWN (R421). -/
def execOlfoazLinkDown (s : State) : Host.Outcome State Fault Refusal := .next s.linkDown
/-- LANE_DEG (R421). -/
def execLaneDeg (s : State) : Host.Outcome State Fault Refusal :=
  .next (s.when s.pairEn (fun s => s.raiseEdge 1 0xF s.partnerId R.XL_STATE F.XL_STATE_LANE_DEG (s.tag 0)))
/-- OLFOAZ_LINK_UP (R421): both lanes deliver. -/
def execOlfoazLinkUp (s : State) : Host.Outcome State Fault Refusal :=
  .next (s.when s.pairEn (fun s => (s.set1 R.XL_STATE F.XL_STATE_LINK).setFld R.XL_STATE F.XL_STATE_LANE_DEG 0))
/-- SEEK_TIMEOUT (R420): a unit that sees a holder's frames, or has seen some, stays in SEEK. -/
def execSeekTimeout (seen : Bool) (s : State) : Host.Outcome State Fault Refusal :=
  .next (if s.paired && s.pairState = 1 && !seen && !s.xl.heard then
    { (s.setEpoch 1).setPair 2 with xl := { ((s.setEpoch 1).setPair 2).xl with alone := true } } else s)
/-- BULK_DONE (R436). -/
def execBulkDone (journal : Nat) (b : Bulk) (s : State) : Host.Outcome State Fault Refusal :=
  .next (if s.pairState = 5 ∧ s.xl.phase = 1 ∧ s.xl.unused = false then
      if journal > 134217728 then s.resyncFail 2
      else { s.bulkLoad b with xl := { s.xl with phase := 2 } }.linkSend (.resync 2)
    else s)
/-- CATCH_UP_DONE (R436): the unit's loops run from now on, and its start-up, which the resync continues, ends (R511). -/
def execCatchUpDone (b : Bulk) (s : State) : Host.Outcome State Fault Refusal :=
  .next (if s.pairState = 5 ∧ s.xl.phase = 2 ∧ s.xl.unused = false then
      let s := { s.bulkLoad b with
        xl := { s.xl with phase := 3, shadow := 0, shadowT := s.t0 }, boot := { s.boot with loops := true } }.linkSend (.resync 3)
      ((s.setFld R.BT_STAT F.BT_STAT_PHASE 7).setFld R.CV_CTL F.CV_CTL_MODE 0).setPair 6
    else s)
/-- SHADOW_DONE (R436): after 64 matching cycles and 100 ms; `ms` is how long the resync has taken. -/
def execShadowDone (ms : Nat) (s : State) : Host.Outcome State Fault Refusal :=
  .next (if s.pairState = 6 ∧ s.xl.shadow ≥ 64 ∧ s.t0 ≥ s.xl.shadowT + 100000000 then
      let s := s.setFld R.XL_RESYNC_MS F.XL_RESYNC_MS_MS ms
      let s := { s with xl := { s.xl with phase := 0, matched := s.xl.shadow } }.setPair 3
      s.eventU false 0x7004 0 0xF s.partnerId [0, Word.ofN ms]
    else s)
/-- RESYNC_RETRY (R436): 1 s after a failed resync, unless the holder was lost. -/
def execResyncRetry (s : State) : Host.Outcome State Fault Refusal :=
  let c := s.fld R.XL_STAT F.XL_STAT_RS_CAUSE
  .next (if s.paired && s.pairState = 4 && c ≠ 0 && c ≠ 4 then s.resyncBegin else s)
/-- CLOSE_ENTRY_SEND (R430). -/
def execCloseEntrySend (cyc : Word) (s : State) : Host.Outcome State Fault Refusal := .next (s.closeSend cyc)

end Sys2Proof.Machine
end

