-- ==== Sys2Proof/Machine/Boot.lean ====
section
/-!
DEFINITION. Start-up (R503 to R516), warm restart (R440 to R444), reload (R244), and loss and return of supply.
-/
namespace Sys2Proof.Machine

-- records of the management core

/-- An IMAGE record (R489): the bank; the step and, where it is not known, the SVN are open (log 1). -/
def State.imageEvent (s : State) (cls : Nat) (b : Bank) (svn : Nat) : State :=
  let (step, s) := s.draw
  s.eventP false 0xD006 cls 0xD 0 (if b = .bankB then 1 else 0) step (Word.ofN svn)

-- the directory

/-- The fields of word 2 of a directory copy (R506). -/
def dirActive : Fld := ⟨0, 1⟩
def dirTrial : Fld := ⟨1, 1⟩
def dirTries : Fld := ⟨2, 4⟩
def dirBank (b : Bank) : Fld := if b = .bankB then ⟨9, 3⟩ else ⟨6, 3⟩
def bankNum : Bank → Nat
  | .bankA => 0
  | .bankB => 1
def bankOf (n : Nat) : Bank := if n = 1 then .bankB else .bankA
def otherBank (b : Bank) : Bank := if b = .bankB then .bankA else .bankB
/-- A valid copy (R506). -/
def dirOk (c : DirCopy) : Bool := c.crcOk && c.magic = 0x4C5A4452
/-- The copy in force (R506): true for copy 1; none without a valid one. -/
def dirPick (c0 c1 : DirCopy) : Option Bool :=
  match dirOk c0, dirOk c1 with
  | true, true => some (decide (0 < (c1.seq - c0.seq).toInt))
  | true, false => some false
  | false, true => some true
  | false, false => none
def State.dir (s : State) : DirCopy := if s.boot.cur then s.boot.dir1 else s.boot.dir0
def State.dirGet (s : State) (f : Fld) : Nat := f.get s.dir.ctl
/-- BT_DIR and LF_BANK show the copy in force (R502, R516). -/
def State.dirShow (s : State) : State :=
  let s := s.wr R.BT_DIR s.dir.seq
  (s.setFld R.LF_BANK F.LF_BANK_A (s.dirGet (dirBank .bankA))).setFld R.LF_BANK F.LF_BANK_B (s.dirGet (dirBank .bankB))
/-- The other copy is written with SEQ + 1 (R506). -/
def State.dirWrite (s : State) (ctl : Word) : State :=
  let c : DirCopy := ⟨0x4C5A4452, s.dir.seq + 1, ctl, true⟩
  let n := !s.boot.cur
  let s := { s with boot := if n then { s.boot with dir1 := c, cur := n } else { s.boot with dir0 := c, cur := n } }
  (s.emit (.bootWrite 1 (if n then .bankB else .bankA) 0 64)).dirShow
def State.bankState (s : State) (b : Bank) : Nat := s.dirGet (dirBank b)
/-- A bank takes a state (R496). -/
def State.setBank (s : State) (b : Bank) (st : Nat) : State := s.dirWrite ((dirBank b).put s.dir.ctl st)
/-- A bank becomes ACTIVE, and a bank that was becomes ACCEPTED (R496, R497); TRIAL as given, with no tries. -/
def State.bankActive (s : State) (b : Bank) (trial : Bool) : State :=
  let o := dirBank (otherBank b)
  let w := (dirBank b).put s.dir.ctl 4
  let w := if s.bankState (otherBank b) = 4 then o.put w 3 else w
  let w := dirTries.put (dirTrial.put (dirActive.put w (bankNum b)) (if trial then 1 else 0)) 0
  s.dirWrite w

-- banks

def State.bootsel (s : State) : Nat := s.fld R.BT_STAT F.BT_STAT_BOOTSEL
def State.phase (s : State) : Nat := s.fld R.BT_STAT F.BT_STAT_PHASE
def State.setPhase (s : State) (n : Nat) : State := s.setFld R.BT_STAT F.BT_STAT_PHASE n
def State.bootBank (s : State) : Bank := bankOf (s.fld R.BT_STAT F.BT_STAT_BANK)
def State.bankHdr (s : State) (b : Bank) : Header := if b = .bankB then s.boot.hdrB else s.boot.hdrA
/-- No pair drives its gate outputs (R273, R314, R515, R524). -/
def State.gatesOff (s : State) : State :=
  s.each (s.usedUnits 192 R.PW_CFG) (fun s p =>
    s.setPairX p { s.pairX p with hi := false, lo := false, wait := none, start := none })
/-- HALT (R515): no image runs, the gate outputs are inactive, and the CAN ports are OFF (log 278). -/
def State.halt (s : State) (cause : Nat) : State :=
  let s := s.gatesOff.each (List.range 16) (fun s p => (s.setFld (R.CF_MODE p) F.CF_MODE_EFF 0).canUnoffer p)
  let s := (s.setPhase 15).when (cause ≠ 0) (fun s => s.setFld R.BT_STAT F.BT_STAT_CAUSE cause)
  { s with boot := { s.boot with up := false } }
/-- The header checks in order (R510); 0 when they pass. -/
def State.headerCause (s : State) (b : Bank) : Nat :=
  let h := s.bankHdr b
  if h.magic ≠ 0x4C5A4248 then 2
  else if h.format ≠ 1 ∨ h.secsOk = false then 3
  else if h.part = 0x4096 ∧ s.lz2048 = true then 4
  else if h.osigOk = false ∨ h.vsigOk = false then 5
  else if h.svn < s.fld R.LF_SVN F.LF_SVN_COUNTER then 6
  else 0
/-- A bank fails (R514): the causes are noted. -/
def State.bankNote (s : State) (b : Bank) (cause sec : Nat) : State :=
  let s := (s.setFld R.BT_STAT F.BT_STAT_CAUSE cause).setFld R.BT_FAIL F.BT_FAIL_SECTION sec
  let s := s.setFld R.BT_FAIL (if b = .bankB then F.BT_FAIL_CAUSE_B else F.BT_FAIL_CAUSE_A) cause
  { s with boot := { s.boot with failed := s.boot.failed ||| 2 ^ bankNum b } }
/-- The other bank may boot (R514): AUTO, untried, and ACCEPTED or ACTIVE, or there is no directory. -/
def State.bankOther (s : State) (b : Bank) : Bool :=
  let o := otherBank b
  s.bootsel = 0 && !s.boot.failed.testBit (bankNum o) && (s.bankState o ≥ 3 || !dirOk s.dir)
/-- A bank's header has passed: its sections are awaited (R511). -/
def State.bankLoad (s : State) (b : Bank) : State :=
  let s := s.setFld R.BT_STAT F.BT_STAT_BANK (bankNum b)
  (s.setB R.BT_STAT F.BT_STAT_TRIAL (s.dirGet dirTrial = 1 && s.dirGet dirActive = (bankNum b))).setPhase 2
/-- Try a bank, and then the other one (R514). -/
def State.bankTry (fuel : Nat) (s : State) (b : Bank) : State :=
  let c := s.headerCause b
  if c = 0 then s.bankLoad b
  else
    let s := s.bankNote b c 0
    match fuel with
    | 0 => (s.imageEvent 4 b (s.bankHdr b).svn).halt c
    | fuel + 1 =>
      if s.bankOther b then
        ((s.imageEvent 1 b (s.bankHdr b).svn).set1 R.BT_STAT F.BT_STAT_FALLBACK).bankTry fuel (otherBank b)
      else (s.imageEvent 4 b (s.bankHdr b).svn).halt c
/-- A bank has failed after its header (R514). -/
def State.bankFail (s : State) (b : Bank) (cause sec : Nat) : State :=
  let s := s.bankNote b cause sec
  if s.bankOther b then
    ((s.imageEvent 1 b (s.bankHdr b).svn).set1 R.BT_STAT F.BT_STAT_FALLBACK).bankTry 0 (otherBank b)
  else (s.imageEvent 4 b (s.bankHdr b).svn).halt cause
/-- A trial bank that has failed (R507): the other bank is ACTIVE, and the failed one must be accepted again. -/
def State.trialFail (s : State) (b : Bank) : State :=
  let w := (dirBank (otherBank b)).put ((dirBank b).put s.dir.ctl 2) 4
  let s := s.dirWrite (dirTries.put (dirTrial.put (dirActive.put w (bankNum (otherBank b))) 0) 0)
  let s := s.imageEvent 1 b (s.bankHdr b).svn
  { s with boot := { s.boot with failed := s.boot.failed ||| 2 ^ bankNum b } }
/-- The directory and the straps choose a bank (R504, R507, R514). -/
def State.bankChoose (s : State) : State :=
  let a := bankOf (s.dirGet dirActive)
  if s.bootsel = 3 then s.halt 12
  else if !dirOk s.dir then
    let s := (s.setFld R.BT_STAT F.BT_STAT_CAUSE 1).imageEvent 1 .bankA 0
    s.bankTry 1 (if s.bootsel = 2 then .bankB else .bankA)
  else
    let trial : Bool := s.dirGet dirTrial = 1
    if trial && s.dirGet dirTries ≥ 2 && s.bootsel = 0 then (s.trialFail a).bankTry 1 (otherBank a)
    else
      let s := s.when trial (fun s => s.dirWrite (dirTries.put s.dir.ctl (min 15 (s.dirGet dirTries + 1))))
      s.bankTry 1 (match s.bootsel with
        | 1 => .bankA
        | 2 => .bankB
        | _ => a)

-- what a reset keeps

/-- Words of BAR0 that a cold reset keeps: OTP, backup domain and RTC (R444, R447, R490, R502). -/
def coldKeeps (a : Nat) : Bool :=
  a = R.LF_SVN || a = R.LF_STATE || a = R.KA_CKPT_STAT || a = R.KA_CKPT_EPOCH || a = R.KA_RESTART ||
    a = R.KA_OUTAGE_MS || (R.EV_HEAD_SEQ ≤ a && a < R.EV_WIN_BASE) || (R.TM_RTC_SEC_LO ≤ a && a ≤ R.TM_RTC_STAT) ||
    a = R.HI_FW
/-- Words that a warm reset keeps besides (R12, R180, R240, R454): sticky registers, the link's count since cold reset, force
table, action journal. -/
def warmKeeps (a : Nat) : Bool :=
  coldKeeps a || a = R.HI_LINK || a = R.XL_TKO_CNT || a = R.MG_RESET_CNT || (0x50000 ≤ a && a < 0x60000) ||
    (0x10000 ≤ a && a < 0x20000 && a % 0x1000 = 0x3C) || a = R.KA_RESTART
/-- The device right after reset release, with the words that a test keeps and the identification of its variant (R18,
R454). -/
def State.resetKeep (s : State) (keep : Nat → Bool) : State :=
  let t : State := { State.reset with
    pending := s.pending, out := s.out, fresh := s.fresh, lz2048 := s.lz2048, hostDown := s.hostDown, bootId := s.bootId
    evStage := s.evStage, evNvm := s.evNvm, evLost := s.evLost, opNs := s.opNs, pcyc := s.pcyc
    tm := { (default : TimeX) with rtc := s.tm.rtc }
    mg := { (default : MgX) with
      creds := s.mg.creds, owner := s.mg.owner, nonceN := s.mg.nonceN, banks := s.mg.banks, resets := s.mg.resets }
    boot := { (default : BootX) with
      dir0 := s.boot.dir0, dir1 := s.boot.dir1, cur := s.boot.cur, hdrA := s.boot.hdrA, hdrB := s.boot.hdrB,
      bufA := s.boot.bufA, bufB := s.boot.bufB, autos := s.boot.autos } }
  let t := s.io.foldl (fun (t : State) (e : Nat × Word) => if keep e.1 then t.wr e.1 e.2 else t) t
  let t := t.when s.lz2048 (fun t => ((t.wr R.HI_ID 0x2048).wr R.HI_CAP 0x82).wr R.HI_DIE_STATE 0xAF)
  ((t.wr R.KA_CKPT_STAT 0).setB R.KA_CKPT_STAT F.KA_CKPT_STAT_ACTIVE
      (s.bit R.KA_CKPT_STAT F.KA_CKPT_STAT_ACTIVE)).ckptShow.wr R.LF_STATE (Word.ofN (s.fld R.LF_STATE F.LF_STATE_STATE))
/-- The straps and the boot memory (R418, R504, R505): the density in MiB, and the clock that the ROM has set (log 1). -/
def State.straps (s : State) (bootsel : Nat) (unit : Bool) (density : Nat) : State :=
  let s := (s.setB R.XL_CFG F.XL_CFG_UNIT unit).setFld R.BT_STAT F.BT_STAT_BOOTSEL bootsel
  let (f, s) := s.draw
  let s := s.setFld R.BT_MEM F.BT_MEM_DENSITY (match density with | 128 => 1 | 256 => 2 | _ => 0)
  (s.setFld R.BT_MEM F.BT_MEM_FREQ (f.toNat % 201)).setPhase 1
/-- The directory as the ROM reads it. -/
def State.dirRead (s : State) (d0 d1 : DirCopy) : State :=
  { s with boot := { s.boot with dir0 := d0, dir1 := d1, cur := (dirPick d0 d1).getD false } }.dirShow
/-- KA_RESTART after a start (R447). -/
def State.restartNote (s : State) (kind cause nockpt : Nat) : State :=
  let s := ((s.setFld R.KA_RESTART F.KA_RESTART_KIND kind).setFld R.KA_RESTART F.KA_RESTART_CAUSE cause).setFld
    R.KA_RESTART F.KA_RESTART_NOCKPT nockpt
  let s := s.when (kind ≠ 0) (fun s =>
    s.setFld R.KA_RESTART F.KA_RESTART_COUNT (s.fld R.KA_RESTART F.KA_RESTART_COUNT + 1))
  s.eventU false 0xD008 0 0xD 0 [s.rd R.KA_RESTART]
/-- A cold start up to the header checks (R503 to R507, R511): the force table and the journal are cleared. -/
def State.coldStart (s : State) (bootsel : Nat) (unit : Bool) (density : Nat) (d0 d1 : DirCopy) (ha hb : Header)
    (nockpt : Nat) : State :=
  let s := (s.resetKeep coldKeeps).straps bootsel unit density
  let s := { s with boot := { s.boot with hdrA := ha, hdrB := hb } }.restartNote 0 0 nockpt
  if density ≠ 64 ∧ density ≠ 128 ∧ density ≠ 256 then (s.imageEvent 4 .bankA 0).halt 11
  else (s.dirRead d0 d1).bankChoose

-- loading an image

/-- What the image declares. -/
def imgDecl (i : Image) : ImgDecl where
  loaded := true
  io := i.io
  law := i.law
  decls := i.decls
  retain := i.retain
  owners := i.owners
  chambers := i.chambers
  latch := i.latch
  locals := i.locals
  canRx := i.canRx
  canTx := i.canTx
  macs := i.macs
/-- The bits that an image loads at an offset of BAR0 (R13, R509): the IMG fields of a register, and the hedgerow and fallow
tables and a region's locals, constants and nodes whole. -/
def imgMask (a : Nat) : Word :=
  let o := a % 0x100000
  match Reg.row a with
  | some r => Word.ofN r.img
  | none =>
    if (0x90000 ≤ a ∧ a < 0xA8000) ∨ (0xB0000 ≤ a ∧ a < 0xB4000) ∨ (0xC0000 ≤ a ∧ a < 0xFE000) ∨
      (0x1000000 ≤ a ∧ a < 0x2000000 ∧ (0x48000 ≤ o ∧ o < 0x58000 ∨ 0xC0000 ≤ o ∧ o < 0xE0000)) then 0xFFFFFFFF
    else 0
/-- A word as an image loads it: bits outside the mask keep what stands there, so that reserved fields read as 0. -/
def State.imgWord (s : State) (a : Nat) (v : Word) : State :=
  s.wr a ((s.rd a &&& ~~~ imgMask a) ||| (v &&& imgMask a))
/-- The words, laws, specifications, declarations and recipes of an image (R509). The unit ID stays the strap's, and
streams wait for the DRAM (R513). -/
def State.imagePut (s : State) (i : Image) : State :=
  let u := s.unit
  let s := s.each i.io (fun s e => s.imgWord e.1 e.2)
  let s := ((s.setFld R.XL_CFG F.XL_CFG_UNIT u).wr R.KA_CKPT_LAYOUT i.layout).wr R.HI_IMG i.id
  let m := s.fld R.RS_CTRL F.RS_CTRL_ENABLE
  let s := s.setFld R.RS_CTRL F.RS_CTRL_ENABLE 0
  let s := { s with
    img := imgDecl i
    lawMem := Smap.setAll (fun _ => (0 : Word)) s.lawMem i.law
    specs := Smap.setAll (fun _ => (0 : Word)) s.specs i.specs
    dram := Smap.setAll (fun _ => (0 : Byte)) s.dram i.recipes
    boot := { s.boot with streams := m } }
  { s with img := { s.img with owners := s.fullOwners } }
/-- Validate every recipe of the store (R146, R511): one that fails stays not VALID, with a WARN (R514). -/
def State.recipesCheck (s : State) : State :=
  s.each ((List.range 256).filter (fun n => s.rcpSteps n ≠ 0)) (fun s n =>
    let s := s.rcpUse n false
    let c := s.rcpCheck n
    (s.rcpSetBit n 0 (c = 0)).when (c ≠ 0) (fun s => s.imageEvent 1 s.bootBank (s.bankHdr s.bootBank).svn))
/-- The STEPPER axes with the pairs that they drive (R261). -/
def State.stepperPairs (s : State) : List (Nat × Nat) :=
  ((s.usedAxes.filter s.axStepper).map (fun a => (s.axPairs a).map (fun p => (p, a)))).flatten
/-- A PWM pair as it is loaded (R282, R287, R288, R512): predictions at DT_MAX, ownership, and the fallow pattern, which a
region that is held keeps (R480). -/
def State.pairLoad (s : State) (st : List (Nat × Nat)) (p : Nat) : State :=
  let s := s.pwDtMax p
  let owner := match st.find? (fun e => e.1 = p) with
    | some e => s.fld (R.AX_CFG e.2) F.AX_CFG_OWNER
    | none => s.fld (R.PW_CFG p) F.PW_CFG_OWNER
  let s := s.setB (R.PW_STAT p) F.PW_STAT_STEPPER (st.any (fun e => e.1 = p))
  let s := s.when (st.any (fun e => e.1 = p)) (fun s => s.setFld (R.PW_CFG p) F.PW_CFG_MODE 3)
  let s := (s.setB (R.PW_STAT p) F.PW_STAT_NOT_OWNER (s.pairEn && owner ≠ s.unit)).pwShow p
  s.when (s.regionHeld (p / 12)) (fun s => s.pwForce p 3)
/-- A STEPPER axis as it is loaded (R266, R268): whether this unit drives the pins. -/
def State.stepLoad (s : State) (a : Nat) : State :=
  s.when (s.axStepper a) (fun s =>
    s.setB (R.AX_ST_STAT a) F.AX_ST_STAT_ACTIVE (!s.pairEn || s.fld (R.AX_CFG a) F.AX_CFG_OWNER = s.unit))
/-- The pairs with their steppers, or those of a region. -/
def State.pairsLoad (s : State) : State :=
  let st := s.stepperPairs
  (s.each s.usedAxes (fun s a => s.stepLoad a)).each (s.usedUnits 192 R.PW_CFG) (fun s p => s.pairLoad st p)
def State.pairsLoadOf (s : State) (r : Nat) : State :=
  let st := s.stepperPairs
  (s.each (s.usedAxes.filter (fun a => a / 8 = r)) (fun s a => s.stepLoad a)).each
    ((s.usedUnits 192 R.PW_CFG).filter (fun p => p / 12 = r)) (fun s p => s.pairLoad st p)
/-- The group clocks of the channels in use are within limits until the monitor flags one (R297, R300). -/
def State.clocksGood (s : State) (rs : List Nat) : State :=
  s.each ((s.usedUnits 192 R.SD_CFG).filter (fun ch => rs.contains (ch / 12))) (fun s ch =>
    s.when (!s.bit (R.SD_GRP_STAT (ch / 4)) F.SD_GRP_STAT_CLK_FAULT) (fun s =>
      s.set1 (R.SD_GRP_STAT (ch / 4)) F.SD_GRP_STAT_CLK_OK))
/-- The controller is stopped from the start, with cause KEY (R511, R512): nothing runs that a stop would end, and the words
of tasks and lanes are fallow until their owners write them, whatever forces are kept (R239). -/
def State.stopLoad (s : State) : State :=
  let s := ((s.setFld R.TK_CTL F.TK_CTL_MODE 0).set1 R.TK_CTL F.TK_CTL_STOPPED).stopCause 0
  let s := s.each s.usedSlots (fun s k =>
    if s.bit (R.LE_CFG k) F.LE_CFG_INDEP then s else (s.setFld (R.LE_STAT k) ⟨9, 1⟩ 1).setFld (R.LE_MODE k) F.LE_MODE_EFF 4)
  let s := s.each s.usedLanes (fun s l => s.setLaneX l { s.laneX l with conds := 2 })
  let words := s.stopWords
  { s.each s.usedAxes (fun s a => s.axSetCause a 2) with stopFallow := words, closeFallow := words }
/-- The output words at the loading of the image: the word fallow values (R512, R534). -/
def State.outsLoad (s : State) : State :=
  let ws := s.io.filterMap (fun e => if 0xC0000 ≤ e.1 ∧ e.1 < 0x100000 ∧ e.2 ≠ 0 then some ((e.1 - 0xC0000) / 4) else none)
  let m : List (Nat × Word) := ws.foldl (fun m w => Smap.set (fun _ => (0 : Word)) m w (s.wordFallow w)) []
  { s with outMaster := [], outCopy := m, snap := m, closeVal := m, closeFallow := [], closeRew := [], stopFallow := [] }
/-- A control die that does not report ACTIVE is fenced, for a reason of its own, with an IMAGE record (R514, log 1). -/
def State.diesStart (s : State) (active : Nat) : State :=
  s.each (List.range s.dies) (fun s d =>
    if active.testBit d then s.setDie d 0
    else
      let (w, s) := s.draw
      (s.dieFence d (1 + w.toNat % 7) 0).imageEvent 3 s.bootBank (s.bankHdr s.bootBank).svn)
/-- The first t0 not before a time: the next whole multiple of T (R511). -/
def State.nextT0 (s : State) (t : Nat) : Nat := (t + s.period - 1) / s.period * s.period
/-- A BOOT_ID, which differs from the previous one (R358): the next value where it would not. -/
def otherThan (old new : Nat) : Nat := if new = old then (new + 1) % 65536 else new
/-- Step 5 (R511): units are loaded, dies and time base start, and in a pair the unit seeks its partner (R420). -/
def State.unitsStart (s : State) (active ms : Nat) : State :=
  let s := ((s.outsLoad.pairsLoad).clocksGood (List.range 16)).stopLoad
  let s := s.each (List.range 4) (fun s g => s.canPresc g (s.rd (R.CF_PRESC (4 * g))))
  let s := { s with
    t0 := s.rtcSeed
    bootId := otherThan s.bootId (Config.bootId s.fresh).toNat, fresh := s.fresh + 1
    boot := { s.boot with seed := s.rtcSeed, ms := ms, first := 0 } }
  let s := ((s.setFld R.TM_STATE F.TM_STATE_STATE 0).set1 R.TM_STATE F.TM_STATE_STEPPED).diesStart active
  let s := (s.hgEval s.t0).canUpdateAll (s.tag 0)
  let s := { s with boot := { s.boot with up := true } }
  let s := if s.pairEn then ((s.setFld R.XL_STATE F.XL_STATE_STATE 1).ringsRole).pinsHold
    else s.setFld R.XL_STATE F.XL_STATE_STATE 0
  let s := s.when s.boot.dram (fun s => s.streamsStart s.t0)
  match s.xl.partner with
  | some h => s.helloReceive h
  | none => s
/-- The first section that fails, with its cause (R510). -/
def secFail (i : Nat) : List SecCheck → Option (Nat × Nat)
  | [] => none
  | c :: t => if c.crcOk = false ∧ c.rereadOk = false then some (i, 7)
      else if c.digestOk = false then some (i, 8) else secFail (i + 1) t
/-- Section re-reads that passed (R510, R514): counted, with an INFO. -/
def State.secRetries (s : State) (secs : List SecCheck) : State :=
  s.each (secs.filter (fun c => !c.crcOk && c.rereadOk)) (fun s _ =>
    (s.incr R.BT_RETRY).eventU false 1 0 0xD 0 [Word.ofN R.BT_RETRY])
/-- Steps 4 and 5 (R511): the sections are checked, the image is checked and loaded, and the dies start. -/
def State.sectionsDone (s : State) (secs : List SecCheck) (img : Image) (active ms : Nat) : State :=
  if s.phase ≠ 2 ∨ s.boot.trained = false then s
  else
    let s := s.secRetries secs
    match secFail 0 secs with
    | some (i, c) => s.bankFail s.bootBank c i
    | none =>
      let t := s.imagePut img
      if !t.imageOk img then s.bankFail s.bootBank 9 0
      else (((t.setFld R.BT_T_LOAD F.BT_T_LOAD_MS (min ms 65535)).setPhase 3).recipesCheck.unitsStart active ms).setPhase 4

-- steps 6 to 9

/-- Step 6 ends (R511): the loops may start. -/
def State.ringsEnd (s : State) : State := s.setPhase 5
/-- Step 6 ends at a landing cut-off at which every configured station is ACTIVE. -/
def State.ringsCut (s : State) : State :=
  if s.phase = 4 ∧ s.role ≠ 2 ∧ s.usedStns.all (fun k => s.stnState k = 3) = true then s.ringsEnd else s
/-- BT_RING_WAIT has passed (R511, R514): a station that is not ACTIVE raises a WARN, with an IMAGE record. -/
def State.ringsExpire (s : State) : State :=
  if s.phase = 4 ∧ s.role ≠ 2 then
    (s.each (s.usedStns.filter (fun k => s.stnState k ≠ 3)) (fun s k =>
      (s.eventU false 1 1 0xA k [Word.ofN (R.FP_S_STAT k)]).imageEvent 1 s.bootBank (s.bankHdr s.bootBank).svn)).ringsEnd
  else s
/-- Step 7 (R511): at a Phase L gate every slot takes its mode request and starts sampling. -/
def State.loopsStart (s : State) : State :=
  if s.phase = 5 ∧ s.boot.loops = false then
    let s := { s with boot := { s.boot with loops := true } }
    s.each s.usedSlots (fun s k => s.slotMode k (s.fld (R.LE_MODE k) F.LE_MODE_REQ) (s.tag 0))
  else s
/-- The engines whose START_ARM the image sets are armed at the end of start-up, once the DRAM is initialised (R349,
R513). -/
def State.startArm (s : State) : State :=
  if s.phase = 7 ∧ s.boot.dram = true then
    s.each ((List.range 16).filter (fun r => s.bit (R.CE_CFG r) F.CE_CFG_START_ARM)) (fun s r => s.ceArm r)
  else s
/-- Step 9 (R511): at t0 the debounced key code becomes the package mode, TRIAL is cleared, and the check-value unit leaves
CHANNELS. After a restore the restored mode stands until a key code is stable. -/
def State.modeEntry (s : State) : State :=
  if s.phase = 5 ∧ s.boot.loops = true ∧ s.role ≠ 2 then
    let s := s.when s.boot.keyed (fun s => s.keyApply (s.fld R.TK_KEY F.TK_KEY_KEY))
    let s := s.when (s.dirGet dirTrial = 1) (fun s => s.dirWrite (dirTries.put (dirTrial.put s.dir.ctl 0) 0))
    let s := s.setFld R.BT_T_RUN F.BT_T_RUN_MS (min 65535 (s.boot.ms + (s.t0 - s.boot.seed) / 1000000))
    ((s.setFld R.CV_CTL F.CV_CTL_MODE 0).setPhase 7).startArm
  else s

-- warm restart

/-- A warm reset is decided (R440): the device runs no further cycle, its gate outputs are undriven, and the warm reset
release follows. -/
def State.warmBegin (s : State) (cause : Nat) (nockpt : Bool) : State :=
  { s.gatesOff.set1 R.KA_CMD_STAT F.KA_CMD_STAT_BUSY with
    boot := { s.boot with restart := some (cause, nockpt), up := false } }.emit (.reset 1)
/-- KA_CMD WARM and WARM_NOCKPT (R440): in PROGRAM and REMOTE, and while stopped with cause FATAL. -/
def State.warmCommand (s : State) (nockpt : Bool) : State :=
  let a := R.KA_CMD_STAT
  if !s.boot.up || s.bit a F.KA_CMD_STAT_BUSY then s
  else if s.mode = 1 ∨ s.mode = 2 ∨ (s.stopped = true ∧ (s.fld R.TK_CTL F.TK_CTL_CAUSE).testBit 2 = true) then
    ((s.setFld a F.KA_CMD_STAT_CAUSE 0).setFld R.KA_CMD F.KA_CMD_CODE (if nockpt then 2 else 1)).warmBegin 2 nockpt
  else s.setFld a F.KA_CMD_STAT_CAUSE 1
/-- Warm restarts in the last hour (R440). -/
def State.warmsInHour (s : State) : List Nat := s.boot.autos.filter (fun t => s.opNs < t + 3600000000000)
/-- An automatic restart is due (R440). -/
def State.autoRestart (s : State) : Bool :=
  s.bit R.KA_CFG F.KA_CFG_AUTO_RESTART && (s.fld R.TK_CTL F.TK_CTL_CAUSE).testBit 2 &&
    s.warmsInHour.length < s.fld R.KA_CFG F.KA_CFG_RESTART_MAX
/-- Why no checkpoint is used, or which buffer is (R441): causes 1 NO_BUFFER, 2 CRC, 3 LAYOUT, 6 COMMAND, 7 RESTORES. -/
def State.ckptChoice (s : State) (layout : Word) (nockpt : Bool) : Nat ⊕ Bool :=
  if nockpt then .inl 6
  else match s.ckptLatest with
    | none => .inl (if s.boot.bufA.isSome || s.boot.bufB.isSome then 2 else 1)
    | some (b, c) => if c.layout ≠ layout then .inl 3 else if c.restores ≥ 64 then .inl 7 else .inr b
/-- The device with nothing but what the backup domain, fuses and boot memory hold (R180, R240, R439): among it the force
table and the journal of each lane. -/
def State.backupKeep (s : State) : State :=
  let t := { s.resetKeep warmKeeps with
    lanes := s.lanes.map (fun (e : Nat × LaneX) => (e.1, { (default : LaneX) with jStep := e.2.jStep, jRun := e.2.jRun })) }
  t.setFld R.TK_FRC_STAT F.TK_FRC_STAT_COUNT t.forces.length
/-- What survives a warm reset: the DRAM besides (R442), the delay lines with their maps (R290), and the regions held after a
failed BIST (R480, log 277). -/
def State.warmKeep (s : State) : State :=
  let t := s.backupKeep.setFld R.CV_BIST_STAT F.CV_BIST_STAT_FAIL (s.fld R.CV_BIST_STAT F.CV_BIST_STAT_FAIL)
  { t with
    dram := s.dram, dls := s.dls
    boot := { t.boot with
      trained := true, dram := s.boot.dram, warm := true, autos := s.opNs :: s.warmsInHour
      undrained := some ((match s.ckptLatest with
        | some (_, c) => c.t0
        | none => 0), s.streams.map (fun e => (e.1, e.2.blocks.length))) } }
/-- A warm reset release (R442): the bank is chosen, the image loaded, and the checkpoint is awaited if one is used. -/
def State.warmStart (s : State) (img : Image) (cause : Nat) (nockpt : Bool) : State :=
  let barred := s.mg.barred
  let unit : Bool := s.unit = 1
  let sel := s.bootsel
  let mem := s.rd R.BT_MEM
  let s := s.warmKeep
  let s := ((s.setB R.XL_CFG F.XL_CFG_UNIT unit).setFld R.BT_STAT F.BT_STAT_BOOTSEL sel).wr R.BT_MEM mem
  if barred then { s with mg := { s.mg with barred := true } }.halt 0
  else
    let s := s.dirShow.bankChoose
    if s.phase = 15 then s
    else
      let choice := s.ckptChoice img.layout nockpt
      let s := match choice with
        | .inl c => s.restartNote 2 cause c
        | .inr _ => s.restartNote 1 cause 0
      let t := s.imagePut img
      if !t.imageOk img then s.bankFail s.bootBank 9 0
      else
        let t := t.recipesCheck.unitsStart 15 0
        match choice with
        | .inr b => { t with boot := { t.boot with use := some b } }.setPhase 6
        | .inl _ => t.setPhase 4
/-- A lane that runs after a restore uses its recipe (R145). -/
def State.lanesUse (s : State) : State :=
  s.each s.usedLanes (fun s l => s.when (s.laneState l ≠ 0 && s.laneState l ≠ 5) (fun s => s.rcpUse (s.laneRecipe l) true))
/-- The mode and causes that a restore brings (R438): FATAL and RELOAD have ended with the restart (R236). A stop that was in
effect at the epoch stands, or ends at the next t0; the stop of start-up ends there, and at once where another is to begin at
that t0. Only in a stop do output words keep a fallow value that R239 puts first (R534). -/
def State.modeRestore (s : State) : State :=
  let was := s.stopped
  let s := (s.stopEnds 2).stopEnds 4
  let on : Bool := s.fld R.TK_CTL F.TK_CTL_CAUSE ≠ 0
  let s := { s with stopFallow := if was && on then s.stopFallow else [] }
  if was || !on then s.set1 R.TK_CTL F.TK_CTL_STOPPED else s.stopOver
/-- The restore completes (R442), after SEEK (R441): the checkpoint is in every unit, and cycle h = e + 2^24 × RESTORES is
next. It is not used with a partner that is HOLDER or STANDBY. A unit that left SEEK alone keeps lease epoch 1 (R420). -/
def State.restoreDone (s : State) : State :=
  match s.phase, s.boot.use with
  | 6, some b =>
    if s.pairEn && s.pairState = 1 then s
    else if s.pairEn && s.partnerThere then s.ckptDrop
    else match ckptOk (if b then s.boot.bufB else s.boot.bufA) with
    | none => { s with boot := { s.boot with use := none } }.setPhase 4
    | some c =>
      let c := { c with restores := c.restores + 1 }
      let s := { s with boot := if b then { s.boot with bufB := some c } else { s.boot with bufA := some c } }
      let first := 2 ^ 32 * c.wraps + c.epoch.toNat + 2 ^ 24 * c.restores
      let lease := s.rd R.XL_EPOCH
      let s := (s.ckptRestore c (Word.ofN first)).modeRestore.lanesUse
      let s := s.when s.xl.alone (fun s => s.wr R.XL_EPOCH lease)
      let s := { s with boot := { s.boot with use := none, first := first, loops := true, quiet := true } }
      (s.setFld R.CV_CTL F.CV_CTL_MODE 0).setPhase 5
  | _, _ => s

-- reload, supply

/-- A force names a reference that an image does not declare with the same type (R244). -/
def State.forceForeign (s : State) (img : Image) : Bool :=
  s.forces.any (fun e => match Smap.find img.decls e.2, Smap.find s.img.decls e.2 with
    | some t, some u => t ≠ u
    | _, _ => true)
/-- At the cycle boundary at which a reload stops the controller, a restart without checkpoint runs its bank (R42, R244,
R497). -/
def State.reloadGo (s : State) : State :=
  match s.boot.reload with
  | some b => ({ s with boot := { s.boot with reload := none } }.bankActive b false).warmBegin 4 true
  | none => s
/-- RELOAD (R244, R497): the controller stops with cause RELOAD at the next cycle boundary, or at once where no cycle
runs. -/
def State.reload (s : State) (b : Bank) (img : Image) (partner : Bool) : State :=
  let f := F.TK_CTL_RLD_CAUSE
  if s.mode ≠ 1 then s.setFld R.TK_CTL f 1
  else if s.bankState b < 3 ∨ (s.role = 1 ∧ partner = false) then s.setFld R.TK_CTL f 2
  else if s.forceForeign img then s.setFld R.TK_CTL f 3
  else
    let s := (s.setFld R.TK_CTL f 0).stopCause 4
    let s := { s with boot := { s.boot with reload := some b } }
    if s.boot.up && s.boot.started then s else s.stopApply.reloadGo
/-- Power returns after an outage (R444): the RTC has run, and a warm restart needs CKPT_RETAIN, RTC_VALID and a buffer. -/
def State.powerUp (s : State) (outage bootsel : Nat) (unit : Bool) (density : Nat) (d0 d1 : DirCopy) (ha hb : Header)
    (img : Image) : State :=
  let s := { s with pcyc := s.pcyc + 1 }.rtcRun (outage * 1000000)
  let s := s.wr R.KA_OUTAGE_MS (Word.ofN outage)
  let cfg : Word := Smap.get (fun _ => (0 : Word)) img.io R.KA_CFG
  let keep : Bool := F.KA_CFG_CKPT_RETAIN.get cfg = 1 && s.bit R.TM_RTC_STAT F.TM_RTC_STAT_RTC_VALID
  match keep, s.ckptChoice img.layout false with
  | true, .inr _ =>
    let s := { s with dram := [], mg := { s.mg with barred := false } }.straps bootsel unit density
    let s := { s with boot := { s.boot with hdrA := ha, hdrB := hb, dram := false } }.dirRead d0 d1
    s.warmStart img 0 false
  | true, .inl c => s.coldStart bootsel unit density d0 d1 ha hb c
  | false, _ => s.coldStart bootsel unit density d0 d1 ha hb 4

-- rows

/-- COLD_RESET (R503). -/
def execColdReset (bootsel : BitVec 2) (unit : Bool) (density : Nat) (dir0 dir1 : DirCopy) (hdrA hdrB : Header)
    (s : State) : Host.Outcome State Fault Refusal :=
  .next (s.coldStart bootsel.toNat unit density dir0 dir1 hdrA hdrB 0)
/-- DRAM_TRAINED (R513, R514). -/
def execDramTrained (ok : Bool) (s : State) : Host.Outcome State Fault Refusal :=
  .next (if s.phase ≠ 2 then s
    else if ok then { s with boot := { s.boot with trained := true } }
    else (s.imageEvent 4 s.bootBank (s.bankHdr s.bootBank).svn).halt 10)
/-- SECTIONS_CHECKED (R510, R511). -/
def execSectionsChecked (secs : List SecCheck) (img : Image) (active : BitVec 4) (ms : Nat) (s : State) :
    Host.Outcome State Fault Refusal :=
  .next (s.sectionsDone secs img active.toNat ms)
/-- RING_WAIT_EXPIRY (R511, R513). -/
def execRingWaitExpiry (s : State) : Host.Outcome State Fault Refusal := .next s.ringsExpire
/-- DRAM_INIT_DONE (R513): streams and capture windows may start. -/
def execDramInitDone (s : State) : Host.Outcome State Fault Refusal :=
  .next (if s.boot.dram then s
    else
      let s := { s with boot := { s.boot with dram := true } }
      (s.when s.boot.up (fun s => s.streamsStart s.t0)).startArm)
/-- WARM (R440). -/
def execWarm (s : State) : Host.Outcome State Fault Refusal := .next (s.warmCommand false)
/-- WARM_NOCKPT (R440). -/
def execWarmNockpt (s : State) : Host.Outcome State Fault Refusal := .next (s.warmCommand true)
/-- WARM_RESTART (R442): the release of a warm reset that has been decided. -/
def execWarmRestart (img : Image) (s : State) : Host.Outcome State Fault Refusal :=
  .next (match s.boot.restart with
    | some (c, n) => s.warmStart img c n
    | none => s)
/-- RESTORE_DONE (R442). -/
def execRestoreDone (s : State) : Host.Outcome State Fault Refusal := .next s.restoreDone
/-- RELOAD (R244). -/
def execReload (bank : Bank) (img : Image) (partner : Bool) (s : State) : Host.Outcome State Fault Refusal :=
  .next (s.reload bank img partner)
/-- POWER_UP (R444). -/
def execPowerUp (outage : Nat) (bootsel : BitVec 2) (unit : Bool) (density : Nat) (dir0 dir1 : DirCopy)
    (hdrA hdrB : Header) (img : Image) (s : State) : Host.Outcome State Fault Refusal :=
  .next (s.powerUp outage bootsel.toNat unit density dir0 dir1 hdrA hdrB img)
/-- POWER_LOSS (R444): nothing runs on main supply; the backup domain and the RTC keep what they hold. -/
def execPowerLoss (s : State) : Host.Outcome State Fault Refusal :=
  .next { s.backupKeep with hostDown := true }
/-- VBAT_LOSS (R394, R522): the RTC and the backup SRAM are lost. -/
def execVbatLoss (s : State) : Host.Outcome State Fault Refusal :=
  let s := s.setFld R.TM_RTC_STAT F.TM_RTC_STAT_RTC_VALID 0
  .next { s with boot := { s.boot with bufA := none, bufB := none, copying := none } }.ckptShow

end Sys2Proof.Machine
end

