-- ==== Sys2Proof/Machine/LoopCmd.lean ====
section
/-!
DEFINITION. Commands to slots and clusters: modes, TP fields, law memory, clears, re-engagement and the swatch
(R104, R110, R115 to R117, R130, R133, R134, R140).
-/
namespace Sys2Proof.Machine

/-- The slot that a word of a cluster's law memory belongs to (R95). -/
def lawSlot (c waddr : Nat) : Nat := c * 32 + waddr / 128

/-- Apply a logged law write (R117): the status of R451, and the state. Each check that fails shows in its own bit. -/
def State.lawWrite (s : State) (c waddr : Nat) (v : Word) : State × Nat :=
  let k := lawSlot c waddr
  let eff := s.fld (R.LE_MODE k) F.LE_MODE_EFF
  let mode : Bool := s.mode ≠ 1 || (eff ≠ 0 && eff ≠ 1)
  let bad : Bool := waddr % 16 < 12 && !F32.finite v
  let t := (s.when mode (fun s => s.set1 (R.LC_STAT c) F.LC_STAT_LAW_DENIED)).when bad (fun s =>
    s.set1 (R.LC_STAT c) F.LC_STAT_LAW_NONFINITE)
  (t.when (!mode && !bad) (fun s => s.setLawKey (4096 * c + waddr) v), if mode then 1 else 0)
/-- A law write reaches the device (R117): an access that is not the read of a latched word drops the latch. -/
def State.lawTouch (s : State) (c : Nat) : State := s.setClusterX c { s.clusterX c with latch := none }

/-- The advance of WORD after a data access (R117). -/
def State.lawAdvance (s : State) (c : Nat) : State :=
  let a := R.LC_LAW_ADDR c
  s.when (s.bit a F.LC_LAW_ADDR_AUTOINC) (fun s =>
    s.setFld a F.LC_LAW_ADDR_WORD (s.fld a F.LC_LAW_ADDR_WORD + 1))

/-- A read of LC_LAW_DATA (R117): the word, shown in the data register, with the latch of words 13 to 15. -/
def State.lawRead (s : State) (c : Nat) : State :=
  let w := s.fld (R.LC_LAW_ADDR c) F.LC_LAW_ADDR_WORD
  let x := s.clusterX c
  let mem (i : Nat) : Word := Smap.get (fun _ => 0) s.lawMem (4096 * c + i)
  let latched := match x.latch with
    | some (g, a, b, d) => if g = w / 16 ∧ w % 16 = 13 then some a else if g = w / 16 ∧ w % 16 = 14 then some b
        else if g = w / 16 ∧ w % 16 = 15 then some d else none
    | none => none
  let s := match latched with
    | some v => s.wr (R.LC_LAW_DATA c) v
    | none =>
      let s := s.wr (R.LC_LAW_DATA c) (mem w)
      s.setClusterX c { x with
        latch := if w % 16 = 12 then some (w / 16, mem (w + 1), mem (w + 2), mem (w + 3)) else none }
  s.lawAdvance c

/-- End a slot fault (R110); a cluster that its sentinel holds keeps it (R474). -/
def State.clrSlotFault (s : State) (k : Nat) : State :=
  if s.bit (R.LC_SEN_STAT (k / 32)) F.LC_SEN_STAT_HELD then s
  else
    let s := s.modeKeep k
    (s.setSlotX k { s.slotX k with fault := false }).clrFcause k 3

/-- The slot field behind a register of the slot block (R114, R132). -/
def slotRegField (k a : Nat) : Option Nat :=
  if a = R.LE_MODE k then some 4 else (List.range 32).find? (fun f => slotFieldReg k f = some a)
/-- Why a host write to a slot block is refused (R114, R116, R233): in RUN only the W1C status bits and CLR_MAX are open,
and a field with a writer in the image is not the host's. Of two refusals the mode's shows (DESIGN CHOICE, log 246). -/
def State.slotHostWhy (s : State) (k a : Nat) (v m : Word) : Nat :=
  let clears : Bool := a = R.LE_STAT k || a = R.LE_STG_FLAG k || a = R.LE_SUP_STAT k ||
    (a = R.LE_CMD k && F.LE_CMD_CLR_FAULT.get (v &&& m) = 0)
  if s.mode = 3 && !clears then 1
  else match slotRegField k a with
    | some f => if (Smap.find s.img.owners (Ref.slotField k f)).isSome then 2 else 0
    | none => 0
/-- The ranges of FE_TIME, FB_FREEZE_N and FB_AGE_MAX (R132). -/
def slotRangeOk (k a : Nat) (v : Word) : Bool :=
  if a = R.LE_FE_TIME k then F.LE_FE_TIME_SAMPLES.get v ≥ 1
  else if a = R.LE_FRZ_N k then F.LE_FRZ_N_SAMPLES.get v ≥ 2
  else F.LE_FB_AGE_MAX.get v ≤ 254
/-- A host write to a slot block applies (R104, R110, R114 to R116, R130, R132). -/
def State.slotHost (s : State) (k a : Nat) (v m tag : Word) : State :=
  if a = R.LE_MODE k then s.slotMode k (F.LE_MODE_REQ.get (s.regValue a v m)) tag
  else if a = R.LE_CMD k then
    let c := v &&& m
    ((s.wr a 0).when (F.LE_CMD_CLR_FAULT.get c = 1) (fun s => s.clrSlotFault k)).when (F.LE_CMD_CLR_MAX.get c = 1) (fun s =>
      s.wr (R.LE_MAX_DELAY k) 0)
  else if a = R.LE_SUP_CMD k then s.writeSlotPlain k 31 (v &&& m) tag
  else if a = R.LE_STAT k ∨ a = R.LE_SUP_STAT k then s.regWrite a v m
  else if a = R.LE_FE_TIME k ∨ a = R.LE_FRZ_N k ∨ a = R.LE_FB_AGE k then
    if slotRangeOk k a (s.regValue a v m) then s.regWrite a v m else s.slotWarn k a tag
  else match slotRegField k a with
    | some f => s.writeSlotPlain k f (s.regValue a v m) tag
    | none => s.regWrite a v m
/-- A host write reaches a slot at t0 of its assigned cycle: a local slot takes it at its first release after that t0,
until which LE_CMD shows its command (R12, R116). A slot that is not USED is never released and takes it at t0 (DESIGN
CHOICE, log 212). -/
def State.slotHostAt (s : State) (k a : Nat) (v m tag : Word) : State :=
  if s.bit (R.LE_CFG k) F.LE_CFG_TIMING || !s.bit (R.LE_CFG k) F.LE_CFG_USED then s.slotHost k a v m tag
  else (s.setSlotX k { s.slotX k with host := (s.slotX k).host ++ [(a, v, m, s.seq)] }).when (a = R.LE_CMD k) (fun s =>
    s.wr a (s.rd a ||| (v &&& m &&& 3)))
/-- The host writes that wait for a release apply: those of this cycle only at a release after its t0 (R116). -/
def State.slotHostRun (s : State) (k off : Nat) (tag : Word) : State :=
  let x := s.slotX k
  let due (w : Nat × Word × Word × Word) : Bool := w.2.2.2 ≠ s.seq || off ≠ 0
  (s.setSlotX k { x with host := x.host.filter (fun w => !due w) }).each (x.host.filter due) (fun s w =>
    s.slotHost k w.1 w.2.1 w.2.2.1 tag)
/-- A host command to a slot register, as its log entry applies it (R116), or its refusal (R3, R451). -/
def State.slotOrder (s : State) (k a : Nat) (v m : Word) : State :=
  s.regionRow (k / 256) a (fun s => match s.slotHostWhy k a v m with
    | 0 => s.slotHostAt k a v m (s.tag 0)
    | c => s.werr false a c)

/-- Parameter checks of a swatch start (R134). A NaN or an infinite bound is compared as F32.toDy gives it (DESIGN CHOICE,
log 213); ORDER is checked for TYPE PRBS, which alone uses it (DESIGN CHOICE, log 247). -/
def State.swatchBad (s : State) (c : Nat) : Bool :=
  let amp := s.rd (R.LC_SW_AMP c)
  let typ := s.fld (R.LC_SW_CFG c) F.LC_SW_CFG_TYPE
  let ord := s.fld (R.LC_SW_CFG c) F.LC_SW_CFG_ORDER
  let p := s.slotPeriod (c * 32 + s.fld (R.LC_SW_CTRL c) F.LC_SW_CTRL_SLOT)
  let badF (w : Word) : Bool :=
    !F32.finite w || F32.negative w || Dy.lt (Dy.ofInt 1000000000) ((F32.toDy w).mul (Dy.ofInt (2 * p)))
  !F32.finite amp || F32.sign amp || F32.isZero amp ||
    Dy.lt (F32.toDy (s.rd (R.LC_SW_OUT_HI c))) (F32.toDy (s.rd (R.LC_SW_OUT_LO c))) ||
    s.fld (R.LC_SW_LEN c) F.LC_SW_LEN_SAMPLES = 0 ||
    (typ = 2 && (ord < 7 || ord > 15)) ||
    badF (s.rd (R.LC_SW_F0 c)) || badF (s.rd (R.LC_SW_F1 c)) ||
    ((typ = 1 || typ = 2) && s.fld (R.LC_SW_HOLD c) F.LC_SW_HOLD_SAMPLES = 0)

/-- The refusal of a swatch start (R133), 0 for none, in the order of the causes (DESIGN CHOICE, log 214). A region whose
memory port is fenced has no window to give (R30). -/
def State.swatchRefuse (s : State) (c : Nat) : Nat :=
  let k := c * 32 + s.fld (R.LC_SW_CTRL c) F.LC_SW_CTRL_SLOT
  let st := s.fld (R.LC_SW_STAT c) F.LC_SW_STAT_STATE
  let eff := s.fld (R.LE_MODE k) F.LE_MODE_EFF
  if s.mode ≠ 1 ∧ s.mode ≠ 2 then 1
  else if 1 ≤ st ∧ st ≤ 3 then 2
  else if s.swatchBad c then 3
  else if s.slotRuns k = false ∨ s.supAny k = true ∨ (s.slotX k).fault = true ∨
      (s.bit (R.LC_SW_CFG c) F.LC_SW_CFG_POINT = false ∧ eff ≠ 2) ∨
      (s.bit (R.LC_SW_CFG c) F.LC_SW_CFG_POINT = true ∧ eff ≠ 2 ∧ eff ≠ 1) then 4
  else if s.bit (R.CE_STAT (c / 8)) F.CE_STAT_FENCED = true ∨ (s.poolAsk (c / 8) (s.fld (R.LC_SW_PRE c) F.LC_SW_PRE_SAMPLES)
      (s.swatchLen c + s.fld (R.LC_SW_POST c) F.LC_SW_POST_SAMPLES) 16).isNone = true then 13
  else 0

/-- The window that a swatch reserves (R139, R335, R343). -/
def State.swatchWindow (s : State) (c k : Nat) : Option Win :=
  let pre := s.fld (R.LC_SW_PRE c) F.LC_SW_PRE_SAMPLES
  let post := s.swatchLen c + s.fld (R.LC_SW_POST c) F.LC_SW_POST_SAMPLES
  (s.poolAsk (c / 8) pre post 16).map (fun a =>
    ⟨0, 0x1000 + k, true, 24 + s.fld (R.LC_SW_CFG c) F.LC_SW_CFG_RING, [0, 1, 2], s.slotPeriod k, pre, post, a.1, a.2,
      none, false, 0, [], 0, false⟩)

/-- Start a swatch (R133 to R135), on the slot that LC_SW_CTRL names. A refused start leaves the swatch IDLE, and a
running swatch running. -/
def State.swatchStart (s : State) (c : Nat) : State :=
  let k := c * 32 + s.fld (R.LC_SW_CTRL c) F.LC_SW_CTRL_SLOT
  let cause := s.swatchRefuse c
  let st := s.fld (R.LC_SW_STAT c) F.LC_SW_STAT_STATE
  let s := s.setFld (R.LC_SW_STAT c) F.LC_SW_STAT_CAUSE cause
  if cause ≠ 0 then (if 1 ≤ st ∧ st ≤ 3 then s else s.setFld (R.LC_SW_STAT c) F.LC_SW_STAT_STATE 0)
  else
    let n := s.fld (R.LC_SW_CFG c) F.LC_SW_CFG_ORDER
    let seed := s.fld (R.LC_SW_SEED c) F.LC_SW_SEED_SEED % 2 ^ n
    let x := s.clusterX c
    let s := s.setClusterX c { x with
      lfsr := if seed = 0 then 2 ^ n - 1 else seed
      phase := 0
      win := s.swatchWindow c k
      mode0 := s.fld (R.LE_MODE k) F.LE_MODE_EFF
      law0 := s.lawSig k
      slot := k % 32
      start := s.t0
      due := 0
      cnt := 0 }
    let s := match (s.clusterX c).win with
      | some w => s.poolTake (c / 8) w.resv
      | none => s
    let s := (s.setFld (R.LC_SW_STAT c) F.LC_SW_STAT_STATE 1).setFld (R.LC_SW_CNT c) F.LC_SW_CNT_SAMPLES 0
    s.set1 (R.LE_SUP_STAT k) F.LE_SUP_STAT_SWATCH

/-- Abort a swatch by command (R140). -/
def State.swatchAbort (s : State) (c : Nat) : State :=
  let st := s.fld (R.LC_SW_STAT c) F.LC_SW_STAT_STATE
  if 1 ≤ st ∧ st ≤ 3 then s.swatchEnd c 5 5 else s

/-- The aborts that this t0 brings are applied after the starts (R140). -/
def State.swatchAborts (s : State) : State :=
  s.each ((s.clusters.filter (fun e => e.2.abort)).map Prod.fst) (fun s c =>
    (s.setClusterX c { s.clusterX c with abort := false }).swatchAbort c)
/-- Swatch registers (R133, R140, R141). -/
def State.busSwatch (s : State) (c a : Nat) (v m : Word) (tag : Word) : State × Nat :=
  let st := s.fld (R.LC_SW_STAT c) F.LC_SW_STAT_STATE
  if a = R.LC_SW_CTRL c then
    let x := regCmd a v m
    let s := s.regWrite a v m
    let go : Bool := F.LC_SW_CTRL_START.get x = 1
    ((s.when go (fun s => s.swatchStart c)).when (F.LC_SW_CTRL_ABORT.get x = 1) (fun s =>
      s.setClusterX c { s.clusterX c with abort := true }), if go && !(s.mode = 1 || s.mode = 2) then 1 else 0)
  else if 1 ≤ st ∧ st ≤ 3 then (s.statusEvent 1 2 c a 0 tag, 0)
  else (s.regWrite a v m, 0)

-- the releases of a local slot

/-- The next computed release time that has had no release, from a candidate on (R79). -/
def relFree (rels : List (Nat × Nat)) (p t : Nat) : Nat :=
  rels.foldl (fun t _ => match rels.find? (fun i => i.1 ≤ t && t ≤ i.2) with
    | some i => i.2 + p
    | none => t) t
/-- The timer of a local slot matches at a time that has had no release (R77, R79). The members of a cascade have one period,
and the timer of its head releases them together (R97; the phases of the others are not used, DESIGN CHOICE, log 243). -/
def State.relDue (s : State) (k t : Nat) : Bool :=
  let h := s.jobHead k
  let p := (s.rd (R.LE_PERIOD h)).toNat
  s.slotRuns k && !s.bit (R.LE_CFG k) F.LE_CFG_TIMING && p ≠ 0 &&
    (t + p - s.fld (R.LE_PHASE h) F.LE_PHASE_NS % p) % p = 0 && (s.slotX k).rels.all (fun i => t < i.1 || i.2 < t)
/-- Release a local slot `off` ns after t0: host writes that wait apply first (R77, R79, R116). -/
def State.localRelease (s : State) (k off : Nat) : State :=
  let t := s.now off
  let p := (s.rd (R.LE_PERIOD k)).toNat
  let s := s.slotHostRun k off (tagOf t)
  let rels := relNote (s.slotX k).rels p t
  (s.setSlotX k { s.slotX k with rels := rels }).slotRelease k t (relFree rels p (t + p))
/-- The first release time of a local slot at or after a time (R77, R79). -/
def State.relFrom (s : State) (k t : Nat) : Nat :=
  let p := (s.rd (R.LE_PERIOD k)).toNat
  let ph := s.fld (R.LE_PHASE (s.jobHead k)) F.LE_PHASE_NS % p
  relFree (s.slotX k).rels p (t + (p - (t + p - ph) % p) % p)
/-- A step d of the time base at a t0 moves the releases: the deadlines of local samples become the new next releases, and
those of field-synchronous samples move with the gates (R79). The ages of filter outputs are elapsed time and do not step
(R122). -/
def State.slotsStep (s : State) (old new : Nat) : State :=
  let mv (t : Nat) : Nat := t + new - old
  let s := s.each (s.slots.map Prod.fst) (fun s k =>
    let x := s.slotX k
    let loc := !s.bit (R.LE_CFG k) F.LE_CFG_TIMING
    s.setSlotX k { x with ready := x.ready.map (fun r => { r with
      rel := mv r.rel, deadline := if loc && old ≤ r.deadline then s.relFrom k new else mv r.deadline }) })
  { s with
    clusters := s.clusters.map (fun (e : Nat × ClusterX) => (e.1, { e.2 with
      free := mv e.2.free, start := mv e.2.start, run := e.2.run.map (fun j => (j.1, mv j.2)) }))
    sdis := s.sdis.map (fun (e : Nat × SdiX) => (e.1, { e.2 with tMain := mv e.2.tMain, tFast := mv e.2.tFast })) }

/-- LOCAL_SLOT_RELEASE (R77, R79, R97, R116): a configured local slot of a running die whose timer matches, with the other
members of its cascade. -/
def execLocalSlotRelease (k : SlotIx) (off : Nat) (s : State) : Host.Outcome State Fault Refusal :=
  .next (s.when (s.relDue k (s.now off)) (fun s =>
    s.each ((s.jobSlots (s.jobHead k)).filter (fun j => s.relDue j (s.now off))) (fun s j => s.localRelease j off)))

/-- MODE_REQUEST (R104, R116): a write to LE_MODE.REQ. -/
def execModeRequest (k : SlotIx) (code : BitVec 3) (s : State) : Host.Outcome State Fault Refusal :=
  .next (s.slotOrder k (R.LE_MODE k) (Word.ofN code.toNat) 7)
/-- TP_WRITE (R115, R116): a write to LE_TPn. -/
def execTpWrite (k : SlotIx) (n : Fin 8) (v : Word) (s : State) : Host.Outcome State Fault Refusal :=
  .next (s.slotOrder k (R.LE_TP k n) v 0xFFFFFFFF)
/-- LAW_DATA_WRITE (R117): a refusal for the mode is also recorded under R451. -/
def execLawDataWrite (c : ClusterIx) (waddr : Fin 4096) (v : Word) (s : State) :
    Host.Outcome State Fault Refusal :=
  .next (s.regionRow (c.val / 8) (R.LC_LAW_DATA c) (fun s =>
    let (s, st) := s.lawWrite c waddr v
    s.werrIf (R.LC_LAW_DATA c) st))
/-- LAW_ADDR_WRITE (R117): the address is not law memory, and the latch of words 13 to 15 stands through its write (DEDUCED,
log 245). -/
def execLawAddrWrite (c : ClusterIx) (v : Word) (s : State) : Host.Outcome State Fault Refusal :=
  .next (s.regionRow (c.val / 8) (R.LC_LAW_ADDR c) (fun s => s.wr (R.LC_LAW_ADDR c) (v &&& 0x80003FFC)))
/-- LAW_STATE_READ (R117); a read of a cluster that the variant lacks has no effect (R3). -/
def execLawStateRead (c : ClusterIx) (s : State) : Host.Outcome State Fault Refusal :=
  .next (s.when (!s.lacks (c.val / 8)) (fun s => s.lawRead c))
/-- CLR_FAULT (R110, R116), which RUN does not permit (R233). -/
def execClrFault (k : SlotIx) (s : State) : Host.Outcome State Fault Refusal :=
  .next (s.slotOrder k (R.LE_CMD k) 1 1)
/-- CLR_MAX (R116). -/
def execClrMax (k : SlotIx) (s : State) : Host.Outcome State Fault Refusal :=
  .next (s.slotOrder k (R.LE_CMD k) 2 2)
/-- REENGAGE (R116, R130): the command stands until the slot's next sample. -/
def execReengage (k : SlotIx) (s : State) : Host.Outcome State Fault Refusal :=
  .next (s.slotOrder k (R.LE_SUP_CMD k) 1 1)
/-- SWATCH_START (R133) on a slot of the cluster; a refusal for the mode is also recorded under R451. -/
def execSwatchStart (c : ClusterIx) (slot : Fin 32) (s : State) : Host.Outcome State Fault Refusal :=
  .next (s.regionRow (c.val / 8) (R.LC_SW_CTRL c) (fun s =>
    let (t, st) := s.busSwatch c (R.LC_SW_CTRL c) (Word.ofN (32 + slot.val)) 0x3F (s.tag 0)
    t.werrIf (R.LC_SW_CTRL c) st))
/-- SWATCH_ABORT (R140). -/
def execSwatchAbort (c : ClusterIx) (s : State) : Host.Outcome State Fault Refusal :=
  .next (s.regionRow (c.val / 8) (R.LC_SW_CTRL c) (fun s => s.swatchAbort c))

end Sys2Proof.Machine
end

