-- ==== Sys2Proof/Machine/Integ.lean ====
section
/-!
DEFINITION. Data integrity, the check-value unit, the running self-tests and the BIST (R468 to R481), and the check of the
net image (R209, R210).
-/
namespace Sys2Proof.Machine

-- memory errors

/-- The memory of a location, with the codes of CV_LAST_ERR.MEM (R481), and its region in the die. -/
def memOf : MemLoc → Nat × Nat
  | .slot k => (k.val / 1024, k.val / 256 % 4)
  | .nodeStore r _ => (r.val / 4, r.val % 4)
  | .dieTables d => (d.val, 0)
  | .regionState r => (r.val / 4, r.val % 4)
  | .capture r => (r.val / 4, r.val % 4)
  | .hubControl => (4, 0)
  | .hubRing _ => (4, 0)
  | .hubStaging => (4, 0)
  | .ckpt _ => (5, 0)
  | .backup => (5, 0)
  | .recipe _ _ => (6, 0)
  | .config => (6, 0)
  | .journal => (6, 0)
  | .bulk _ _ => (6, 0)
/-- The class of an uncorrectable error (R470): 1 WARN, 2 FAULT, 3 CRITICAL, 4 FATAL. -/
def memClass : MemLoc → Nat
  | .slot _ => 2
  | .nodeStore _ _ => 4
  | .dieTables _ => 3
  | .regionState _ => 4
  | .capture _ => 1
  | .hubControl => 4
  | .hubRing _ => 1
  | .hubStaging => 1
  | .ckpt _ => 1
  | .backup => 4
  | .recipe _ _ => 2
  | .config => 1
  | .journal => 1
  | .bulk _ _ => 1
/-- The unit that a memory's records name: its die, or the hub die for what hangs on it (log 61). -/
def memDie (mem : Nat) : Nat := min mem 4
/-- A correctable error (R470): counted, and recorded at most once per second and memory. -/
def State.memCorrected (s : State) (mem off : Nat) : State :=
  if mem < 4 ∧ s.dieRuns mem = false then s
  else
  let s := s.incr (if mem = 6 then R.CV_DRAM_CE_CNT else R.CV_SRAM_CE_CNT)
  let now := s.opNs + off
  let (n, last) : Nat × Option Nat := match s.integ.mems.find? (fun e => e.1 = mem) with
    | some e => e.2
    | none => (0, none)
  let due : Bool := match last with
    | some t => decide (t + 1000000000 ≤ now)
    | none => true
  let e : Nat × Nat × Option Nat := if due then (mem, 0, some now) else (mem, n + 1, last)
  let s := { s with integ := { s.integ with mems := e :: s.integ.mems.filter (fun f => f.1 ≠ mem) } }
  s.when due (fun s =>
    s.eventP false 0x5003 0 4 (memDie mem) (s.rd R.CV_LAST_ERR) (Word.ofN (n + 1)) (Word.ofN (n + 1)))
/-- An uncorrectable word is counted, its location held, and MEM_ERROR recorded (R470, R489). -/
def State.memNote (s : State) (loc : MemLoc) (waddr : Word) : State :=
  let (mem, reg) := memOf loc
  let s := s.incr (if mem = 6 then R.CV_DRAM_UE_CNT else R.CV_SRAM_UE_CNT)
  let s := (s.setFld R.CV_LAST_ERR F.CV_LAST_ERR_MEM mem).setFld R.CV_LAST_ERR F.CV_LAST_ERR_REGION reg
  (s.wr R.CV_LAST_ADDR waddr).eventU false 0x5003 (memClass loc) 4 (memDie mem) [s.rd R.CV_LAST_ERR, waddr]
/-- An error in the capture staging of a region (R345, R470): its window closes as TRUNCATED. -/
def State.captureLost (s : State) (r : Nat) : State :=
  match (s.ceX r).win with
  | none => s
  | some w =>
    let s := s.set1 (R.CE_STAT r) F.CE_STAT_TRUNC
    if w.trig.isSome then s.ceClose r 1 (w.post - (w.rows.length - w.preAct)) (s.tag 0) else s.ceDrop r 1
/-- An error in the descriptor cache of a ring (R470): the descriptor at its head is written back with BAD_DESC. -/
def State.ringSpoiled (s : State) (k : Nat) : State :=
  let x := s.hringX k
  let back (d : Desc) (s : State) : State :=
    (((s.set1 (R.HI_RING_STAT k) F.HI_RING_STAT_DESC_ERR).emit (.ring k (s.fld (R.HI_RING_HEAD k) F.HI_RING_HEAD_INDEX) 0 d.tag true [5])).ringAdvance k).ringIrq k d.irq
  match x.posted, x.wait with
  | d :: rest, _ => back d (s.setHringX k { x with posted := rest })
  | [], d :: rest => back d (s.setHringX k { x with wait := rest })
  | [], [] => s
/-- An error in the record staging (R470): the block is discarded into a GAP of cause RATE. It is the oldest open block
(log 61). -/
def State.blockSpoiled (s : State) : State :=
  match s.opens with
  | [] => s
  | (key, b) :: _ => { s with opens := Smap.erase s.opens key }.set1 R.RS_STAT F.RS_STAT_RATE |>.gapWrite b.stream 2 1 b.t s.t0 s.t0
/-- An error in a checkpoint buffer (R470): it is no longer valid. -/
def State.ckptSpoiled (s : State) (b : Bool) : State :=
  if b then { s with boot := { s.boot with bufB := none } }.ckptShow
  else { s with boot := { s.boot with bufA := none } }.ckptShow
/-- An error on a fetch of a lane's recipe (R470): the abort path, or DONE with ABORTED; VALID is cleared once the lane is
DONE. -/
def State.laneSpoiled (s : State) (l : Nat) (abortEntry : Bool) : State :=
  let st := s.laneState l
  if st ≠ 1 ∧ st ≠ 2 ∧ st ≠ 3 then s
  else
    let s := s.setLaneX l { s.laneX l with bad := true }
    if abortEntry then s.laneFinish l true else if st = 3 ∨ s.laneInAbort l then s.laneFinish l true else s.laneAbortCmd l
/-- The outcome of an uncorrectable word (R470). -/
def State.memOutcome (s : State) (loc : MemLoc) (waddr : Word) (tag : Word) : State :=
  match loc with
  | .slot k => (s.set1 (R.LE_STAT k) F.LE_STAT_RES_FAULT).slotFault k 3 tag
  | .nodeStore _ _ => s.stopCause 2
  | .dieTables d => s.dieFence d 5 0
  | .regionState _ => s.stopCause 2
  | .capture r => s.captureLost r
  | .hubControl => s.stopCause 2
  | .hubRing k => s.ringSpoiled k
  | .hubStaging => s.blockSpoiled
  | .ckpt b => s.ckptSpoiled b
  | .backup => s.stopCause 2
  | .recipe l a => s.laneSpoiled l a
  | .config =>
    -- the management core reloads the affected 64 KiB
    s.emit (.bootWrite 8 .bankA waddr.toNat 65536)
  | .journal => s.resyncFail 2
  | .bulk k off => s.setHringX k { s.hringX k with ue := some off }
/-- An uncorrectable word (R470 to R472); the reports of a fenced die are discarded (R37). -/
def State.memError (s : State) (loc : MemLoc) (waddr : Word) : State :=
  if (memOf loc).1 < 4 ∧ s.dieRuns (memOf loc).1 = false then s
  else
  let s := (s.memNote loc waddr).memOutcome loc waddr (s.tag 0)
  s.when (memClass loc = 2 || memClass loc = 3) (fun s => s.pairFault)
/-- A scrubber's read (R468, R469): a correctable word is corrected, whose data the model holds as they are; a pass that ends is
counted (log 276). -/
def State.scrub (s : State) (mem : Nat) (correctable passEnd : Bool) : State :=
  if mem < 4 ∧ s.dieRuns mem = false then s
  else
  let s := s.when correctable (fun s => s.memCorrected mem 0)
  let f := if mem = 6 then F.CV_SCRUB_DRAM else F.CV_SCRUB_SRAM
  s.when passEnd (fun s => s.setFld R.CV_SCRUB f (s.fld R.CV_SCRUB f + 1))

-- sentinels and the net image

/-- Consecutive passing runs of a cluster. -/
def State.senPasses (s : State) (c : Nat) : Nat := Smap.get (fun _ => 0) s.integ.passes c
def State.setPasses (s : State) (c n : Nat) : State :=
  { s with integ := { s.integ with passes := Smap.set (fun _ => 0) s.integ.passes c n } }
/-- A sentinel failure (R474): the cluster is held, and every slot of it takes a slot fault whatever its FLT_ACT. -/
def State.senFail (s : State) (c : Nat) (tag : Word) : State :=
  let a := R.LC_SEN_STAT c
  let s := ((s.set1 a F.LC_SEN_STAT_FAIL).set1 a F.LC_SEN_STAT_HELD).eventU false 0x1010 2 2 c []
  let s := s.each (s.usedSlots.filter (fun k => k / 32 = c)) (fun s k =>
    let s := s.setSlotX k { s.slotX k with fault := true }
    (s.eventU false 0x1003 2 1 k [4]).setFcause k 3 tag)
  s.pairFault
/-- A run of a cluster's sentinel (R473 to R475): skipped while its region is in BIST, or held as in one (R480). -/
def State.sentinel (s : State) (c off : Nat) (pass rerun late : Bool) : State :=
  let a := R.LC_SEN_STAT c
  if s.regionHeld (c / 8) || s.dieState (c / 32) ≠ 0 then s
  else
    let tag := s.tag off
    let s := (s.wr (R.LC_SEN_LAST_T c) tag).when late (fun s => s.set1 a F.LC_SEN_STAT_LATE)
    if pass then (s.incr (R.LC_SEN_CNT c)).setPasses c (s.senPasses c + 1)
    else
      let s := s.incr (R.LC_SEN_FAIL_CNT c)
      if rerun then ((s.incr (R.LC_SEN_CNT c)).set1 a F.LC_SEN_STAT_RETRY).setPasses c 1
      else ((s.incr (R.LC_SEN_FAIL_CNT c)).setPasses c 0).senFail c tag
/-- LC_SEN_CMD.CLEAR (R474): after 100 consecutive passes it ends HELD. -/
def State.senClear (s : State) (c : Nat) : State :=
  let a := R.LC_SEN_STAT c
  if s.senPasses c ≥ 100 then s.setFld a F.LC_SEN_STAT_HELD 0 else s
/-- The content of a check area has its CRC (R209). -/
def State.areaGood (s : State) (r area : Nat) : Bool :=
  if area < 64 then Crc.of 1 (wordBytes (s.rdAll (R.NODE r (128 * area)) 512)) = (s.rd (R.NE_BLK_CRC r area)).toNat
  else s.constCrc r = s.rd (R.NE_CONST_CRC r)
/-- The checker of a region with a loaded image reads its next area (R209, R210). `ok` and `reread` are false where that
reading differs from what the memory was given to hold, by a change that the SRAM code does not report. A region that is held
by a BIST has no image to check (R480). -/
def State.areaCheck (s : State) (r : Nat) (ok reread : Bool) : State :=
  if s.dieRuns (r / 4) = false ∨ s.img.loaded = false ∨ s.regionHeld r = true then s
  else
  let a := R.NE_CHK_POS r
  let n := s.fld a F.NE_CHK_POS_AREA
  let first : Bool := s.fld a F.NE_CHK_POS_PASSES = 0 && !s.integ.checked.contains r
  let area := if first then 0 else if n ≥ 64 then 0 else n + 1
  let s := s.setFld a F.NE_CHK_POS_AREA area
  let s := { s with integ := { s.integ with checked := (r :: s.integ.checked).eraseDups } }
  let s := s.when (area = 64) (fun s => s.setFld a F.NE_CHK_POS_PASSES (s.fld a F.NE_CHK_POS_PASSES + 1))
  let good := s.areaGood r area
  if ok && good then s
  else if reread && good then s.incr (R.NE_CHK_RETRY_CNT r)
  else (s.eventU false 0x3003 4 3 r [Word.ofN area]).stopCause 2

-- the check-value unit

def State.cvPoly (s : State) : CrcPoly := Crc.poly (s.fld R.CV_CTL F.CV_CTL_POLY)
/-- The running register (R476). -/
def State.cvValue (s : State) : Nat := s.rd64 R.CV_VALUE_LO % 2 ^ s.cvPoly.width
/-- The running register takes a value; CV_RESULT follows it. -/
def State.setCv (s : State) (v : Nat) : State :=
  (s.wr64 R.CV_VALUE_LO (v : Int)).wr64 R.CV_RESULT_LO (Crc.final s.cvPoly v : Int)
/-- CV_RESULT after a write to CV_VALUE or CV_CTL. -/
def State.cvShow (s : State) : State := s.wr64 R.CV_RESULT_LO (Crc.final s.cvPoly s.cvValue : Int)
def State.cvFeed (s : State) (bs : List Byte) : State := s.setCv (Crc.run s.cvPoly s.cvValue bs)
def State.cvBusy (s : State) : Bool := s.bit R.CV_CTL F.CV_CTL_BUSY
/-- A check value over what the model does not hold (log 1). -/
def State.cvDraw (s : State) (p : CrcPoly) : Nat × State :=
  let (a, s) := s.draw
  let (b, s) := s.draw
  ((a.toNat + b.toNat * 2 ^ 32) % 2 ^ p.width, s)
/-- A range of DRAM data lies within the recipe store, whose bytes the model holds, or within the reserved partition, which
reads as 0 (R20, R453; log 238). -/
def cvHeld (addr len : Nat) : Bool :=
  addr + len ≤ 67108864 || (0x1EC000000 ≤ addr && addr + len ≤ 0x200000000)
/-- The DMA starts (R477), unless one runs; GO stands until it is done (R12). -/
def State.cvDmaGo (s : State) : State :=
  if s.cvBusy then s else (s.set1 R.CV_CTL F.CV_CTL_BUSY).set1 R.CV_DMA_CMD F.CV_DMA_CMD_GO
/-- The DMA into the shared engine has read its range (R477). -/
def State.cvDmaDone (s : State) : State :=
  if !s.cvBusy then s
  else
    let addr := 8 * s.fld R.CV_DMA_ADDR F.CV_DMA_ADDR_ADDR
    let len := s.fld R.CV_DMA_LEN F.CV_DMA_LEN_BYTES
    let s := (s.setFld R.CV_CTL F.CV_CTL_BUSY 0).setFld R.CV_DMA_CMD F.CV_DMA_CMD_GO 0
    if cvHeld addr len then s.cvFeed (s.dbytes addr len)
    else let (v, s) := s.cvDraw s.cvPoly; s.setCv v
/-- CV_CMD TEST and SERVICE (R478). -/
def State.cvCommand (s : State) (code : Nat) : State :=
  match code with
  | 1 =>
    if s.mode = 0 ∨ s.mode = 1 then s.set1 R.CV_CTL F.CV_CTL_MODE else s.werr false R.CV_CMD 1
  | 2 => s.setFld R.CV_CTL F.CV_CTL_MODE 0
  | _ => s
/-- A channel is started (R478): in CHANNELS mode, unless it runs; GO stands until it has finished (R12). -/
def State.cvChGo (s : State) (c : Nat) : State :=
  if s.bit R.CV_CTL F.CV_CTL_MODE then (s.set1 (R.CV_CH_STAT c) F.CV_CH_STAT_BUSY).set1 (R.CV_CH_CFG c) F.CV_CH_CFG_GO
  else s
/-- A channel has read its range (R478). -/
def State.cvChDone (s : State) (c : Nat) : State :=
  let st := R.CV_CH_STAT c
  if !s.bit st F.CV_CH_STAT_BUSY then s
  else
    let cfg := R.CV_CH_CFG c
    let code := s.fld cfg F.CV_CH_CFG_POLY
    let addr := 8 * (s.rd (R.CV_CH_ADDR c)).toNat
    let len := s.fld (R.CV_CH_LEN c) F.CV_CH_LEN_BYTES
    let (v, s) := if s.bit cfg F.CV_CH_CFG_SRC || !cvHeld addr len then s.cvDraw (Crc.poly code)
      else (Crc.of code (s.dbytes addr len), s)
    let bad : Bool := v ≠ s.rd64 (R.CV_CH_EXP_LO c)
    let s := s.setFld cfg F.CV_CH_CFG_GO 0
    let s := ((s.setFld st F.CV_CH_STAT_BUSY 0).set1 st F.CV_CH_STAT_DONE).wr64 (R.CV_CH_RES_LO c) (v : Int)
    let s := s.when bad (fun s => s.set1 st F.CV_CH_STAT_MISMATCH)
    s.when (bad && s.bit cfg F.CV_CH_CFG_IRQ_EN) (fun s => s.msix (s.fld R.CV_CFG F.CV_CFG_VEC))

-- BIST

/-- A region may not be tested now (R479). -/
def State.bistActive (s : State) (r : Nat) : Bool :=
  s.usedSlots.any (fun k => k / 256 = r && s.fld (R.LE_MODE k) F.LE_MODE_EFF ≠ 0) ||
    s.usedAxes.any (fun a => a / 8 = r && (s.axState a = 1 || s.axState a = 2 || s.axStepper a)) ||
    (s.usedUnits 192 R.PW_CFG).any (fun p => p / 12 = r && !s.bit (R.PW_STAT p) F.PW_STAT_FORCED &&
      !s.bit (R.PW_STAT p) F.PW_STAT_NOT_OWNER) ||
    (s.ceState r ≠ 0 && s.ceState r ≠ 5) ||
    (!s.stopped && (s.usedTasks r).any (fun t => s.taskState r t ≠ 0))
/-- A BIST begins (R480): the pairs hold their patterns, and the sources of the region count as true. -/
def State.bistStart (s : State) (r : Nat) : State :=
  let s := { s with integ := { s.integ with bist := addOnce s.integ.bist r } }
  let s := s.each ((s.usedUnits 192 R.PW_CFG).filter (fun p => p / 12 = r)) (fun s p => s.pwForce p 3)
  (s.set1 R.CV_BIST_CMD F.CV_BIST_CMD_GO).hgEval s.t0
/-- The BIST command applies (R233, R479, R480); GO stands while a region is tested (R12). -/
def State.bistGo (s : State) (mask : Nat) : State :=
  let rs := (List.range 16).filter mask.testBit
  let refuse (s : State) (r cause : Nat) : State :=
    (s.set1 R.CV_BIST_REJ ⟨r, 1⟩).setFld R.CV_BIST_REJ F.CV_BIST_REJ_CAUSE cause
  let s := s.setFld R.CV_BIST_REJ F.CV_BIST_REJ_CAUSE 0
  if s.mode ≠ 0 ∧ s.mode ≠ 1 then s.each rs (fun s r => refuse s r 1)
  else s.each rs (fun s r =>
    if s.integ.bist.contains r || s.dieState (r / 4) ≠ 0 then s
    else if s.bistActive r then refuse s r 2 else s.bistStart r)
/-- A BAR0 offset of what a region's BIST destroys: its window but for the capture engine. -/
def regionWord (r a : Nat) : Bool :=
  let o := a - R.regionBase r
  R.regionBase r ≤ a && o < 0x100000 && !(0x80000 ≤ o && o < 0xC0000)
/-- Units of a region, `n` of each, return to their initial state. -/
def regionLess {α : Type} (n r : Nat) (m : List (Nat × α)) : List (Nat × α) := m.filter (fun e => e.1 / n ≠ r)
/-- A region is loaded from the configuration copy (R480): its registers, locals, nodes and law memory, and its units as a
load leaves them. Its delay lines keep their maps, and rotation that has stopped stays so (R290). -/
def State.regionReload (s : State) (r : Nat) : State :=
  let s := { s with
    io := s.io.filter (fun e => !regionWord r e.1)
    lawMem := Smap.setAll (fun _ => (0 : Word)) (regionLess 32768 r s.lawMem) (s.img.law.filter (fun e => e.1 / 32768 = r))
    slots := regionLess 256 r s.slots, clusters := regionLess 8 r s.clusters, axes := regionLess 8 r s.axes
    pairs := regionLess 12 r s.pairs, sdis := regionLess 12 r s.sdis, tripRuns := regionLess 3 r s.tripRuns
    tasks := regionLess 256 r s.tasks, rss := regionLess 1 r s.rss }
  let s := s.each (s.img.io.filter (fun e => regionWord r e.1)) (fun s e => s.imgWord e.1 e.2)
  let s := (s.pairsLoadOf r).clocksGood [r]
  let s := s.each (s.usedSlots.filter (fun k => k / 256 = r)) (fun s k =>
    let s := s.when (s.stopped && !s.bit (R.LE_CFG k) F.LE_CFG_INDEP) (fun s => s.setFcause k 1 (s.tag 0))
    s.when (s.boot.loops) (fun s => s.slotMode k (s.fld (R.LE_MODE k) F.LE_MODE_REQ) (s.tag 0)))
  let s := s.each (s.usedAxes.filter (fun a => a / 8 = r)) (fun s a => s.when s.stopped (fun s => s.axSetCause a 2))
  let ts := s.hgTrues
  let s := s.each ((s.usedUnits 192 R.PW_CFG).filter (fun p => p / 12 = r && s.hgHits ts 1 p)) (fun s p => s.pwForce p 0)
  let s := s.when (s.pairEn && pinsHeld s.pairState) (fun s =>
    s.each (s.ownPairs.filter (fun p => p / 12 = r)) (fun s p => s.pwForce p 2))
  s.hgEval s.t0
/-- A BIST ends (R480): a region that has passed is reloaded; one that has failed stays held. The report of a fenced die is
discarded (R37). -/
def State.bistDone (s : State) (r : Nat) (pass : Bool) : State :=
  if !s.integ.bist.contains r || !s.dieRuns (r / 4) then s
  else
    let s := s.bistLess (fun q => q = r)
    let s := (s.setB R.CV_BIST_STAT ⟨r, 1⟩ pass).setB R.CV_BIST_STAT ⟨16 + r, 1⟩ (!pass)
    if pass then s.regionReload r else s.eventU false 0x4003 2 3 r []

-- rows

/-- SAMPLE_COMPLETE (R102): a residue fault is a fault of the unit's own engine (R92, R472). -/
def execSampleComplete (k : SlotIx) (off : Nat) (mismatch : Option (Nat × Bool)) (s : State) :
    Host.Outcome State Fault Refusal :=
  let again : Bool := match mismatch, (s.slotX k).ready with
    | some (_, b), _ :: _ => b
    | _, _ => false
  .next ((s.sampleComplete k off mismatch).when again (fun s => s.pairFault))
/-- CORRECTABLE_ERROR (R470). -/
def execCorrectableError (mem : Fin 7) (off : Nat) (s : State) : Host.Outcome State Fault Refusal :=
  .next (s.memCorrected mem off)
/-- UNCORRECTABLE_ERROR (R470). -/
def execUncorrectableError (loc : MemLoc) (waddr : Word) (s : State) : Host.Outcome State Fault Refusal :=
  .next (s.memError loc waddr)
/-- SCRUB_READ (R469). -/
def execScrubRead (mem : Fin 7) (correctable passEnd : Bool) (s : State) : Host.Outcome State Fault Refusal :=
  .next (s.scrub mem correctable passEnd)
/-- SENTINEL_RUN (R473). -/
def execSentinelRun (c : ClusterIx) (off : Nat) (pass rerun late : Bool) (s : State) :
    Host.Outcome State Fault Refusal :=
  .next (s.sentinel c off pass rerun late)
/-- SEN_CLEAR (R474). -/
def execSenClear (c : ClusterIx) (s : State) : Host.Outcome State Fault Refusal :=
  .next (s.regionRow (c / 8) (R.LC_SEN_CMD c) (fun s => s.senClear c))
/-- AREA_CHECK (R209, R210). -/
def execAreaCheck (r : RegionIx) (ok reread : Bool) (s : State) : Host.Outcome State Fault Refusal :=
  .next (s.areaCheck r ok reread)
/-- CV_INIT (R476, R477). -/
def execCvInit (s : State) : Host.Outcome State Fault Refusal := .next (s.setCv s.cvPoly.init)
/-- CV_DATA (R477): four bytes, byte 0 first. -/
def execCvData (v : Word) (s : State) : Host.Outcome State Fault Refusal :=
  .next (if s.cvBusy then s.werr false R.CV_DATA 11 else s.cvFeed (Word.bytes v))
/-- CV_DATA_B (R477). -/
def execCvDataB (v : Byte) (s : State) : Host.Outcome State Fault Refusal :=
  .next (if s.cvBusy then s.werr false R.CV_DATA_B 11 else s.cvFeed [v])
/-- CV_DMA_GO (R477). -/
def execCvDmaGo (s : State) : Host.Outcome State Fault Refusal := .next s.cvDmaGo
/-- CV_DMA_DONE (R477). -/
def execCvDmaDone (s : State) : Host.Outcome State Fault Refusal := .next s.cvDmaDone
/-- TEST (R478). -/
def execTest (s : State) : Host.Outcome State Fault Refusal := .next (s.cvCommand 1)
/-- SERVICE (R478). -/
def execService (s : State) : Host.Outcome State Fault Refusal := .next (s.cvCommand 2)
/-- CV_CH_GO (R478). -/
def execCvChGo (c : Fin 8) (s : State) : Host.Outcome State Fault Refusal := .next (s.cvChGo c)
/-- CV_CH_DONE (R478). -/
def execCvChDone (c : Fin 8) (s : State) : Host.Outcome State Fault Refusal := .next (s.cvChDone c)
/-- BIST_GO (R479). -/
def execBistGo (mask : BitVec 16) (s : State) : Host.Outcome State Fault Refusal := .next (s.bistGo mask.toNat)
/-- BIST_DONE (R480). -/
def execBistDone (r : RegionIx) (pass : Bool) (s : State) : Host.Outcome State Fault Refusal :=
  .next (s.bistDone r pass)

end Sys2Proof.Machine
end

