-- ==== Sys2Proof/Machine/Mgmt.lean ====
section
/-!
DEFINITION. The management core (R482 to R502): sessions, proposals and their application, image banks, life cycle,
sensors, the event recorder's copy to boot memory, and the 1 ms busy windows (R117, R211).
-/
namespace Sys2Proof.Machine

-- answers

/-- Codes of the principal classes (R494). -/
def classOf : Principal → Nat
  | .host => 0
  | .console => 1
  | .key => 2
  | .partner => 3
/-- The words of a 384-bit value, its first 32 bits first. -/
def words384 (d : BitVec 384) : List Word :=
  (List.range 12).map (fun i => Word.ofN (d.toNat >>> (352 - 32 * i)))
/-- A command of the mailbox runs. -/
def State.mbxBusy (s : State) : Bool := s.bit R.MG_MBX_STAT F.MG_MBX_STAT_BUSY
/-- A command completes (R12, R486): the answer, and, for one of the mailbox, its status and response, and GO reads 0. -/
def State.mgReply (s : State) (mailbox : Bool) (status : Nat) (ws : List Word) : State :=
  let s := s.emit (.mbox status ws)
  if !mailbox then s
  else
    let a := R.MG_MBX_STAT
    let s := ((s.setFld a F.MG_MBX_STAT_BUSY 0).set1 a F.MG_MBX_STAT_DONE).setFld a F.MG_MBX_STAT_STATUS status
    let s := (s.setFld a F.MG_MBX_STAT_RLEN (4 * ws.length)).wrAll (R.MG_MBX_RSP 0) ws
    let s := s.setFld R.MG_MBX_CMD F.MG_MBX_CMD_GO 0
    s.when (s.bit R.MG_MBX_CMD F.MG_MBX_CMD_IRQ) (fun s => s.msix (s.fld R.MG_MBX_CMD F.MG_MBX_CMD_VEC))
/-- A class has a session. -/
def State.mgOpen (s : State) (cls : Nat) : Bool := s.mg.sess.any (fun e => e.1 = cls)
/-- A principal's command came through the mailbox. -/
def mgByHost (p : Principal) : Bool := p = .host || p = .key
/-- Why no command is served: 13 while the core is in reset; in HALT the ROM serves a few (R515), and the rest is
BAD_CMD. -/
def State.mgBar (s : State) (rom : Bool) : Nat :=
  if s.mg.down then 13 else if s.phase = 15 ∧ rom = false then 4 else 0
/-- Whether a command that names no principal counts as one of the mailbox, and whether its session is open: one of the
mailbox needs a HOST session, and one of the console a CONSOLE session (R484, R486). It is the console's when the mailbox is
idle and only a CONSOLE session is open (log 62). -/
def State.mgSession (s : State) : Bool × Bool :=
  if !s.mbxBusy && !s.mgOpen 0 && s.mgOpen 1 then (false, true) else (true, s.mgOpen 0)
/-- Run a command of an open session, if the core serves it; `f` gives the status, the response and the state. -/
def State.mgRun (s : State) (rom : Bool) (f : State → Nat × List Word × State) : State :=
  let (mbx, ok) := s.mgSession
  let bar := s.mgBar rom
  if bar ≠ 0 then s.mgReply mbx bar []
  else if !ok then s.mgReply mbx 2 []
  else
    let (st, ws, s) := f s
    s.mgReply mbx st ws

-- sessions

/-- MG_SESSION shows the HOST session (R502). -/
def State.mgShow (s : State) : State :=
  match s.mg.sess.find? (fun e => e.1 = 0) with
  | some (_, i) => s.wr R.MG_SESSION (Word.ofN (1 + 2 * i))
  | none => s.wr R.MG_SESSION 0
/-- A session ends (R485). -/
def State.mgEnd (s : State) (cls : Nat) : State :=
  { s with mg := { s.mg with sess := s.mg.sess.filter (fun e => e.1 ≠ cls) } }.mgShow
/-- AUTH_NONCE (R486): a nonce for a class, valid for 60 s. -/
def State.authNonce (s : State) (p : Principal) : State :=
  let bar := s.mgBar true
  let c := classOf p
  if bar ≠ 0 then s.mgReply (mgByHost p) bar []
  else if c > 1 then s.mgReply (mgByHost p) 4 []
  else
    let n := Config.nonce s.mg.nonceN
    let s := { s with mg := { s.mg with
      nonceN := s.mg.nonceN + 1, nonces := (c, n, s.opNs) :: s.mg.nonces.filter (fun e => e.1 ≠ c) } }
    s.mgReply (mgByHost p) 0 (words384 n)
/-- The bytes of a 384-bit value, highest first. -/
def bytes384 (d : BitVec 384) : List Byte := (List.range 48).map (fun i => BitVec.ofNat 8 (d.toNat >>> (376 - 8 * i)))
/-- The credential slot whose key signed a class's nonce (R485, R486). -/
def State.authSlot (s : State) (c : Nat) (signature : List Byte) : Option Nat :=
  match s.mg.nonces.find? (fun e => e.1 = c && s.opNs ≤ e.2.2 + 60000000000) with
  | none => none
  | some (_, n, _) =>
    let msg := bytes384 (Config.sha384 (bytes384 n ++ Config.serial))
    (List.range 4).find? (fun i =>
      let k : Nat := Smap.get (fun _ => 0) s.mg.creds (4 * c + i)
      k ≠ 0 && Config.verify k msg signature)
/-- AUTH (R485): the nonce is used up; five failures in 60 s refuse AUTH for 60 s. -/
def State.auth (s : State) (p : Principal) (signature : List Byte) : State :=
  let bar := s.mgBar true
  let c := classOf p
  let mbx := mgByHost p
  if bar ≠ 0 then s.mgReply mbx bar []
  else if c > 1 then s.mgReply mbx 4 []
  else if s.mg.locked then s.mgReply mbx 2 []
  else
    let hit := s.authSlot c signature
    let s := { s with mg := { s.mg with nonces := s.mg.nonces.filter (fun e => e.1 ≠ c) } }
    match hit with
    | some i =>
      let s := { s with mg := { s.mg with sess := (c, i) :: s.mg.sess.filter (fun e => e.1 ≠ c) } }.mgShow
      s.mgReply mbx 0 [Word.ofN (1 + 2 * i)]
    | none =>
      let fails := s.opNs :: s.mg.fails.filter (fun t => s.opNs < t + 60000000000)
      let s := { s with mg := { s.mg with fails := fails, locked := decide (fails.length ≥ 5) } }
      s.mgReply mbx 2 []
/-- LOGOUT (R485). -/
def State.logout (s : State) (p : Principal) : State :=
  let bar := s.mgBar false
  if bar ≠ 0 then s.mgReply (mgByHost p) bar [] else (s.mgEnd (classOf p)).mgReply (mgByHost p) 0 []

-- proposals

/-- ITEM codes (R492). -/
def itemCode : Item → Nat
  | .image _ _ => 1
  | .hedgerow _ => 2
  | .forceRanges _ => 3
  | .lifeCycle _ _ _ => 4
  | .take => 5
  | .handover => 6
  | .dieFence _ => 7
  | .timeStep _ _ _ => 8
  | .rtcWrite _ => 9
  | .credential _ _ _ => 10
/-- The target that an item names within its code (R493). -/
def itemTarget : Item → Nat
  | .image b _ => bankNum b
  | .dieFence d => d.val
  | .credential c i _ => 4 * classOf c + i.val
  | _ => 0
/-- A pair-wide item (R492). -/
def itemPair (i : Item) : Bool := itemCode i = 2 || itemCode i = 3 || itemCode i = 6 || itemCode i = 7
/-- A life-cycle transition that R500 has. -/
def lifeOk (old new : Nat) : Bool :=
  (old = 1 && new = 2) || (old = 2 && new = 3) || (new = 4 && (old = 1 || old = 2 || old = 3))
def State.life (s : State) : Nat := s.fld R.LF_STATE F.LF_STATE_STATE
/-- The status that the mode and other conditions of an item give (R492, R493); 0 when they hold. -/
def State.itemStatus (s : State) (i : Item) : Nat :=
  if itemPair i ∧ s.role = 2 then 12
  else match i with
    | .image b _ => if s.bankState b = 2 then 0 else 11
    | .hedgerow es => if s.mode ≠ 1 then 1 else if es = [] ∨ es.length > 64 then 4 else 0
    | .forceRanges rs => if s.mode ≠ 1 then 1 else if rs.length ≠ 64 then 4 else 0
    | .lifeCycle t _ _ => if !lifeOk s.life t then 11 else if t ≠ 2 ∧ s.mode ≠ 1 then 1 else 0
    | .take => if s.paired && s.pairState = 3 then 0 else 11
    | .handover => if s.paired && s.role = 1 then 0 else 11
    | .credential c _ _ => if classOf c > 1 then 4 else 0
    | _ => 0
/-- A proposal slot shows its proposal (R502), or is free. -/
def State.propShow (s : State) (k : Nat) : State :=
  match Smap.find s.mg.props k with
  | none => s.wrAll (R.LF_PROP k) [0, 0, 0, 0]
  | some p =>
    let age := min 255 ((s.opNs - p.at_) / 1000000000)
    s.wrAll (R.LF_PROP k) (Word.ofN (itemCode p.item + 16 * classOf p.by_ + 256 * age) :: (words384 p.digest).take 3)
def State.propsShow (s : State) : State := s.each s.mg.props (fun s e => s.propShow e.1)
/-- HG_PATCH_STAT.PENDING shows a hedgerow patch that waits (R315). -/
def State.patchShow (s : State) : State :=
  s.setB R.HG_PATCH_STAT F.HG_PATCH_STAT_PENDING (s.mg.props.any (fun e => itemCode e.2.item = 2))
/-- A proposal ends: its slot is free. -/
def State.propFree (s : State) (k : Nat) : State :=
  ({ s with mg := { s.mg with props := Smap.erase s.mg.props k } }.propShow k).patchShow
/-- The item of a proposal: the entries of a hedgerow patch are those staged (R313). -/
def State.itemOf (s : State) : Item → Item
  | .hedgerow _ =>
    let n := s.fld R.HG_PATCH_CTRL F.HG_PATCH_CTRL_COUNT
    .hedgerow (if n ≤ 64 then s.patchBuf else [])
  | i => i
/-- The change descriptor and its payload (R492): ITEM, unit ID, lease epoch, the package mode, the item fields from byte 16,
which the proposer gives with the payload (DESIGN CHOICE, log 256), and for a hedgerow patch the staged entries as the payload. -/
def State.descriptor (s : State) (i : Item) (bytes : List Byte) : List Byte :=
  let b (n : Nat) : Byte := BitVec.ofNat 8 n
  let fields := bytes.take 48
  [b (itemCode i), 0, b s.unit, 0] ++ Word.bytesAll [s.rd R.XL_EPOCH] ++ [b s.mode] ++ List.replicate 7 0 ++
    fields ++ List.replicate (48 - fields.length) 0 ++
    (match i with
    | .hedgerow es => Word.bytesAll ((es.map (fun e => [e.1, e.2.1, e.2.2.1, e.2.2.2])).flatten)
    | _ => bytes.drop 48)
/-- PROPOSE (R492, R493): the digest is over the descriptor and the payload. -/
def State.propose (s : State) (p : Principal) (item : Item) (bytes : List Byte) : State :=
  let mbx := mgByHost p
  let i := s.itemOf item
  let bar := s.mgBar (itemCode i = 1)
  let st := s.itemStatus i
  if bar ≠ 0 then s.mgReply mbx bar []
  else if classOf p > 1 then s.mgReply mbx 4 []
  else if !s.mgOpen (classOf p) then s.mgReply mbx 2 []
  else if st ≠ 0 then s.mgReply mbx st []
  else if s.mg.props.any (fun e => itemCode e.2.item = itemCode i && itemTarget e.2.item = itemTarget i) then
    s.mgReply mbx 3 []
  else match (List.range 8).find? (fun k => (Smap.find s.mg.props k).isNone) with
    | none => s.mgReply mbx 7 []
    | some k =>
      let d := Config.sha384 (s.descriptor i bytes)
      let x : PropX := ⟨i, p, d, s.rd R.XL_EPOCH, s.opNs, none⟩
      let s := ({ s with mg := { s.mg with props := Smap.put s.mg.props k x } }.propShow k).patchShow
      s.mgReply mbx 0 (Word.ofN k :: words384 d)
/-- What a confirmer must be (R485): 0, or the status. KEY needs the debounced key in PROGRAM. -/
def State.confirmer (s : State) (p : Principal) : Nat :=
  match p with
  | .key => if s.fld R.TK_KEY F.TK_KEY_KEY = 1 then 0 else 15
  | .partner => if s.pairEn then 0 else 2
  | _ => if s.mgOpen (classOf p) then 0 else 2
/-- CONFIRM (R493, R494): a unit item waits for the next t0, a pair-wide item is logged; in HALT an accepted bank becomes
ACTIVE at once (R515). -/
def State.confirm (s : State) (p : Principal) (k : Nat) (d : BitVec 384) : State :=
  let mbx := mgByHost p
  let bar := s.mgBar true
  let who := s.confirmer p
  if bar ≠ 0 then s.mgReply mbx bar []
  else if who ≠ 0 then s.mgReply mbx who []
  else match Smap.find s.mg.props k with
    | none => s.mgReply mbx 6 []
    | some x =>
      let st := s.itemStatus x.item
      if x.conf.isSome then s.mgReply mbx 11 []
      else if s.opNs ≥ x.at_ + 120000000000 then (s.propFree k).mgReply mbx 6 []
      else if classOf x.by_ = classOf p then s.mgReply mbx 8 []
      else if d ≠ x.digest then (s.propFree k).mgReply mbx 5 []
      else if st ≠ 0 then s.mgReply mbx st []
      else match decide (s.phase = 15), x.item with
        | true, .image b _ => ((s.bankActive b true).propFree k).mgReply mbx 0 []
        | _, i =>
          let s := { s with mg := { s.mg with props := Smap.put s.mg.props k { x with conf := some p } } }
          if itemPair i then
            let c := s.assignCyc
            let s := match i with
              | .hedgerow es => s.bulkSend false ((List.range (4 * es.length)).map (fun j =>
                  (R.HG_PATCH_BUF j, s.rd (R.HG_PATCH_BUF j))))
              | _ => s
            (s.logAdd (s.tag 0) (.twoParty (Fin.ofNat 8 k) i x.by_ p)).mgReply mbx 0 [c]
          else s.mgReply mbx 0 [s.seq + 1]
/-- WITHDRAW (R493): by the proposer only. -/
def State.withdraw (s : State) (p : Principal) (k : Nat) : State :=
  let mbx := mgByHost p
  let bar := s.mgBar false
  if bar ≠ 0 then s.mgReply mbx bar []
  else if !s.mgOpen (classOf p) then s.mgReply mbx 2 []
  else match Smap.find s.mg.props k with
    | none => s.mgReply mbx 6 []
    | some x =>
      if classOf x.by_ ≠ classOf p then s.mgReply mbx 2 []
      else if x.conf.isSome then s.mgReply mbx 11 []
      else (s.propFree k).mgReply mbx 0 []
/-- A proposal lapses after 120 s (R493). -/
def State.propLapse (s : State) (k : Nat) : State :=
  match Smap.find s.mg.props k with
  | some x => if x.conf.isSome then s else s.propFree k
  | none => s

-- application

/-- The life cycle takes a state (R500, R501), by fuse. -/
def State.lifeSet (s : State) (t : Nat) : State :=
  let old := s.life
  let s := (s.setFld R.LF_STATE F.LF_STATE_STATE t).emit (.bootWrite 7 .bankA t 1)
  s.eventU false 0xD007 0 0xD 0 [Word.ofN old, Word.ofN t]
/-- The erase of R501: banks, event recorder, credentials, recipe store, DRAM and backup SRAM. -/
def State.lifeErase (s : State) : State :=
  let s := ((s.setBank .bankA 0).setBank .bankB 0).emit (.bootWrite 4 .bankA 0 0)
  let hdr : Header := default
  let s := { s with
    evStage := [], evNvm := [], evLost := 0, dram := []
    lanes := s.lanes.map (fun (e : Nat × LaneX) => (e.1, { e.2 with jStep := 0, jRun := 0 }))
    mg := { s.mg with creds := [], owner := 0, banks := [], sess := [] }
    boot := { s.boot with bufA := none, bufB := none, copying := none, hdrA := hdr, hdrB := hdr } }.mgShow
  let s := s.each (List.range 16) (fun s l => s.wr (R.SQ_ACT_JRNL l) 0)
  let s := s.each (List.range 4096) (fun s i => s.wrAll (R.FORCE i) [0, 0, 0, 0])
  ((s.setFld R.TK_FRC_STAT F.TK_FRC_STAT_COUNT 0).setFld R.EV_STAGE_FILL F.EV_STAGE_FILL_RECORDS 0).ckptShow
/-- A life-cycle transition applies (R500, R501): towards RETURNED and ENDED the controller stops and no image runs
again. -/
def State.lifeApply (s : State) (t owner : Nat) (creds : List (Nat × Nat)) : State :=
  if t = 2 then
    let s := { s with mg := { s.mg with owner := owner, creds := Smap.setAll (fun _ => 0) s.mg.creds creds } }
    (s.emit (.bootWrite 4 .bankA 0 0)).lifeSet 2
  else
    let s := (s.stopCause 3).stopApply
    let s := { s with mg := { s.mg with barred := true } }
    let s := if t = 3 then { s.lifeErase with mg := { s.lifeErase.mg with erase := some 3 } } else s.lifeSet 4
    s.halt 0
/-- A confirmed item is checked once more and applies (R494); false when its check fails. -/
def State.itemApply (s : State) (i : Item) : State × Bool :=
  match i with
  | .image b _ => if s.bankState b = 2 then (s.setBank b 3, true) else (s, false)
  | .hedgerow es =>
    let s := s.hgPatch es s.t0
    (s, s.fld R.HG_PATCH_STAT F.HG_PATCH_STAT_CAUSE = 0)
  | .forceRanges rs =>
    if s.mode = 1 ∧ rs.all (fun r => rangeOk r.1 r.2) = true then
      (s.each ((List.range 64).zip rs) (fun s e =>
        s.wrAll (0x40400 + 8 * e.1) [Word.ofN (e.2.1 % 2 ^ 20), Word.ofN (e.2.2 % 2 ^ 20)]), true)
    else (s, false)
  | .lifeCycle t o c => if lifeOk s.life t && (t = 2 || s.mode = 1) then (s.lifeApply t o c, true) else (s, false)
  | .take => s.take
  | .handover => s.handover
  | .dieFence d => (s.dieFence d 7 0, true)
  | .timeStep set sec ns => s.tmConfirmed set sec ns
  | .rtcWrite sec => (s.rtcConfirmed sec, true)
  | .credential c k h =>
    ({ s with mg := { s.mg with creds := Smap.set (fun _ => 0) s.mg.creds (4 * classOf c + k.val) h } }.emit
      (.bootWrite 4 .bankA (4 * classOf c + k.val) 48), true)
/-- A confirmed item that is due (R494): checked once more, and recorded with the classes of its principals when it applies;
false when its check fails. -/
def State.itemRun (s : State) (i : Item) (by_ conf : Principal) : State × Bool :=
  match s.itemApply i with
  | (s, false) => (s, false)
  | (s, true) =>
    (s.eventP (itemPair i) 0xD005 0 0xD 0 (Word.ofN (itemCode i)) (Word.ofN (classOf by_ + 16 * classOf conf)) s.seq, true)
/-- A confirmed change applies at t0 (R494): void with KEY_LEFT when the key has left PROGRAM, ended with CHECK_FAILED when
its check fails, and otherwise recorded. `key` is the mode after the key entries of the cycle. -/
def State.twoPartyApply (s : State) (k key : Nat) (i : Item) (by_ conf : Principal) : State :=
  let s := if s.role = 2 ∧ itemPair i then s else s.propFree k
  if conf = .key ∧ key ≠ 1 then s.emit (.mbox 15 [Word.ofN k])
  else
    match s.itemRun i by_ conf with
    | (s, false) => s.emit (.mbox 14 [Word.ofN k])
    | (s, true) => s
/-- The confirmed unit items apply at t0 (R494). -/
def State.unitItems (s : State) (key : Nat) : State :=
  s.each (s.mg.props.filter (fun e => e.2.conf.isSome && !itemPair e.2.item)) (fun s e =>
    match e.2.conf with
    | some c => s.twoPartyApply e.1 key e.2.item e.2.by_ c
    | none => s)

-- images

/-- UPDATE_BEGIN (R496). -/
def State.updateBegin (s : State) (b : Bank) : Nat × List Word × State :=
  if s.bankState b = 4 then (11, [], s) else (0, [], (s.setBank b 1).emit (.bootWrite 2 b 0 0))
/-- UPDATE_WRITE (R486). -/
def State.updateWrite (s : State) (b : Bank) (off len : Nat) : Nat × List Word × State :=
  if s.bankState b ≠ 1 then (11, [], s)
  else if len > 1048576 then (4, [], s)
  else (0, [Word.ofN len], s.emit (.bootWrite 3 b off len))
/-- UPDATE_END (R496, R498). -/
def State.updateEnd (s : State) (b : Bank) (crcOk sigOk : Bool) (svn : Nat) (ident : Word) : Nat × List Word × State :=
  if s.bankState b ≠ 1 then (11, [], s)
  else if crcOk = false ∨ sigOk = false then (9, [], s.setBank b 0)
  else if svn < s.fld R.LF_SVN F.LF_SVN_COUNTER then (10, [], s.setBank b 0)
  else
    let h : Header := ⟨0x4C5A4248, 1, if s.lz2048 then 0x2048 else 0x4096, true, true, true, svn⟩
    let s := s.setBank b 2
    let s := if b = .bankB then { s with boot := { s.boot with hdrB := h } } else { s with boot := { s.boot with hdrA := h } }
    (0, [ident, Word.ofN svn], { s with mg := { s.mg with
      banks := (bankNum b, svn, ident) :: s.mg.banks.filter (fun e => e.1 ≠ bankNum b) } })
/-- Cycles from the present one to the first t0 at or after a TAI second. -/
def State.cyclesTo (s : State) (sec : Nat) : Nat := max 1 ((sec * 1000000000 - s.t0 + s.period - 1) / s.period)
/-- ACTIVATE (R497). -/
def State.activate (s : State) (b : Bank) (sec : Nat) : Nat × List Word × State :=
  if s.mode ≠ 1 ∧ s.mode ≠ 2 then (1, [], s)
  else if s.bankState b ≠ 3 then (11, [], s)
  else if s.mg.act.isSome then (3, [], s)
  else (0, [s.seq + Word.ofN (s.cyclesTo sec)], { s with mg := { s.mg with act := some (b, sec, s.opNs) } })
/-- A pending ACTIVATE applies at the first t0 at or after its second, in PROGRAM or REMOTE (R497): the bank is ACTIVE, on
trial (R507), and a warm restart with cause UPDATE follows. -/
def State.activateDue (s : State) : State :=
  match s.mg.act with
  | none => s
  | some (b, sec, _) =>
    if s.t0 < sec * 1000000000 ∨ (s.mode ≠ 1 ∧ s.mode ≠ 2) ∨ s.boot.up = false then s
    else
      let s := { s with mg := { s.mg with act := none } }
      ((s.bankActive b true).imageEvent 0 b (s.bankHdr b).svn).warmBegin 3 false
/-- An ACTIVATE that still waits is dropped with DENIED_MODE (R497). -/
def State.activateDrop (s : State) : State :=
  if s.mg.act.isSome then { s with mg := { s.mg with act := none } }.emit (.mbox 1 []) else s
/-- SVN_COMMIT (R498): the image has entered its mode and has been in RUN for 60 s. -/
def State.svnCommit (s : State) (runSec : Nat) : Nat × List Word × State :=
  if s.mode ≠ 1 ∧ s.mode ≠ 2 then (1, [], s)
  else if runSec < 60 ∨ s.phase ≠ 7 then (11, [], s)
  else
    let b := bankOf (s.dirGet dirActive)
    let n := min 64 (max (s.fld R.LF_SVN F.LF_SVN_COUNTER) (s.bankHdr b).svn)
    let s := (s.setFld R.LF_SVN F.LF_SVN_COUNTER n).emit (.bootWrite 7 b n 1)
    (0, [Word.ofN n], s.imageEvent 0 b n)
/-- TRACE (R501): on in FIELD, with its own CONSOLE confirmation. -/
def State.trace (s : State) (on confirmed : Bool) : Nat × List Word × State :=
  if on then
    if s.life ≠ 2 then (11, [], s)
    else if !confirmed then (2, [], s)
    else (0, [], s.set1 R.LF_STATE F.LF_STATE_TRACE)
  else (0, [], s.setFld R.LF_STATE F.LF_STATE_TRACE 0)
/-- The erase has ended (R501). -/
def State.eraseDone (s : State) (ok : Bool) : State :=
  match s.mg.erase with
  | none => s
  | some t =>
    let s := { s with mg := { s.mg with erase := none } }
    if ok then s.lifeSet t else s.set1 R.LF_STATE F.LF_STATE_ERASE_FAIL

-- sensors

/-- A sensor's record (R489, R393): the tag is some microseconds late (log 1). -/
def State.sensorWarn (s : State) (inst : Nat) (v : Word) : State :=
  s.eventM 0xD001 1 0xD inst (Word.ofN inst) (some v)
/-- A sensor takes its value and state (R483, R502): a WARN is recorded when it begins. -/
def State.sensorSet (s : State) (a inst : Nat) (v : Word) (st : Nat) : State :=
  let old := s.fld a ⟨16, 2⟩
  let s := s.wr a (Word.ofN (v.toNat % 65536 + st * 65536))
  s.when (old = 0 && st ≠ 0) (fun s => s.sensorWarn inst (Word.ofN (v.toNat % 65536)))
/-- A temperature (R483): WARN from 105 °C, over the limit above 125 °C; the WARN ends after 1 s at 100 °C or below. -/
def State.tempSample (s : State) (i : Nat) (v : Word) (clear : Bool) : State :=
  let a := R.MG_TEMP i
  let t := (BitVec.ofNat 16 v.toNat).toInt
  let st := if t > 125 * 256 then 2 else if t ≥ 105 * 256 then 1 else if clear ∧ t ≤ 100 * 256 then 0
    else min 1 (s.fld a F.MG_TEMP_STATE)
  s.sensorSet a (0x100 + i) v st
/-- The levels of the rails behind voltage monitors 0 to 8 (R519), in millivolts. -/
def railMv : List Nat := [750, 750, 750, 750, 800, 900, 1200, 1050, 500]
/-- A voltage is outside the 5 % of a rail that has one level (R483, R519). -/
def railOut (j : Nat) (v : Word) : Bool := match railMv[j]? with
  | some n => let x := v.toNat % 65536 * 1000
    x * 100 > n * 256 * 105 || x * 100 < n * 256 * 95
  | none => false
/-- A voltage (R483): over the limit outside the 5 % of monitors 0 to 8, and WARN as the 1 ms are judged. -/
def State.voltSample (s : State) (j : Nat) (v : Word) (low clear : Bool) : State :=
  let a := R.MG_VOLT j
  s.sensorSet a (0x180 + j) v (if railOut j v then 2 else if low then 1 else if clear then 0
    else min 1 (s.fld a F.MG_VOLT_STATE))
/-- VBAT (R483): WARN below 2.2 V, and below 2.0 V RTC_VALID is cleared (R394). -/
def State.vbatSample (s : State) (v : Word) (clear : Bool) : State :=
  let n := v.toNat % 65536
  let s := s.wr R.MG_VBAT (Word.ofN n)
  let low : Bool := decide (10 * n < 22 * 256)
  let s := s.when (low && !s.mg.vbatWarn) (fun s => s.sensorWarn 0x1C0 (Word.ofN n))
  let s := { s with mg := { s.mg with vbatWarn := low || (s.mg.vbatWarn && !clear) } }
  s.when (n < 512) (fun s => s.setFld R.TM_RTC_STAT F.TM_RTC_STAT_RTC_VALID 0)
/-- The sensors are sampled, while the core runs (R482, R483). -/
def State.sensorSample (s : State) (temps volts : List Word) (vbat : Word) (clear low : Nat) : State :=
  if s.mg.down then s
  else
    let s := s.each ((List.range 20).zip temps) (fun s e => s.tempSample e.1 e.2 (clear.testBit e.1))
    let s := s.each ((List.range 16).zip volts) (fun s e =>
      s.voltSample e.1 e.2 (low.testBit e.1) (clear.testBit (20 + e.1)))
    s.vbatSample vbat (clear.testBit 36)
/-- Every sensor's register. -/
def State.sensorWords (s : State) : List Word :=
  (List.range 20).map (fun i => s.rd (R.MG_TEMP i)) ++ (List.range 16).map (fun j => s.rd (R.MG_VOLT j)) ++ [s.rd R.MG_VBAT]
/-- The core pair is reset (R482): a running command completes with MGMT_RESET, and the third reset of an hour is
FATAL. -/
def State.lockstep (s : State) : State :=
  let rs := s.opNs :: s.mg.resets.filter (fun t => s.opNs < t + 3600000000000)
  let s := { s with mg := { s.mg with down := true, resets := rs } }.incr R.MG_RESET_CNT
  let s := s.when s.mbxBusy (fun s => s.mgReply true 13 [])
  let s := s.emit (.reset 3)
  if rs.length ≥ 3 then (s.eventU false 0xD002 4 0xD 0 []).stopCause 2 else s.eventU false 0xD002 2 0xD 0 []
/-- A limit of the hub die (R483): FATAL, against a temperature sensor or a rail of the hub (log 1). -/
def State.hubLimit (s : State) : State :=
  let (w, s) := s.draw
  let n := w.toNat % 9
  let inst := if n < 4 then 0x110 + n else 0x180 + n
  (s.eventM 0xD001 4 0xD inst (Word.ofN inst) none).stopCause 2

-- the event recorder

/-- One staged record reaches the NVM ring (R490): before the first of a sector, the sector is erased. -/
def State.nvmStore (s : State) (r : EvRec) : State :=
  let q := r.seq.toNat
  let sec (x : EvRec) : Bool := x.seq.toNat / 2048 % 512 = q / 2048 % 512
  let s := if q % 2048 = 0 then
      let s := s.emit (.bootWrite 5 .bankA (q % 1048576 * 32) 65536)
      if s.evNvm.any sec then { s with evNvm := s.evNvm.filter (fun x => !sec x) }.addTo R.EV_OLDEST_SEQ 2048 else s
    else s
  { s with evNvm := s.evNvm ++ [r] }
/-- The core copies no record: it is in reset, or no firmware runs (R482, R515). -/
def State.nvmIdle (s : State) : Bool := s.mg.down || s.phase = 15
/-- Staged records are copied, 8 at a time, and released after their read-back (R490). -/
def State.nvmCopy (s : State) (ok : Bool) : State :=
  if s.nvmIdle = true ∨ s.evStage = [] then s
  else if ok = false then s.set1 R.EV_STAT F.EV_STAT_NVM_ERR
  else
    let rs := s.evStage.take 8
    let first := match rs with
      | r :: _ => r.seq.toNat % 1048576 * 32
      | [] => 0
    let s := (s.each rs (fun s r => s.nvmStore r)).emit (.bootWrite 6 .bankA first (32 * rs.length))
    let s := { s with evStage := s.evStage.drop 8 }
    s.setFld R.EV_STAGE_FILL F.EV_STAGE_FILL_RECORDS s.evStage.length

-- busy windows

/-- A busy figure and its maximum at the end of a window (R117, R211): CLR clears the maximum. -/
def State.busySet (s : State) (a m n : Nat) : State :=
  let s := s.setFld a ⟨0, 20⟩ (min n (2 ^ 20 - 1))
  if s.bit m ⟨31, 1⟩ then s.wr m 0 else s.maxFld m ⟨0, 20⟩ n

-- rows

/-- AUTH_NONCE (R486). -/
def execAuthNonce (cls : Principal) (s : State) : Host.Outcome State Fault Refusal := .next (s.authNonce cls)
/-- AUTH (R485). -/
def execAuth (cls : Principal) (signature : List Byte) (s : State) : Host.Outcome State Fault Refusal :=
  .next (s.auth cls signature)
/-- LOGOUT (R485). -/
def execLogout (cls : Principal) (s : State) : Host.Outcome State Fault Refusal := .next (s.logout cls)
/-- PROPOSE (R493). -/
def execPropose (by_ : Principal) (item : Item) (bytes : List Byte) (s : State) : Host.Outcome State Fault Refusal :=
  .next (s.propose by_ item bytes)
/-- CONFIRM (R493). -/
def execConfirm (by_ : Principal) (slot : PropIx) (digest : BitVec 384) (s : State) :
    Host.Outcome State Fault Refusal :=
  .next (s.confirm by_ slot digest)
/-- WITHDRAW (R493). -/
def execWithdraw (by_ : Principal) (slot : PropIx) (s : State) : Host.Outcome State Fault Refusal :=
  .next (s.withdraw by_ slot)
/-- HEDGEROW_PATCH (R313, R494): the staged entries, 1 to 64 of them; with any other COUNT nothing happens (DESIGN CHOICE, log
270). -/
def execHedgerowPatch (who : Principal × Principal) (s : State) : Host.Outcome State Fault Refusal :=
  let n := s.fld R.HG_PATCH_CTRL F.HG_PATCH_CTRL_COUNT
  .next (if n = 0 ∨ 64 < n then s else (s.itemRun (.hedgerow s.patchBuf) who.1 who.2).1)
/-- UPDATE_BEGIN (R496). -/
def execUpdateBegin (bank : Bank) (s : State) : Host.Outcome State Fault Refusal :=
  .next (s.mgRun true (fun s => s.updateBegin bank))
/-- UPDATE_WRITE (R486). -/
def execUpdateWrite (bank : Bank) (offset len : Nat) (s : State) : Host.Outcome State Fault Refusal :=
  .next (s.mgRun true (fun s => s.updateWrite bank offset len))
/-- UPDATE_END (R496). -/
def execUpdateEnd (bank : Bank) (crcOk sigOk : Bool) (svn : Nat) (ident : Word) (s : State) :
    Host.Outcome State Fault Refusal :=
  .next (s.mgRun true (fun s => s.updateEnd bank crcOk sigOk svn ident))
/-- ACTIVATE (R497). -/
def execActivate (bank : Bank) (sec : Nat) (s : State) : Host.Outcome State Fault Refusal :=
  .next (s.mgRun false (fun s => s.activate bank sec))
/-- ACTIVATE_DUE (R497). -/
def execActivateDue (s : State) : Host.Outcome State Fault Refusal := .next s.activateDue
/-- ACTIVATE_DROP (R497). -/
def execActivateDrop (s : State) : Host.Outcome State Fault Refusal := .next s.activateDrop
/-- SVN_COMMIT (R498). -/
def execSvnCommit (runSec : Nat) (s : State) : Host.Outcome State Fault Refusal :=
  .next (s.mgRun false (fun s => s.svnCommit runSec))
/-- RECLAIM (R414). -/
def execReclaim (mask : BitVec 16) (s : State) : Host.Outcome State Fault Refusal :=
  .next (s.mgRun false (fun s => (0, [], s.each ((List.range 16).filter mask.toNat.testBit) (fun s p => s.canReclaim p))))
/-- SENSORS (R486). -/
def execSensors (s : State) : Host.Outcome State Fault Refusal :=
  .next (let bar := s.mgBar true
    s.mgReply true bar (if bar = 0 then s.sensorWords else []))
/-- TRACE (R501). -/
def execTrace (on confirmed : Bool) (s : State) : Host.Outcome State Fault Refusal :=
  .next (s.mgRun false (fun s => s.trace on confirmed))
/-- SESSION_TIMEOUT (R485). -/
def execSessionTimeout (cls : Principal) (s : State) : Host.Outcome State Fault Refusal :=
  .next (s.mgEnd (classOf cls))
/-- AUTH_LOCKOUT_END (R485). -/
def execAuthLockoutEnd (s : State) : Host.Outcome State Fault Refusal :=
  .next { s with mg := { s.mg with fails := [], locked := false } }
/-- PROPOSAL_LAPSE (R493). -/
def execProposalLapse (slot : PropIx) (s : State) : Host.Outcome State Fault Refusal := .next (s.propLapse slot)
/-- ERASE_DONE (R501). -/
def execEraseDone (ok : Bool) (s : State) : Host.Outcome State Fault Refusal := .next (s.eraseDone ok)
/-- SENSOR_SAMPLE (R483). -/
def execSensorSample (temps volts : List Word) (vbat : Word) (clear : BitVec 37) (low : BitVec 16) (s : State) :
    Host.Outcome State Fault Refusal :=
  .next (s.sensorSample temps volts vbat clear.toNat low.toNat)
/-- LOCKSTEP_MISMATCH (R482). -/
def execLockstepMismatch (s : State) : Host.Outcome State Fault Refusal := .next s.lockstep
/-- MGMT_RESET (R482): the core runs again. -/
def execMgmtReset (s : State) : Host.Outcome State Fault Refusal :=
  .next { s with mg := { s.mg with down := false } }
/-- NVM_COPY (R490). -/
def execNvmCopy (ok : Bool) (s : State) : Host.Outcome State Fault Refusal := .next (s.nvmCopy ok)
/-- HUB_HARDWARE_LIMIT (R483). -/
def execHubHardwareLimit (s : State) : Host.Outcome State Fault Refusal := .next s.hubLimit
/-- CONSOLE_DISCONNECT (R485). -/
def execConsoleDisconnect (s : State) : Host.Outcome State Fault Refusal := .next (s.mgEnd 1)
/-- BUSY_WINDOW_END (R117, R211). -/
def execBusyWindowEnd (clusters nets : List Nat) (s : State) : Host.Outcome State Fault Refusal :=
  let s := s.each ((List.range 128).zip clusters) (fun s e => s.busySet (R.LC_BUSY e.1) (R.LC_BUSY_MAX e.1) e.2)
  .next (s.each ((List.range 16).zip nets) (fun s e => s.busySet (R.NE_BUSY e.1) (R.NE_BUSY_MAX e.1) e.2))

end Sys2Proof.Machine
end

