-- ==== Sys2Proof/Machine/Host.lean ====
section
/-!
DEFINITION. The host interface (R448 to R467): the write of a BAR0 word with the effect of each register block, reads, BAR2,
the rings and their descriptors, and the commands with their completions.
-/
namespace Sys2Proof.Machine

-- the address map

/-- A host input word (R452). -/
def busInput (a : Nat) : Option Nat :=
  if 0x43C000 ≤ a ∧ a < 0x43E000 then some ((a - 0x400000) / 4) else none
/-- A read-only window (R208, R241, R315, R452, R491). -/
def busWindow (a : Nat) : Bool :=
  (0x400000 ≤ a && a < 0x480000) || (0x50000 ≤ a && a < 0x60000) || (0x90000 ≤ a && a < 0xB4000) ||
    (0xC0000 ≤ a && a < 0x100000) || (0x210000 ≤ a && a < 0x220000) || (0x9000 ≤ a && a < 0x9020) ||
    (0x1000000 ≤ a && a < 0x2000000 &&
      (let o := a % 0x100000
       (0x48000 ≤ o && o < 0x58000) || (0xC0000 ≤ o && o < 0xE0000)))
/-- Registers that are served before step 5 of start-up completes (R512): in HALT those of the mailbox (R515). -/
def State.busServed (s : State) (a : Nat) : Bool :=
  s.boot.up || (s.phase = 15 && 0x200000 ≤ a && a < 0x203000)
/-- The refusal that an offset gives any write (R3, R450, R451, R512), 0 for none. -/
def State.busWhy (s : State) (a : Nat) : Nat :=
  if a % 4 ≠ 0 then 11
  else if a ≥ 0x4000000 || !s.busServed a || s.busLacks a then 4
  else if (busInput a).isSome || (0x8000 ≤ a && a < 0x9000) then 0
  else if busWindow a then 3
  else match Reg.row a with
    | none => 4
    | some r => if r.rw = 0 ∧ r.w1c = 0 ∧ r.cmd = 0 then 3 else 0
/-- A write of an RW or RWAC field. -/
def busSets (a : Nat) (m : Word) : Bool :=
  match Reg.row a with
  | some r => m &&& Word.ofN (r.rw ||| r.cmd) ≠ 0
  | none => false
/-- A write that becomes an entry of the sequenced input log (R116, R117, R141, R181, R182, R230, R268, R279, R315, R380,
R417, R452, R481). -/
def busLogged (a : Nat) (v m : Word) : Bool :=
  if (busInput a).isSome then true
  else if 0x1000000 ≤ a then
    let o := a % 0x100000
    if o < 0x10000 then true
    else if o < 0x20000 then o % 0x100 = 0x20 || (0x40 ≤ o % 0x100 && o % 0x100 < 0x80)
    else if o < 0x30C04 then busSets a m
    else 0x31000 ≤ o && o < 0x31400 && busSets a m
  else if 0x180000 ≤ a then a < 0x190000 && busSets a m
  else if 0x100000 ≤ a then a % 0x20000 = 0x118
  else if 0x80000 ≤ a then a = R.HG_CMD || (0x81000 ≤ a && a < 0x82000)
  else if 0x40000 ≤ a then a < 0x60000 && busSets a m
  else if a = R.CV_BIST_CMD then F.CV_BIST_CMD_GO.get (v &&& m) = 1
  else (0x20000 ≤ a && a < 0x24000) || (0x10000 ≤ a && a < 0x20000 && busSets a m)

-- the effect of a write, by block

/-- A register cleared by its CLR bit. -/
def State.busClear (s : State) (a : Nat) (v m : Word) : State := if regCmd a v m ≠ 0 then s.wr a 0 else s
/-- The cluster page (R117, R141, R474). -/
def State.busCluster (s : State) (c a : Nat) (v m tag : Word) : State × Nat :=
  if a = R.LC_LAW_DATA c then
    let w := s.fld (R.LC_LAW_ADDR c) F.LC_LAW_ADDR_WORD
    let old : Word := Smap.get (fun _ => 0) s.lawMem (4096 * c + w)
    let (s, st) := s.lawWrite c w ((old &&& ~~~ m) ||| (v &&& m))
    ((s.lawTouch c).lawAdvance c, st)
  else if 0x40 ≤ a % 0x100 ∧ a % 0x100 < 0x80 then s.busSwatch c a v m tag
  else if a = R.LC_SEN_CMD c then (if regCmd a v m ≠ 0 then (s.senClear c, 0) else (s, 0))
  else if a = R.LC_BUSY_MAX c then (s.wr a (s.rd a ||| regCmd a v m), 0)
  else (s.regWrite a v m, 0)
/-- A slot drives the duty of a pair (R277). -/
def State.pairDriven (s : State) (p : Nat) : Bool :=
  s.usedSlots.any (fun k => k / 256 = p / 12 && s.fld (R.LE_OUT_DST k) F.LE_OUT_DST_KIND = 2 &&
    s.fld (R.LE_OUT_DST k) F.LE_OUT_DST_PAIR = p % 12)
/-- A PWM pair (R275, R277, R288, R298). -/
def State.busPair (s : State) (p a : Nat) (v m tag : Word) : State × Nat :=
  if !s.fieldMode then (s, 1)
  else if !busSets a m then (s.regWrite a v m, 0)
  else if s.bit (R.PW_STAT p) F.PW_STAT_STEPPER || (a = R.PW_DUTY p && s.pairDriven p) then (s, 2)
  else if a = R.PW_COMMIT p then
    (s.when (regCmd a v m ≠ 0 && s.pwOwn p) (fun s => s.pwCommit p [p] tag), 0)
  else
    let m := if a = R.PW_DUTY p ∧ s.bit (R.PW_CFG p) F.PW_CFG_DUTY_FRAC = false then m &&& 0x1FFFFFFF else m
    ((s.regWrite a v m).when (s.bit (R.PW_CFG p) F.PW_CFG_AUTO_COMMIT && s.pwOwn p) (fun s => s.pwCommit p [p] tag), 0)
/-- CE configuration, which an engine takes in IDLE and DONE only, and its commands (R336). -/
def State.busCapture (s : State) (r a : Nat) (v m : Word) (now : Nat) : State × Nat :=
  if a = R.CE_CTRL r then
    let c := regCmd a v m
    let s := s.when (F.CE_CTRL_DISARM.get c = 1) (fun s => s.ceDisarm r now)
    let s := s.when (F.CE_CTRL_ARM.get c = 1) (fun s => s.ceArm r)
    (s.when (F.CE_CTRL_FORCE.get c = 1) (fun s => s.ceTrigger r 3 now now), 0)
  else if a ≠ R.CE_STAT r ∧ s.ceState r ≠ 0 ∧ s.ceState r ≠ 5 then (s.set1 (R.CE_STAT r) F.CE_STAT_BAD_CFG, 0)
  else (s.regWrite a v m, 0)
/-- The window of a region (R452). -/
def State.busRegion (s : State) (a : Nat) (v m : Word) (off : Nat) : State × Nat :=
  let n := (a - 0x1000000) / 0x100000
  let o := a % 0x100000
  let tag := s.tag off
  if o < 0x10000 then
    let k := 256 * n + 32 * (o / 0x2000) + o % 0x2000 / 0x100
    match s.slotHostWhy k a v m with
    | 0 => (s.slotHostAt k a v m tag, 0)
    | c => (s, c)
  else if o < 0x20000 then s.busCluster (8 * n + o % 0x10000 / 0x100) a v m tag
  else if o < 0x30000 then s.busAxis (8 * n + o % 0x10000 / 0x400) a v m
  else if o < 0x30C00 then s.busPair (12 * n + o % 0x10000 / 0x100) a v m tag
  else if o = 0x30C00 then
    if s.fieldMode then (s.pwGroup n (regCmd a v m).toNat tag, 0) else (s, 1)
  else if o < 0x40000 then
    if 0x31000 ≤ o && o < 0x31400 && o % 0x40 = 0xC && s.stepSense (12 * n + o % 0x1000 / 0x40) then (s, 0)
    else (s.regWrite a v m, 0)
  else if a = R.NE_BUSY_MAX n then (s.wr a (s.rd a ||| regCmd a v m), 0)
  else if 0x61000 ≤ o ∧ o < 0x63000 then (s.busClear a v m, 0)
  else if 0x80000 ≤ o ∧ o < 0xC0000 then s.busCapture n a v m (s.now off)
  else (s.regWrite a v m, 0)
/-- The hub scheduler, the forces and the on-line change (R230, R233, R241 to R243). -/
def State.busHub (s : State) (a : Nat) (v m : Word) : State × Nat :=
  let c := regCmd a v m
  if a = R.TK_OLC_CTRL then
    let s := s.regWrite a v m
    if c = 0 then (s, 0) else (s.olcApply, if s.fieldMode then 0 else 1)
  else
    let s := s.regWrite a v m
    if a = R.TK_CTL_CMD then
      match F.TK_CTL_CMD_CODE.get c with
      | 0 => (s, 0)
      | 3 => if s.mode = 1 then (s, 0) else (s.setFld R.TK_CTL F.TK_CTL_RLD_CAUSE 1, 1)
      | n => s.ctlCommand n
    else if a = R.TK_TASK_CMD then
      match F.TK_TASK_CMD_CODE.get c with
      | 0 => (s, 0)
      | n => s.taskCommand (s.fld a F.TK_TASK_CMD_REGION) (s.fld a F.TK_TASK_CMD_TASK) n
    else if a = R.TK_FRC_CMD then
      match F.TK_FRC_CMD_CODE.get c with
      | 0 => (s, 0)
      | n => (s.forceCommand n (s.fld a F.TK_FRC_CMD_INDEX), if n = 1 ∧ s.mode ≠ 1 then 1 else 0)
    else (s, 0)
/-- A station command (R377). -/
def State.busStation (s : State) (a : Nat) (v m : Word) : State × Nat :=
  let r := (a - 0x100000) / 0x20000
  let s := s.regWrite a v m
  let code := F.FP_STN_CMD_CODE.get (regCmd a v m)
  let i := s.fld a F.FP_STN_CMD_STN
  let st := R.FP_STN_CMD_STAT r
  if code = 0 then (s, 0)
  else if i ≥ 126 then ((s.setB st F.FP_STN_CMD_STAT_BUSY (s.logAwaits a)).setFld st F.FP_STN_CMD_STAT_CAUSE 3, 0)
  else
    let s := s.stnCommand (126 * r + i) code
    (s, if s.fld st F.FP_STN_CMD_STAT_CAUSE = 1 then 1 else 0)
/-- A CAN port's registers (R401 to R403, R411, R413). -/
def State.busCan (s : State) (a : Nat) (v m tag : Word) : State × Nat :=
  let p := (a - 0x180000) / 0x1000
  let o := a % 0x1000
  if o = 4 then (s.canMode p (F.CF_MODE_REQ.get (s.regValue a v m)) tag, 0)
  else if o = 8 ∨ o = 0xC ∨ o = 0x10 then
    if !s.fieldMode then (s, 1)
    else if o = 0x10 ∧ p % 4 ≠ 0 then (s, 3)
    else (s.canTiming p ((o - 8) / 4) (s.regValue a v m), 0)
  else if o = 0x1C then
    let s := s.regWrite a v m
    match F.CF_CMD_CODE.get (regCmd a v m) with
    | 1 => (s.canRecover p, 0)
    | 2 => (s.canCancel p (s.fld a F.CF_CMD_ENTRY), 0)
    | 3 => (s.abdRestart p tag, 0)
    | _ => (s, 0)
  else (s.regWrite a v m, 0)
/-- XL_CMD (R427, R428): HANDOVER and TAKE wait for their two-party change. -/
def State.xlCommand (s : State) (code : Nat) : State :=
  match code with
  | 1 => s.xlAsk false
  | 2 => if s.role ≠ 1 then s.xlCause 1 else if s.partnerFit then s.xlCause 2 else s.xlCause 4
  | 3 => if s.paired && s.pairState = 3 then s.xlCause 2 else s.xlCause 1
  | 4 => s.xlAsk true
  | _ => s
/-- The check-value unit and BIST (R477 to R479, R481). -/
def State.busCv (s : State) (a : Nat) (v m : Word) : State × Nat :=
  let c := regCmd a v m
  if a = R.CV_CTL then
    ((s.regWrite a v m).cvShow.when (c ≠ 0) (fun s => s.setCv s.cvPoly.init), 0)
  else if a = R.CV_DATA then (if s.cvBusy then (s, 11) else (s.cvFeed (Word.bytes (v &&& m)), 0))
  else if a = R.CV_DATA_B then (if s.cvBusy then (s, 11) else (s.cvFeed [BitVec.ofNat 8 (v &&& m).toNat], 0))
  else if a = R.CV_DMA_CMD then (s.when (c ≠ 0) State.cvDmaGo, 0)
  else if a = R.CV_VALUE_LO ∨ a = R.CV_VALUE_HI then ((s.regWrite a v m).cvShow, 0)
  else if a = R.CV_CMD then
    if c = 1 ∧ s.mode ≠ 0 ∧ s.mode ≠ 1 then (s, 1) else (s.cvCommand c.toNat, 0)
  else if a = R.CV_BIST_CMD then
    let s := s.regWrite a v m
    if c = 0 then (s, 0)
    else (s.bistGo (s.fld a F.CV_BIST_CMD_MASK), if s.mode = 0 ∨ s.mode = 1 then 0 else 1)
  else if 0x2E100 ≤ a ∧ a < 0x2E200 ∧ c ≠ 0 then ((s.regWrite a v m).cvChGo ((a - 0x2E100) / 32), 0)
  else (s.regWrite a v m, 0)
/-- The time base (R389, R395, R396) and the cycle registers. -/
def State.busTime (s : State) (a : Nat) (v m : Word) : State :=
  if a = R.TM_SET_CMD then
    match (regCmd a v m).toNat with
    | 1 => s.tmCommand true
    | 2 => s.tmCommand false
    | _ => s
  else if a = R.TM_RTC_SEC_LO then { s with tm := { s.tm with rtcLo := (s.tm.rtcLo &&& ~~~ m) ||| (v &&& m) } }
  else if a = R.TM_RTC_SEC_HI then s.rtcWrite (s.regValue a v m)
  else if a = R.TM_PH_MAX_N ∨ a = R.TM_PH_MAX_S ∨ a = R.TM_PH_MAX_L then s.wr a (s.rd a ||| regCmd a v m)
  else s.regWrite a v m
/-- The record streamer (R317, R318, R325, R331, R351). -/
def State.busStreamer (s : State) (a : Nat) (v m : Word) (now : Nat) : State :=
  let c := regCmd a v m
  if a = R.RS_CTRL then
    (s.streamMask (F.RS_CTRL_ENABLE.get (s.regValue a v m)) now).when (c ≠ 0) (fun s => s.recFlush (List.range 8))
  else if a = R.RS_USER_MARK then s.userMark (v &&& m) 0xFF 0 0 now
  else if a = R.RS_SPEC_CMD then s.when (c ≠ 0) (fun s => s.specWrite)
  else if a = R.RS_RATE_MAX ∨ a = R.RS_STAGE_MAX ∨ (0x60100 ≤ a ∧ a < 0x60200) then s.busClear a v m
  else s.regWrite a v m
/-- The trigger bus (R347, R348, R353): a recalibration ends with its measurements. -/
def State.busTrigger (s : State) (a : Nat) (v m : Word) (now : Nat) : State :=
  let s := s.regWrite a v m
  let c := regCmd a v m
  if a = R.TB_CMD then
    (s.when (F.TB_CMD_PULSE.get c = 1) (fun s => s.busPulse (s.fld a F.TB_CMD_LINE) now true)).when
      (F.TB_CMD_CAL.get c = 1) (fun s =>
        ((s.set1 a F.TB_CMD_CAL).setFld R.TB_STAT F.TB_STAT_CAL_DONE 0).tbCalStart)
  else s
/-- RESET with EN = 0 (R458): HEAD and the counters are 0, and nothing is posted. -/
def State.ringClear (s : State) (k : Nat) : State :=
  (((s.wr (R.HI_RING_HEAD k) 0).wr (R.HI_RING_CNT k) 0).wr (R.HI_RING_LOST k) 0).setHringX k
    { (default : HRingX) with carried := (s.hringX k).carried }
/-- A ring's registers (R457, R458): BASE and CFG only while EN is 0. -/
def State.busRing (s : State) (a : Nat) (v m : Word) : State × Nat :=
  let k := (a - 0x2C000) / 0x40
  let o := a % 0x40
  let ctl := R.HI_RING_CTRL k
  if o ≤ 8 ∧ s.bit ctl F.HI_RING_CTRL_EN = true then (s, 12)
  else
    let s := s.regWrite a v m
    if o = 0xC ∧ F.HI_RING_CTRL_RESET.get (regCmd a v m) = 1 ∧ s.bit ctl F.HI_RING_CTRL_EN = false then (s.ringClear k, 0)
    else (s, 0)
/-- The MSI-X table (R455): a vector that is unmasked while its pending bit is set is sent. -/
def State.busMsix (s : State) (a : Nat) (v m : Word) : State :=
  let s := s.wr a ((s.rd a &&& ~~~ m) ||| (v &&& m))
  let n := (a - 0x8000) / 16
  let pba := 0x9000 + 4 * (n / 32)
  if a % 16 = 12 ∧ s.bit a ⟨0, 1⟩ = false ∧ s.bit pba ⟨n % 32, 1⟩ = true then (s.setFld pba ⟨n % 32, 1⟩ 0).msix n else s
/-- The mailbox command register (R12, R486): GO starts a command and stands until it completes; another is refused while
one runs. -/
def State.busMailbox (s : State) (v m : Word) : State × Nat :=
  let go : Bool := regCmd R.MG_MBX_CMD v m ≠ 0
  if go && s.mbxBusy then (s, 11)
  else ((s.regWrite R.MG_MBX_CMD v m).when go (fun s =>
    ((s.setFld R.MG_MBX_STAT F.MG_MBX_STAT_DONE 0).set1 R.MG_MBX_STAT F.MG_MBX_STAT_BUSY).set1 R.MG_MBX_CMD
      F.MG_MBX_CMD_GO), 0)
/-- Registers below 0x1_0000 (R451, R454). -/
def State.busGlobal (s : State) (a : Nat) (v m : Word) : State :=
  if 0x8000 ≤ a then s.busMsix a v m
  else if a = R.HI_WERR_STAT ∧ (v &&& m).getLsbD 5 = true then s.wr a 0
  else s.regWrite a v m
/-- The effect of one BAR0 write of the bits of a mask, `off` ns after t0, with its status (R451). -/
def State.busWord (s : State) (a : Nat) (v m : Word) (off : Nat) : State × Nat :=
  match s.busWhy a with
  | 0 =>
    let tag := s.tag off
    match busInput a with
    | some w => if s.fieldMode then (s.setInput w ((s.rd a &&& ~~~ m) ||| (v &&& m)), 0) else (s, 1)
    | none =>
      if 0x1000000 ≤ a then s.busRegion a v m off
      else if a = R.MG_MBX_CMD then s.busMailbox v m
      else if 0x200000 ≤ a then (s.regWrite a v m, 0)
      else if 0x180000 ≤ a then s.busCan a v m tag
      else if 0x100000 ≤ a then
        if a % 0x20000 = 0x118 then s.busStation a v m
        else if a % 0x20000 = 0x120 then (s.busClear a v m, 0) else (s.regWrite a v m, 0)
      else if a = R.HG_CMD then
        let s := s.regWrite a v m
        (s.hgCommand (F.HG_CMD_CODE.get (regCmd a v m)) (s.fld a F.HG_CMD_TERM) (s.now off), 0)
      else if 0x80000 ≤ a then (s.regWrite a v m, 0)
      else if 0x70000 ≤ a then (s.busTrigger a v m (s.now off), 0)
      else if 0x60000 ≤ a then (s.busStreamer a v m (s.now off), 0)
      else if 0x40000 ≤ a then s.busHub a v m
      else if 0x30000 ≤ a then (s.busTime a v m, 0)
      else if 0x2E000 ≤ a then s.busCv a v m
      else if 0x2C000 ≤ a then s.busRing a v m
      else if a = R.KA_CMD then
        match (regCmd a v m).toNat with
        | 1 => (s.warmCommand false, 0)
        | 2 => (s.warmCommand true, 0)
        | _ => (s, 0)
      else if a = R.XL_CMD then (s.xlCommand (regCmd a v m).toNat, 0)
      else if 0x24000 ≤ a then (s.regWrite a v m, 0)
      else if 0x20000 ≤ a then (s.busRecipe a v m, 0)
      else if 0x10000 ≤ a then s.busLane ((a - 0x10000) / 0x1000) a v m tag
      else (s.busGlobal a v m, 0)
  | c => (s, c)
/-- A BAR0 write whose refusal is recorded (R451). -/
def State.busApply (s : State) (a : Nat) (v m : Word) (off : Nat) : State :=
  let (t, st) := s.busWord a v m off
  t.werrIf a st

-- arrival

/-- A holder copies a recipe or the staged group to its partner before it assigns the entry its cycle (R148, R242). -/
def State.busCopy (s : State) (a : Nat) (v m : Word) : State :=
  if a = R.SQ_RCP_CTRL ∧ F.SQ_RCP_CTRL_VALIDATE.get (regCmd a v m) = 1 then
    s.bulkSend true (s.rcpWords (F.SQ_RCP_CTRL_RECIPE.get (s.regValue a v m)))
  else if a = R.TK_OLC_CTRL ∧ regCmd a v m ≠ 0 then
    s.bulkSend false ((List.range (4 * F.TK_OLC_CTRL_COUNT.get (s.regValue a v m))).map (fun i =>
      (0x41000 + 4 * i, s.rd (0x41000 + 4 * i))))
  else s
/-- BUSY of a command that awaits its cycle (R241, R243, R380). -/
def State.busWait (s : State) (a : Nat) (v m : Word) : State :=
  if regCmd a v m = 0 then s
  else if a = R.TK_FRC_CMD then s.set1 R.TK_FRC_STAT F.TK_FRC_STAT_BUSY
  else if a = R.TK_OLC_CTRL then s.set1 R.TK_OLC_STAT F.TK_OLC_STAT_BUSY
  else if 0x100000 ≤ a ∧ a < 0x180000 ∧ a % 0x20000 = 0x118 then
    s.set1 (R.FP_STN_CMD_STAT ((a - 0x100000) / 0x20000)) F.FP_STN_CMD_STAT_BUSY
  else s
/-- An APPLY while a group awaits its cycle fails (R243). -/
def State.olcRefuse (s : State) : State :=
  (s.setFld R.TK_OLC_STAT F.TK_OLC_STAT_CAUSE 2).set1 R.TK_OLC_STAT F.TK_OLC_STAT_DONE
/-- A logged write reaches the hub: it takes its place in the log (R60, R117). While an on-line change awaits its cycle,
its buffer takes no write and a further APPLY fails (R242, R243). -/
def State.busLog (s : State) (a : Nat) (v : Word) (tag : Word) : State :=
  let all : Word := 0xFFFFFFFF
  let busy := s.bit R.TK_OLC_STAT F.TK_OLC_STAT_BUSY
  if 0x1000000 ≤ a ∧ 0x10000 ≤ a % 0x100000 ∧ a % 0x100000 < 0x10800 ∧ a % 0x100 = 0x20 then
    let c := 8 * ((a - 0x1000000) / 0x100000) + a % 0x10000 / 0x100
    (s.logAdd tag (.lawWrite (Fin.ofNat 128 c) (s.fld (R.LC_LAW_ADDR c) F.LC_LAW_ADDR_WORD) v)).lawTouch c |>.lawAdvance c
  else if busy && 0x41000 ≤ a && a < 0x42000 then s
  else if busy && a = R.TK_OLC_CTRL && regCmd a v all ≠ 0 then
    s.olcRefuse
  else ((s.busCopy a v all).busWait a v all).logAdd tag (.hostWrite a v all)
/-- A 4-byte BAR0 write arrives (R451): it acts at once, or becomes a log entry, or is refused. -/
def State.busArrive (s : State) (a : Nat) (v : Word) (off : Nat) : State :=
  let all : Word := 0xFFFFFFFF
  let why := s.busWhy a
  if why ≠ 0 then s.werr false a why
  else if busLogged a v all then
    if s.role = 2 then s.werr false a 6 else s.busLog a v (s.tag off)
  else s.busApply a v all off
/-- A BAR2 write (R144, R145, R147, R453): the reserved part of the store and the bits that the device sets stay. -/
def State.bar2Write (s : State) (a : Nat) (bs : List Byte) : State :=
  let n := bs.length
  if !s.boot.up then s.werr true a 4
  else if a + n > 0x4000000 then s.werr true a 3
  else if (List.range n).any (fun i => s.rcpProtects (a + i)) then s.werr true a 10
  else s.each ((List.range n).zip bs) (fun s e =>
    let x := a + e.1
    if 0x4000 ≤ x ∧ x < 0x10000 then s
    else if x < 0x4000 ∧ x % 64 = 0 then s.setDbyte x ((e.2 &&& 0xFC) ||| (s.dbyte x &&& 3))
    else s.setDbyte x e.2)
/-- A PCIe write arrives (R450, R451). -/
def State.pcieWrite (s : State) (bar2 : Bool) (a : Nat) (bs : List Byte) (off : Nat) : State :=
  if s.hostDown then s
  else if bar2 then s.bar2Write a bs
  else if bs.length = 4 ∧ a % 4 = 0 then s.busArrive a (Word.ofBytes bs) off
  else if bs.length = 8 ∧ a % 8 = 0 then
    (s.busArrive a (Word.ofBytes (bs.take 4)) off).busArrive (a + 4) (Word.ofBytes (bs.drop 4)) off
  else s.werr false a 11

-- reads

/-- The record with a SEQ, as the event window returns it (R487, R491). -/
def State.evWords (s : State) (q : Word) : List Word :=
  let ok : Bool := (q - s.rd R.EV_OLDEST_SEQ).toNat ≤ (s.rd R.EV_HEAD_SEQ - s.rd R.EV_OLDEST_SEQ).toNat
  match (s.evNvm ++ s.evStage).find? (fun r => r.seq = q) with
  | some r =>
    if !ok then List.replicate 8 0xFFFFFFFF
    else
      let fl := r.cls + (if r.pair then 8 else 0) + 16 * s.unit + (if r.lost then 32 else 0)
      let ws := [r.seq, Word.ofN (r.code + r.src * 2 ^ 16), Word.ofN r.optime, Word.ofN (r.pcyc + fl * 2 ^ 24), r.p0, r.p1,
        r.p2]
      ws ++ [Word.ofN (Crc.of 2 (wordBytes ws))]
  | none => List.replicate 8 0xFFFFFFFF
/-- A read of a BAR0 word at a device time, with the state that it leaves (R117, R318, R396, R450, R491, R512). -/
def State.busRead (s : State) (a now : Nat) : Word × State :=
  if a % 4 ≠ 0 || a ≥ 0x4000000 || s.busLacks a then (0, s)
  else if !s.boot.up && !(a < 0xC || (0x220000 ≤ a && a < 0x230000) || s.busServed a) then (0, s)
  else if 0x210000 ≤ a ∧ a < 0x220000 then
    ((s.evWords (s.rd R.EV_WIN_BASE + Word.ofN ((a - 0x210000) / 32))).getD (a % 32 / 4) 0, s)
  else if 0x60024 ≤ a ∧ a < 0x60034 then (s.specWord (s.fld R.RS_SPEC_IDX F.RS_SPEC_IDX_INDEX) ((a - 0x60024) / 4), s)
  else if 0x1000000 ≤ a ∧ 0x10000 ≤ a % 0x100000 ∧ a % 0x100000 < 0x10800 ∧ a % 0x100 = 0x20 then
    let s := s.lawRead (8 * ((a - 0x1000000) / 0x100000) + a % 0x10000 / 0x100)
    (s.rd a, s)
  else if a = R.TM_NOW_NS then
    let s := s.tmNow now
    (s.rd a, s)
  else if 0x1000000 ≤ a ∧ 0x31000 ≤ a % 0x100000 ∧ a % 0x100000 < 0x31300 ∧ a % 0x40 = 0x18 then
    let s := s.sdiAges (12 * ((a - 0x1000000) / 0x100000) + a % 0x1000 / 0x40) now
    (s.rd a, s)
  else (s.rd a, s)
/-- Consecutive words in address order. -/
def State.busReads (s : State) (a now n : Nat) : List Word × State :=
  match n with
  | 0 => ([], s)
  | k + 1 =>
    let (w, s) := s.busRead a now
    let (ws, s) := s.busReads (a + 4) now k
    (w :: ws, s)

-- commands

/-- A malformed command (R460). -/
def cmdBad (d : Desc) : Bool :=
  match d.opc with
  | 1 => d.p0.toNat % 4 ≠ 0
  | 2 => d.p0.toNat % 4 ≠ 0 || d.len % 4 ≠ 0 || d.len < 4 || d.len > 1024
  | 3 => d.p0.toNat % 4 ≠ 0 || d.len % 4 ≠ 0 || d.len < 4 || d.len > 4096
  | 4 => d.len > 64
  | 5 => d.p1.toNat % 4 ≠ 0 || d.len < 1 || d.len > 1024
  | 6 => false
  | _ => true
/-- A completion is written (R462); DESC_ERR shows a descriptor that completed with BAD_DESC (R458). -/
def State.cmdDone (s : State) (cyc lseq : Word) (m : CmdMember) (status len : Nat) (word : Word) : State :=
  let s := s.when (status = 5) (fun s => s.set1 (R.HI_RING_STAT m.ring) F.HI_RING_STAT_DESC_ERR)
  let ws := [Word.ofN len, cyc, lseq, Word.ofN (status + m.ring * 2 ^ 16 + m.desc.opc % 256 * 2 ^ 24), Word.ofN m.slot, word, 0]
  match s.ringFill (8 + m.ring) 1 m.desc.tag (status ≠ 0) ws m.desc.irq with
  | some s => s
  | none => s
/-- A write of a member: while an on-line change awaited its cycle as the command was read, the change buffer takes no write
and APPLY is gone (R242, R243). -/
def memberWrite (busy : Bool) (w : Nat × Word × Word) : Nat × Word × Word :=
  if !busy then w
  else if 0x41000 ≤ w.1 ∧ w.1 < 0x42000 then (w.1, w.2.1, 0)
  else if w.1 = R.TK_OLC_CTRL then (w.1, w.2.1, w.2.2 &&& ~~~ F.TK_OLC_CTRL_APPLY.mask)
  else w
/-- Writes of a command, in address order: the first refusal with its index. -/
def State.cmdWriteAll (s : State) (i : Nat) (bad : Option (Nat × Nat)) (ws : List (Nat × Word × Word)) :
    State × Option (Nat × Nat) :=
  match ws with
  | [] => (s, bad)
  | (a, v, m) :: t =>
    let (s, c) := s.busWord a v m 0
    s.cmdWriteAll (i + 1) (if bad.isNone ∧ c ≠ 0 then some (i, c) else bad) t
/-- An item of CLASS HOST for a flow (R224, R460). -/
def State.cmdItem (s : State) (f src : Nat) (tag : Word) (data : List Byte) : State × Nat :=
  let off : Bool := match s.flowTask f with
    | some t => s.taskState (s.flowRegion f) t = 0
    | none => true
  if !s.bit (R.FL_CFG f) F.FL_CFG_USED || off then (s, 7) else (s.flowItem f ⟨2, src, tag, data⟩ tag, 0)
/-- A parameter-space request for a station (R362, R460), or its refusal; 504 stands for an index that no station has. -/
def State.cmdMailbox (s : State) (cyc lseq : Word) (k : Nat) (wr : Bool) (paddr len : Nat) (data : List Byte)
    (m : CmdMember) : State × Nat :=
  if k < 504 && s.stnUsed k && s.stnState k = 3 then
    ({ s with mails := s.mails ++ [⟨k, wr, paddr, len, data, m, cyc, lseq, false⟩] }, 0)
  else (s, 8)
/-- A command takes its effect at t0 of its assigned cycle and completes, except a request that a station answers (R460 to
R462). -/
def State.cmdRun (s : State) (cyc lseq tag : Word) (bad : Bool) (m : CmdMember) : State :=
  let d := m.desc
  if bad || cmdBad d then s.cmdDone cyc lseq m 5 0 0
  else match d.opc with
    | 1 =>
      let (s, e) := s.cmdWriteAll 0 none ((cmdWrites d).map (memberWrite m.busy))
      s.cmdDone cyc lseq m ((e.map (fun e => e.2)).getD 0) 0 0
    | 2 =>
      let (s, e) := s.cmdWriteAll 0 none ((cmdWrites d).map (memberWrite m.busy))
      s.cmdDone cyc lseq m ((e.map (fun e => e.2)).getD 0) d.len (Word.ofN ((e.map (fun e => e.1)).getD 0))
    | 3 =>
      if s.acts then
        let (ws, s) := s.busReads d.p0.toNat s.t0 (d.len / 4)
        (s.hostPut d.addr (Word.bytesAll ws)).cmdDone cyc lseq m 0 d.len 0
      else s
    | 4 =>
      let (s, c) := s.cmdItem (d.p0.toNat % 1024) m.ring tag (d.data.take d.len)
      s.cmdDone cyc lseq m c d.len 0
    | 5 =>
      let p := d.p0.toNat
      let i := p / 4 % 128
      let (s, c) := s.cmdMailbox cyc lseq (if i < 126 then 126 * (p % 4) + i else 504) (p.testBit 16) d.p1.toNat d.len (d.data.take d.len) m
      if c = 0 then s else s.cmdDone cyc lseq m c 0 0
    | _ => s.cmdDone cyc lseq m 0 0 0
/-- READ_BLOCKs of an entry are taken after the entries of the cycle (R460). -/
def cmdReads (ms : List CmdMember) : List CmdMember := ms.filter (fun m => m.desc.opc = 3)
/-- A HOST_CMD entry applies: its members in order, without READ_BLOCKs; a chain of more than 64 is malformed (R461). -/
def State.cmdEntry (s : State) (e : LogEntry) (ms : List CmdMember) : State :=
  s.each (ms.filter (fun m => m.desc.opc ≠ 3 || decide (ms.length > 64))) (fun s m =>
    s.cmdRun e.cyc e.lseq e.tag (decide (ms.length > 64)) m)
/-- The READ_BLOCKs of an entry. -/
def State.cmdEntryReads (s : State) (e : LogEntry) (ms : List CmdMember) : State :=
  if ms.length > 64 then s else s.each (cmdReads ms) (fun s m => s.cmdRun e.cyc e.lseq e.tag false m)

-- the rings

/-- The first chain of descriptors, if it is complete (R461), and the rest. -/
def chainSplit : List Desc → Option (List Desc × List Desc)
  | [] => none
  | d :: t =>
    if !d.own then none
    else if d.chain then (chainSplit t).map (fun x => (d :: x.1, x.2)) else some ([d], t)
/-- Advance HEAD by n slots. -/
def State.ringSkip (s : State) (k n : Nat) : State :=
  match n with
  | 0 => s
  | m + 1 => (s.ringAdvance k).ringSkip k m
/-- The commands of a ring are read (R148, R241 to R243): as with BAR0 writes, what they write is copied to the partner, a
command that awaits its cycle shows BUSY, and while a group awaits its cycle a further APPLY fails. -/
def State.cmdRead (s : State) : List CmdMember → List CmdMember × State
  | [] => ([], s)
  | m :: t =>
    let busy := s.bit R.TK_OLC_STAT F.TK_OLC_STAT_BUSY
    let ws := (cmdWrites m.desc).map (memberWrite busy)
    let again : Bool := busy && (cmdWrites m.desc).any (fun w => w.1 = R.TK_OLC_CTRL && regCmd w.1 w.2.1 w.2.2 ≠ 0)
    let s := s.each ws (fun s w => (s.busCopy w.1 w.2.1 w.2.2).busWait w.1 w.2.1 w.2.2)
    let (t, s) := (s.when again State.olcRefuse).cmdRead t
    ({ m with busy := busy } :: t, s)
/-- The descriptors of the commands that have been read go back to software with OWN = 0 (R457). -/
def State.cmdBack (s : State) (ms : List CmdMember) : State :=
  s.each ms (fun s m =>
    let d := m.desc
    s.emit (.ring m.ring m.slot d.opc d.tag false
      [Word.ofN d.len, Word.ofN d.addr, Word.ofN (d.addr / 2 ^ 32), d.p0, d.p1, d.p2, d.p3]))
/-- Read the commands that stand on a command ring from HEAD on (R457, R461): each one or chain becomes a log entry when
its completions have free slots, and otherwise waits with STALL. -/
def State.cmdTake (s : State) (k fuel : Nat) (descs : List Desc) (tag : Word) : State :=
  match fuel, chainSplit descs with
  | n + 1, some (ds, rest) =>
    let c := s.hringX (8 + k)
    let x := s.hringX k
    if !s.ringServed (8 + k) || c.posted.length < c.resv + ds.length then
      (s.setHringX k { x with wait := descs }).set1 (R.HI_RING_STAT k) F.HI_RING_STAT_STALL
    else
      let head := s.fld (R.HI_RING_HEAD k) F.HI_RING_HEAD_INDEX
      let size := 2 ^ s.fld (R.HI_RING_CFG k) F.HI_RING_CFG_LOG2
      let ms : List CmdMember := (List.range ds.length).zip ds |>.map (fun e => ⟨k, (head + e.1) % size, e.2, false⟩)
      let s := s.setHringX (8 + k) { c with resv := c.resv + ds.length }
      let s := (s.setHringX k { x with wait := [] }).setFld (R.HI_RING_STAT k) F.HI_RING_STAT_STALL 0
      let (ms, s) := s.cmdRead ms
      let s := (s.cmdBack ms).ringSkip k ds.length
      let s := (s.addTo (R.HI_RING_CNT k) ds.length).logAdd tag (.hostCmd ms)
      s.cmdTake k n rest tag
  | _, _ => (s.setHringX k { s.hringX k with wait := [] }).setFld (R.HI_RING_STAT k) F.HI_RING_STAT_STALL 0
/-- Transmit descriptors of a CAN port (R408, R457, R464): each is a non-field input; a slot that is posted again returns
its entry. -/
def State.canTake2 (s : State) (k : Nat) (ds : List Desc) (tag : Word) : State :=
  match ds with
  | [] => s
  | d :: t =>
    if !d.own then s
    else
      let head := s.fld (R.HI_RING_HEAD k) F.HI_RING_HEAD_INDEX
      let s := s.canReturn k head
      let s := (s.ringAdvance k).logAdd tag (.canTx (Fin.ofNat 16 ((k - 32) / 2)) head d)
      s.canTake2 k t tag
/-- The slots of a to-host ring that software has posted from HEAD on (R457). -/
def State.ringPost (s : State) (k : Nat) (descs : List Desc) : State :=
  let x := s.hringX k
  let posted := descs.takeWhile (fun d => d.own)
  let head := s.fld (R.HI_RING_HEAD k) F.HI_RING_HEAD_INDEX
  let size := 2 ^ s.fld (R.HI_RING_CFG k) F.HI_RING_CFG_LOG2
  let s := s.setHringX k { x with posted := posted }
  if k < 33 then s
  else s.each ((List.range posted.length).drop x.posted.length) (fun s i => s.canReturn k ((head + i) % size))
/-- The device reads a ring at HEAD (R456, R457, R465). -/
def State.ringRead (s : State) (k : Nat) (descs : List Desc) : State :=
  let tag := s.tag 0
  if s.hostDown || !s.boot.up || !s.bit (R.HI_RING_CTRL k) F.HI_RING_CTRL_EN || (ringHeld k && s.role = 2) then s
  else if k < 8 then s.cmdTake k (descs.length + 1) descs tag
  else if k < 16 then
    let s := s.ringPost k descs
    let w := (s.hringX (k - 8)).wait
    if w = [] then s else s.cmdTake (k - 8) (w.length + 1) w tag
  else if k < 32 then s.ringPost k descs
  else if k % 2 = 0 then s.canTake2 k descs tag
  else (s.ringPost k descs).canDeliver ((k - 33) / 2)

-- the rows

/-- A command of the table stands for one that has come from slot 0 of command ring 0 with TAG 0, and applies now. -/
def State.cmdNow (s : State) (opc len : Nat) (p0 p1 p2 : Word) (data : List Byte) : State :=
  s.cmdRun s.seq (s.rd R.XL_LOG_POS) (s.tag 0) false ⟨0, 0, ⟨true, false, false, opc, 0, len, 0, p0, p1, p2, 0, data⟩, false⟩

/-- RING_DOORBELL (R457): a write of TAIL. -/
def execRingDoorbell (k : HRingIx) (tail : Word) (descs : List Desc) (s : State) : Host.Outcome State Fault Refusal :=
  .next ((s.pcieWrite false (R.HI_RING_TAIL k) (Word.bytes tail) 0).ringRead k descs)
/-- RING_REREAD (R457). -/
def execRingReread (k : HRingIx) (descs : List Desc) (s : State) : Host.Outcome State Fault Refusal :=
  .next (s.ringRead k descs)
/-- WRITE (R460). -/
def execWrite (addr : Nat) (val mask : Word) (s : State) : Host.Outcome State Fault Refusal :=
  .next (s.cmdNow 1 0 (Word.ofN addr) val mask [])
/-- WRITE_BLOCK (R460). -/
def execWriteBlock (addr : Nat) (vals : List Word) (s : State) : Host.Outcome State Fault Refusal :=
  .next (s.cmdNow 2 (4 * vals.length) (Word.ofN addr) 0 0 (Word.bytesAll vals))
/-- READ_BLOCK (R460). -/
def execReadBlock (addr : Nat) (words : Nat) (s : State) : Host.Outcome State Fault Refusal :=
  .next (s.cmdNow 3 (4 * words) (Word.ofN addr) 0 0 [])
/-- ITEM (R460). -/
def execItem (f : FlowIx) (src : Nat) (tag : Word) (data : List Byte) (s : State) : Host.Outcome State Fault Refusal :=
  let (t, c) := if data.length > 64 then (s, 5) else s.cmdItem f src tag data
  .next (t.cmdDone s.seq (s.rd R.XL_LOG_POS)
    ⟨src % 8, 0, ⟨true, false, false, 4, 0, data.length, 0, Word.ofN f, 0, 0, 0, data⟩, false⟩ c data.length 0)
/-- MAILBOX (R362, R460). -/
def execMailbox (k : StnIx) (wr : Bool) (paddr : Nat) (len : Nat) (data : List Byte) (member : CmdMember) (s : State) :
    Host.Outcome State Fault Refusal :=
  let q := s.rd R.XL_LOG_POS
  if paddr % 4 ≠ 0 ∨ len < 1 ∨ len > 1024 then .next (s.cmdDone s.seq q member 5 0 0)
  else match s.cmdMailbox s.seq q k wr paddr len data member with
    | (s, 0) => .next s
    | (t, c) => .next (t.cmdDone s.seq q member c 0 0)
/-- MARKER (R460). -/
def execMarker (s : State) : Host.Outcome State Fault Refusal := .next (s.cmdNow 6 0 0 0 0 [])
/-- A station has answered or not (R362, R451, R460): the oldest request that has been sent completes. -/
def State.mailDone (s : State) (k status : Nat) (data : List Byte) (istat : Word) : State :=
  match s.mails.find? (fun m => m.stn = k && m.sent) with
  | none => s
  | some m =>
    let s := { s with mails := s.mails.erase m }
    let d := data.take m.len
    let s := s.when (status = 0 && !m.wr && s.acts) (fun s => s.hostPut m.member.desc.addr d)
    s.cmdDone m.cyc m.lseq m.member status (if status ≠ 0 then 0 else if m.wr then m.len else d.length) istat
/-- MAILBOX_ANSWER (R362). -/
def execMailboxAnswer (k : StnIx) (data : List Byte) (istat : Word) (s : State) : Host.Outcome State Fault Refusal :=
  .next (if s.acts then (s.tailBack (k.val / 126)).mailDone k 0 data istat else s.tailForward (k.val / 126) 3)
/-- NO_ANSWER (R451). -/
def execNoAnswer (k : StnIx) (s : State) : Host.Outcome State Fault Refusal := .next (s.mailDone k 9 [] 0)
/-- RING_RESET (R458). -/
def execRingReset (k : HRingIx) (s : State) : Host.Outcome State Fault Refusal :=
  .next (if s.bit (R.HI_RING_CTRL k) F.HI_RING_CTRL_EN then s else s.ringClear k)
/-- RING_IRQ_TIMER (R458): TIME_US has passed since the first write-back that waits. -/
def execRingIrqTimer (k : HRingIx) (s : State) : Host.Outcome State Fault Refusal :=
  .next (if (s.hringX k).irqs = 0 ∨ s.fld (R.HI_RING_IRQ k) F.HI_RING_IRQ_TIME_US = 0 then s
    else (s.setHringX k { s.hringX k with irqs := 0 }).msix (s.fld (R.HI_RING_CFG k) F.HI_RING_CFG_VEC))
/-- HOST_INPUT_WRITE (R452). -/
def execHostInputWrite (i : Fin 2048) (v : Word) (s : State) : Host.Outcome State Fault Refusal :=
  .next (s.pcieWrite false (0x43C000 + 4 * i) (Word.bytes v) 0)
/-- REGISTER_WRITE (R451). -/
def execRegisterWrite (bar2 : Bool) (addr : Nat) (bytes : List Byte) (off : Nat) (s : State) :
    Host.Outcome State Fault Refusal :=
  .next (s.pcieWrite bar2 addr bytes off)

end Sys2Proof.Machine
end

