-- ==== Sys2Proof/Machine/Cycle.lean ====
section
/-!
DEFINITION. The control cycle (chapter "Control cycle and process image"): the start of a cycle with the sequenced input log,
the landing cut-off, the Phase L gate and the close.
-/
namespace Sys2Proof.Machine

-- the sequenced input log at t0

/-- A logged reception applies (R404, R405): the words of the image, or an item of a flow. -/
def State.canLogged (s : State) (p i : Nat) (f : CanFrame) (tag : Word) : State :=
  let map : List RxMap := (Smap.find s.img.canRx p).getD []
  match s.canAct p f (map[i]?.map (fun e => e.action)) with
  | .image w => s.canImage p i w f tag
  | .flow g => s.flowItem g ⟨1, p, tag, f.data⟩ tag
  | .host => s.when (s.role ≠ 2) (fun s => s.canHostRx p f tag)
  | .drop => s
/-- A stamped edge as an item (R392): its level in bit 0 of the data, whose length is open (log 1). -/
def State.edgeItem (s : State) (i : Nat) (tag : Word) (level : Bool) : State :=
  let (w, s) := s.draw
  s.flowItem (s.fld (R.TM_EDGE_CFG i) F.TM_EDGE_CFG_FLOW)
    ⟨3, i, tag, (if level then 1 else 0) :: List.replicate (w.toNat % 64) 0⟩ tag
/-- An entry of the sequenced input log applies (R60, R429); an expiry acts with the items of the cycle. -/
def State.logApply (s : State) (e : LogEntry) : State :=
  let s := s.bulkPlace e.lseq
  let s := match e.kind with
    | .hostWrite a v m => s.busApply a v m 0
    | .lawWrite c w v =>
      let (t, st) := s.lawWrite c w v
      t.werrIf (R.LC_LAW_DATA c) st
    | .hostCmd ms => s.cmdEntry e ms
    | .canRx p i f => s.canLogged p i f e.tag
    | .canDone p i st => s.canComplete p i st
    | .canTx p slot d => (s.when (s.role = 2) (fun s => s.canReturn (32 + 2 * p) slot)).canHostTx p slot d
    | .edgeImage i rise fall count level => s.edgeImage i [rise, fall, count, level]
    | .edgeItem i tag level => s.edgeItem i tag level
    | .key code => s.keyApply code.toNat
    | .term t up => s.hgCtl t up
    | .station k => s.stnAdmit k
    | .expiry _ _ => s
    | .stall a => s.setAxisX a { s.axisX a with stalls := (s.axisX a).stalls + 1 }
    | .posLost a => s.set1 (R.AX_STAT a) F.AX_STAT_POS_LOST
    | .twoParty k item by_ conf => s.twoPartyApply k s.mode item by_ conf
    | .close _ _ => s
    | .copied _ _ => s
  s.wr R.XL_LOG_POS e.lseq
/-- READ_BLOCKs of an entry, after the entries of the cycle (R460). -/
def State.logReads (s : State) (e : LogEntry) : State :=
  match e.kind with
  | .hostCmd ms => s.cmdEntryReads e ms
  | _ => s
def entryKey (e : LogEntry) : Bool := e.kind.code = 6
/-- The item of an expiry is dispatched behind those of the cycle (R225, Coincidences). -/
def State.logExpiry (s : State) (e : LogEntry) : State :=
  match e.kind with
  | .expiry f n => s.flowExpiry f n
  | _ => s
/-- Key entries apply first (R231, R429). -/
def logOrder (es : List LogEntry) : List LogEntry := es.filter entryKey ++ es.filter (fun e => !entryKey e)
/-- CLOSE of a cycle agrees with the entries that are held for it (R430): their count, and the LSEQ of the last. -/
def closeFits (es : List LogEntry) (c : Word × Nat × Word) : Bool :=
  c.2.1 = es.length && (match es.getLast? with
    | some e => e.lseq = c.2.2
    | none => true)
/-- The entries that apply in the cycle that begins, and the log without them (R60, R430): a standby without the CLOSE of
the cycle applies none; nor does one that holds other entries than those that CLOSE counts (log 265). -/
def State.logTake (s : State) : List LogEntry × State :=
  let n := s.seq
  let held := s.log.filter (fun e => e.cyc = n)
  let es := logOrder held
  let closed := s.xl.closes.any (fun c => c.1 = n && closeFits held c)
  let s := { s with log := s.log.filter (fun e => 0 < (e.cyc - n).toInt) }
  if s.role ≠ 2 then (es, s)
  else
    let s := { s with xl := { s.xl with closes := s.xl.closes.filter (fun c => 0 < (c.1 - n).toInt) } }
    if !s.computes then ([], s)
    else if closed then (es, { s with xl := { s.xl with seen := [] } })
    else ([], (s.set1 R.XL_STAT F.XL_STAT_LOG_GAP).missCount)

-- the start of a cycle

/-- The next cycle has begun (R46): its number and its t0, with the operating time and the calendar clock. The first cycle
starts at the first whole multiple of T (R511). -/
def State.cycNext (s : State) : State :=
  let dt := if s.boot.started then s.period else s.nextT0 s.t0 - s.t0
  let s := s.hubRun dt
  let n := if s.boot.started then s.cycleNo + 1 else s.boot.first
  let prev := s.seq
  let s := (s.setCycle n).rtcRun dt
  let s := { s with
    t0 := s.t0 + dt, opNs := s.opNs + dt, worst := 0
    boot := { s.boot with started := true, quiet := s.boot.quiet && !s.boot.started }
    cyc := { s.cyc with cut := false, sDone := false, lOpen := false, sOff := 0, closed := false, missed := false }
    xl := { s.xl with held := false } }
  let s := s.each s.usedRings (fun s r => s.ringTurn r prev)
  let s := s.each s.usedAxes (fun s a => s.axPlay a)
  s.each s.usedStns (fun s k => s.setStnX k { s.stnX k with got := none })
/-- A step of the time base takes effect (R384): EPOCH blocks and open windows show it (R325, R334). -/
def State.timeStep (s : State) : State :=
  match s.tmNext with
  | (s, none) => s
  | (s, some d) =>
    let new := ((s.t0 : Int) + d).toNat
    let s := { s.slotsStep s.t0 new with t0 := new }.set1 R.TM_STATE F.TM_STATE_STEPPED
    let s := s.recStep s.t0
    let mark (w : Option Win) : Option Win := w.map (fun (w : Win) => { w with stepPend := true })
    let by_ (t : Nat) : Nat := ((t : Int) + 128 * d).toNat
    let go (t : Nat) : Nat := ((t : Int) + d).toNat
    { s with
      tbLast := s.tbLast.map (fun (e : Nat × Nat) => (e.1, go e.2))
      tasks := s.tasks.map (fun (e : Nat × TaskX) => (e.1, { e.2 with
        wake := go e.2.wake, disp := e.2.disp.map go, since := go e.2.since, ready := go e.2.ready }))
      xl := { s.xl with hbT := go s.xl.hbT, ringT := go s.xl.ringT, shadowT := go s.xl.shadowT }
      boot := { s.boot with seed := go s.boot.seed }
      pairs := s.pairs.map (fun (e : Nat × PairX) => (e.1, { e.2 with start := e.2.start.map by_, ends := by_ e.2.ends }))
      ces := s.ces.map (fun (e : Nat × CeX) => (e.1, { e.2 with win := mark e.2.win, hoT := go e.2.hoT, hoEnd := go e.2.hoEnd }))
      clusters := s.clusters.map (fun (e : Nat × ClusterX) => (e.1, { e.2 with win := mark e.2.win })) }
/-- A holder with a FATAL fault hands the lease to a STANDBY partner and mutes (R440). -/
def State.fatalGive (s : State) : State :=
  if s.role = 1 ∧ (s.fld R.TK_CTL F.TK_CTL_CAUSE).testBit 2 = true ∧ s.partnerState = some 3 then s.leaseGive 4 else s
/-- The CLR bits of the phase maxima act at a cycle start. -/
def State.phaseClear (s : State) : State :=
  s.each [R.TM_PH_MAX_N, R.TM_PH_MAX_S, R.TM_PH_MAX_L] (fun s a => if (s.rd a).getLsbD 31 then s.wr a 0 else s)
/-- The words of the frames that leave are what was last sent (R53, R452): their snapshot values (log 63). -/
def State.sentShow (s : State) : State :=
  let old := s.io.filterMap (fun e =>
    if 0x440000 ≤ e.1 ∧ e.1 < 0x480000 then some ((e.1 - 0x440000) / 4) else none)
  let s := s.each (s.snap.map (fun e => e.1)) (fun s w => s.wr (R.OUT_WORD w) (s.snapVal w))
  s.each old (fun s w => s.wr (R.OUT_WORD w) (s.snapVal w))
/-- The frames of the cycle leave (R46): from a holder at once, from a standby when the digests of the cycle agree
(R433); one in SHADOW awaits the digest only (R434). -/
def State.trainStart (s : State) : State :=
  if !s.computes then s
  else
    let s := s.sentShow
    if s.pairEn && (s.pairState = 3 || s.pairState = 6) then
      match digestFor s.xl.digs s.seq, digestFor s.xl.peers s.seq with
      | some a, some b => s.when (a = b && s.sends) (fun s => s.trainSend 0)
      | _, _ => { s with xl := { s.xl with held := true } }
    else s.when s.sends (fun s => s.trainSend 0)
/-- Slots whose output the snapshot carried: it takes effect as the frame leaves (R102, R103). -/
def State.carriedOut (s : State) : State :=
  s.each s.usedSlots (fun s k =>
    match (s.slotX k).carried with
    | some t => (s.setSlotX k { s.slotX k with carried := none }).slotDelay k s.t0 t
    | none => s)
/-- The entries of the cycle apply in their order, and then the items that they have brought are dispatched behind the
queued ones (R60, R224, R228); an expiry gives way to an item of the same cycle (Coincidences). A stop comes before the
dispatches (R235). -/
def State.entriesApply (s : State) (es : List LogEntry) : State :=
  let s := { s with cyc := { s.cyc with items := some [] } }
  let s := (s.each es (fun s e => s.logApply e)).swatchAborts
  let items := s.cyc.items.getD []
  let s := { s with cyc := { s.cyc with items := none } }.modeEntry.stopApply
  let s := s.each s.usedFlows (fun s f => s.flowNext f)
  let s := s.each items (fun s i => s.flowTake i.1 i.2.1 i.2.2)
  s.each es (fun s e => s.logExpiry e)
/-- Tasks at t0: the triggers, and the instances that are due (R213, R220). -/
def State.tasksStart (s : State) : State :=
  if s.stopped then s
  else
    let s := s.wakeAll s.t0
    let s := s.each s.activeRegions (fun s r => s.taskTriggers r s.t0)
    s.each s.activeRegions (fun s r => s.taskDue r)
/-- An automatic warm restart begins at the t0 at which a FATAL fault stops the controller (R440). -/
def State.fatalRestart (s : State) : State :=
  let f := s.boot.fatal
  let s := { s with boot := { s.boot with fatal := false } }
  if f && s.autoRestart then s.warmBegin 1 false else s
/-- The work of t0 in the control path (R60, R63, R220, R224, R460): publications, the entries of the cycle, and the tasks. -/
def State.cycWork (s : State) (es : List LogEntry) : State :=
  let s := s.each s.activeRegions (fun s r => s.taskPublish r)
  let s := s.entriesApply es
  (s.each es (fun s e => s.logReads e)).tasksStart
/-- The CAN ports on whose bus another node's frame is in progress at t0, which no command reports (R409, R410; a free value,
log 268). -/
def State.canBusy (s : State) : State :=
  let (w, s) := s.draw
  s.each ((List.range 16).filter (fun p => s.bit (R.CF_CFG p) F.CF_CFG_USED)) (fun s p => s.setBusy p (w.getLsbD p))
/-- t0(n) (R46, R59): nothing happens before the first cycle may start. -/
def State.cycleStart (s : State) : State :=
  if !s.boot.up || (s.phase = 6 && s.boot.use.isSome) then s
  else
    let s := s.cycNext.canBusy
    let (es, s) := s.logTake
    let key := match (es.filter entryKey).getLast?.map (fun e => e.kind) with
      | some (.key c) => c.toNat
      | _ => s.mode
    let s := (s.unitItems key).timeStep.ceField
    let s := s.fatalGive.xlBoundary.resyncWatch
    let s := if s.computes then s.cycWork es else s.stopApply
    let s := (s.hgEval s.t0).trainStart
    let s := if s.computes then s.canStart.carriedOut else s
    let s := (s.each (List.range 64) (fun s i => s.edgeNext i)).phaseClear
    s.propsShow.fatalRestart.reloadGo

-- the landing cut-off

/-- Cycles since the last reception of each CAN word, counted at the cut-off: 256 marks one of this cycle (R122). -/
def State.canAges (s : State) : State :=
  { s with canAge := s.canAge.map (fun (e : Nat × Nat) => (e.1, if e.2 = 256 then 0 else min 255 (e.2 + 1))) }
/-- The landing cut-off (R52, R64, R366). -/
def State.landingCutoff (s : State) : State :=
  if !s.boot.up || !s.boot.started || s.cyc.cut then s
  else
    let s := s.stnsCut (s.now (s.fld R.TM_LAND_CUTOFF F.TM_LAND_CUTOFF_OFFSET))
    { s with cyc := { s.cyc with cut := true } }.canAges.ringsCut

-- Phase L

/-- The field-synchronous slots that run. -/
def State.fieldSlots (s : State) : List Nat :=
  s.usedSlots.filter (fun k => s.bit (R.LE_CFG k) F.LE_CFG_TIMING && s.slotRuns k)
/-- A field-synchronous slot takes the terms of the gate (R306, R309). -/
def State.slotTerms (s : State) (ts : List Nat) (k : Nat) (tag : Word) : State :=
  if s.hgHits ts 3 k then s.setFcause k 0 tag else s.clrFcause k 0
/-- A field-synchronous slot is due in the cycle (R78); the members of a cascade are due with their head (R97, log 243). -/
def State.slotDue (s : State) (k : Nat) : Bool :=
  let a := R.LE_FSYNC (s.jobHead k)
  s.cycleNo % (s.fld a F.LE_FSYNC_DIV_M1 + 1) = s.fld a F.LE_FSYNC_PH
/-- Its deadline: the nominal gate of its next release (R100). -/
def State.slotDeadline (s : State) (k : Nat) : Nat := s.t0 + s.slotPeriod k + s.fld R.TM_PH_L_START F.TM_PH_L_START_OFFSET
/-- A die without a sample in this Phase L reports at once: its offset within 200 ns of the gate is open (R74, log 1). -/
def State.idleReports (s : State) (off : Nat) : State :=
  s.each (s.activeDies.filter s.dieDone) (fun s _ =>
    let (w, s) := s.draw
    s.maxFld R.TM_PH_MAX_L F.TM_PH_MAX_L_OFFSET (off + w.toNat % 201))
/-- The Phase L gate opens (R58, R67, R245, R309): axes and slots take the terms, the axes advance, and the slots that are due
take their samples. -/
def State.phaseL (s : State) (off : Nat) : State :=
  let now := s.now off
  let tag := tagOf now
  let start := s.fld R.TM_PH_L_START F.TM_PH_L_START_OFFSET
  let ts := s.hgAtL
  let s := s.when (s.cyc.sOff > start || off > start + 100) (fun s => s.set1 R.TM_CYC_STAT F.TM_CYC_STAT_L_LATE)
  let s := { s with cyc := { s.cyc with lOpen := true }, hg := { s.hg with pendL := [] } }.loopsStart
  let s := s.wakeAll now
  let s := s.each s.fieldSlots (fun s k => s.slotTerms ts k tag)
  let s := s.each s.usedAxes (fun s a => s.axGate a (s.hgHits ts 4 a) tag)
  let s := s.each (s.fieldSlots.filter s.slotDue) (fun s k => s.slotRelease k now (s.slotDeadline k))
  s.idleReports off

-- the close

/-- Dies whose Phase L report is missing at the close (R70). -/
def State.diesLate (s : State) (missing : Nat) : List Nat :=
  s.activeDies.filter (fun d => missing.testBit d || !s.cyc.lOpen || !s.dieDone d)
/-- The reports of the control dies (R70): the third missing one in a row fences the die (R36). -/
def State.reportsCheck (s : State) (missing off : Nat) : State :=
  let late := s.diesLate missing
  let old := s.cyc.late
  let new := late.map (fun d => (d, Smap.get (fun _ => 0) old d + 1))
  let s := { s with cyc := { s.cyc with late := new } }
  let s := s.each late (fun s d => s.raise 1 4 d R.TM_CYC_STAT ⟨4 + d, 1⟩ (s.tag off))
  s.each (new.filter (fun e => e.2 ≥ 3)) (fun s e => s.dieFence e.1 6 off)
/-- An owner stands on a fenced die or in a held region (R37, R480). -/
def State.ownerGone (s : State) (o : Owner) : Bool :=
  match o with
  | .slot k => s.fenced (k.val / 1024) || s.regionHeld (k.val / 256)
  | .axis a => s.fenced (a.val / 32) || s.regionHeld (a.val / 8)
  | .task r _ => s.fenced (r.val / 4) || s.regionHeld r.val
  | .lane _ => false
/-- Output words that take their fallow value at the close because of a fence or stop (R37, R235, R239). -/
def State.wordsFallow (s : State) : List Nat := s.ownedWords s.ownerGone ++ s.stopFallow
/-- The value of an output word in the snapshot (R239, R308). -/
def State.closeWord (s : State) (fallow ts : List Nat) (w : Nat) : Word :=
  if w ≥ 0xF800 then 0 else
  let v := if fallow.contains w then s.wordFallow w else s.forced (Ref.outWord w) (s.outVal w)
  let m := s.hgMask ts w
  (v &&& ~~~ m) ||| (s.wordFallow w &&& m)
/-- Output words that may be other than 0: those written, those with a fallow value, and those forced. -/
def State.outWords (s : State) : List Nat :=
  s.outMaster.map (fun e => e.1) ++
    s.io.filterMap (fun e => if 0xC0000 ≤ e.1 ∧ e.1 < 0x100000 then some ((e.1 - 0xC0000) / 4) else none) ++
    s.forces.filterMap (fun e => if Ref.space e.2 = 1 ∧ Ref.index e.2 < 65536 then some (Ref.index e.2) else none)
/-- The snapshot (R51, R68), which the frames of the next cycle carry (R69), and its copy on the control dies. -/
def State.snapshot (s : State) : State :=
  let ts := s.hgAtC
  let fallow := s.wordsFallow
  let ws := s.outWords
  let table (f : Nat → Word) : List (Nat × Word) := ws.foldl (fun m w => Smap.set (fun _ => (0 : Word)) m w (f w)) []
  let snap := table (s.closeWord fallow ts)
  { s with
    snap := snap, outCopy := snap, closeVal := table s.outVal, closeFallow := fallow
    closeRew := (s.hgWords ts).foldl (fun m w => Smap.set (fun _ => (0 : Word)) m w (s.hgMask ts w)) []
    hg := { s.hg with pendC := [] } }
/-- The snapshot carries what these slots wrote (R103). -/
def State.carriedIn (s : State) : State :=
  s.each s.usedSlots (fun s k =>
    let x := s.slotX k
    if x.wait.isSome ∧ s.fld (R.LE_OUT_DST k) F.LE_OUT_DST_KIND = 1 then
      s.setSlotX k { x with wait := none, carried := x.wait }
    else s)
/-- A holder counts a digest of its STANDBY partner that has not come (R433). -/
def State.digestCount (s : State) : State :=
  if s.role = 1 ∧ s.partnerState = some 3 ∧ (digestFor s.xl.peers s.seq).isNone = true then
    { s.missCount with xl := { s.xl with matched := 0 } }
  else s
/-- The close (R58, R68): the watchdog, the snapshot, what is formed from it, and the reports. -/
def State.closeCycle (s : State) (missing : Nat) : State :=
  let off := s.period - 2000
  let s := s.wakeAll (s.now off)
  let s := s.each s.activeRegions (fun s r => s.taskClose r)
  let s := s.snapshot.carriedIn
  let s := ((s.recClose (s.now off)).canClose s.cycleNo).digestCount
  let s := s.digestSend.ckptEpoch.bulkGive
  let s := s.reportsCheck missing off
  { s with cyc := { s.cyc with closed := true } }

-- rows

/-- CYCLE_START (R46). -/
def execCycleStart (s : State) : Host.Outcome State Fault Refusal := .next s.cycleStart
/-- LANDING_CUTOFF (R64). -/
def execLandingCutoff (s : State) : Host.Outcome State Fault Refusal := .next s.landingCutoff
/-- PHASE_L_GATE (R58, R59, R66, R176): it opens at its offset, or when a Phase S that lasts longer is done. -/
def execPhaseLGate (off : Nat) (s : State) : Host.Outcome State Fault Refusal :=
  if !s.cyc.sDone || s.cyc.lOpen || off < max s.cyc.sOff (s.fld R.TM_PH_L_START F.TM_PH_L_START_OFFSET) then .next s
  else .next (s.phaseL off)
/-- CLOSE (R68): once in a cycle of a unit that runs. -/
def execClose (missing : BitVec 4) (s : State) : Host.Outcome State Fault Refusal :=
  if !s.boot.up || !s.boot.started || s.cyc.closed || !s.computes then .next s
  else .next (s.closeCycle missing.toNat)

end Sys2Proof.Machine
end

