-- ==== Sys2Proof/Machine/Trips.lean ====
section
/-!
DEFINITION. Trip inputs and SDI comparators, whose changes the hedgerow takes at once (R291, R292, R295), and spacer
rows (R346).
-/
namespace Sys2Proof.Machine

/-- A sample period of a trip input in ns (R291). -/
def State.tripPeriod (s : State) (t : Nat) : Nat :=
  match s.fld (R.PW_TRIP_CFG (t / 3) (t % 3)) F.PW_TRIP_CFG_RATE with
  | 0 => 10
  | 1 => 40
  | _ => 160
/-- The length N of a trip's filter (R291); an N of 0 filters as 1 does (DESIGN CHOICE, log 255). -/
def State.tripN (s : State) (t : Nat) : Nat := max 1 (s.fld (R.PW_TRIP_CFG (t / 3) (t % 3)) F.PW_TRIP_CFG_N)
/-- The filtered state of a trip input takes a level, which the hedgerow sees at an instant (R291, R292). -/
def State.tripFilt (s : State) (t : Nat) (x : Bool) (at_ : Nat) : State :=
  let a := R.PW_TRIP_STAT (t / 3)
  let s := s.setB a ⟨4 + t % 3, 1⟩ x
  (s.when x (fun s => s.set1 a ⟨8 + t % 3, 1⟩)).hgEval at_
/-- A trip input has read one level of its ball at `n` samples in succession, the last at an instant (R291): the raw state is
that level after POL, and the filtered state takes it once N samples have read it, one sample period and 2 ns after the last
of them. -/
def State.tripSamples (s : State) (t now : Nat) (ball : Bool) (n : Nat) : State :=
  let a := R.PW_TRIP_STAT (t / 3)
  let x := ball != s.bit (R.PW_TRIP_CFG (t / 3) (t % 3)) F.PW_TRIP_CFG_POL
  let raw := (s.fld a F.PW_TRIP_STAT_RAW).testBit (t % 3)
  let run := (if raw = x then s.tripRun t else 0) + n
  let need := s.tripN t
  let s := (s.setB a ⟨t % 3, 1⟩ x).setTripRun t (min 255 run)
  if need ≤ run ∧ (s.fld a F.PW_TRIP_STAT_FILT).testBit (t % 3) ≠ x then
    s.tripFilt t x (now - (run - need) * s.tripPeriod t + s.tripPeriod t + 2)
  else s
/-- TRIP_FILTER_CHANGE (R291, R292): the samples of a trip's ball that have come. -/
def execTripFilterChange (t : Fin 48) (off : Nat) (read : TripRead) (s : State) : Host.Outcome State Fault Refusal :=
  .next (if s.dieState (t / 12) ≠ 0 ∨ read.n = 0 then s else s.tripSamples t (s.now off) read.ball read.n)
/-- COMPARATOR_CHANGE (R295): the comparators take the sliding sum; they are held at 1 until the first valid fast
output after a clock fault (R297). -/
def execComparatorChange (ch : PairIx) (off : Nat) (bits : List (Bool × Bool)) (s : State) :
    Host.Outcome State Fault Refusal :=
  if s.sdiRuns ch && !(s.sdiX ch).held then .next ((s.sdiCompare ch (s.sdiFastSum ch bits)).hgEval (s.now off)) else .next s
/-- SDI_FAST_OUTPUT (R294). -/
def execSdiFastOutput (ch : PairIx) (off : Nat) (bits : List (Bool × Bool)) (s : State) : Host.Outcome State Fault Refusal :=
  if s.sdiRuns ch then .next ((s.sdiFast ch off (s.sdiFastSum ch bits)).hgEval (s.now off)) else .next s

/-- A window of a swatch takes a spacer row (R346). -/
def State.swatchSpacer (s : State) (c t : Nat) : State :=
  match (s.clusterX c).win with
  | none => s
  | some w =>
    match w.rows.getLast? with
    | some row =>
      let k := 32 * c + (s.clusterX c).slot
      s.when (t = row.t + 2100000000) (fun s =>
        s.swatchRow c ⟨t, [s.slotField k 0, s.slotField k 1, s.slotField k 2], true, w.stepPend⟩)
    | none => s
/-- SPACER_ROW (R346): 2,100 ms after the last row of a window of SYNC SLOT or of a swatch. -/
def execSpacerRow (r : RegionIx) (off : Nat) (s : State) : Host.Outcome State Fault Refusal :=
  let t := s.now off
  let due := match (s.ceX r).win with
    | some w => (w.rows.getLast?).any (fun row => t = row.t + 2100000000)
    | none => false
  let s := s.when (due && s.fld (R.CE_CFG r) F.CE_CFG_SYNC = 2) (fun s => s.ceRow r t true)
  .next (s.each ((List.range 8).map (fun i => 8 * r.val + i)) (fun s c => s.swatchSpacer c t))

end Sys2Proof.Machine
end

