-- ==== Sys2Proof/Machine/Dispatch.lean ====
section
/-!
DEFINITION. The dispatch of commands: one arm for each row of the table, each a direct call of its meaning.
-/
namespace Sys2Proof.Machine

/-- The effect of a command on everything but the queue. -/
def exec (i : Instr) (s : State) : Host.Outcome State Fault Refusal :=
  match i with
  | .cycleStart => Sys2Proof.Machine.execCycleStart s
  | .cyclicFrameReceive port off home looped f => Sys2Proof.Machine.execCyclicFrameReceive port off home looped f s
  | .landingCutoff => Sys2Proof.Machine.execLandingCutoff s
  | .taskDispatch r off mismatches => Sys2Proof.Machine.execTaskDispatch r off mismatches s
  | .taskComplete r off => Sys2Proof.Machine.execTaskComplete r off s
  | .releaseTick r off => Sys2Proof.Machine.execReleaseTick r off s
  | .phaseSGate off fetchLate => Sys2Proof.Machine.execPhaseSGate off fetchLate s
  | .phaseLGate off => Sys2Proof.Machine.execPhaseLGate off s
  | .close missing => Sys2Proof.Machine.execClose missing s
  | .localSlotRelease k off => Sys2Proof.Machine.execLocalSlotRelease k off s
  | .sampleComplete k off mismatch => Sys2Proof.Machine.execSampleComplete k off mismatch s
  | .sampleSkip k off => Sys2Proof.Machine.execSampleSkip k off s
  | .modeRequest k code => Sys2Proof.Machine.execModeRequest k code s
  | .tpWrite k n v => Sys2Proof.Machine.execTpWrite k n v s
  | .lawDataWrite c waddr v => Sys2Proof.Machine.execLawDataWrite c waddr v s
  | .lawAddrWrite c v => Sys2Proof.Machine.execLawAddrWrite c v s
  | .lawStateRead c => Sys2Proof.Machine.execLawStateRead c s
  | .clrFault k => Sys2Proof.Machine.execClrFault k s
  | .clrMax k => Sys2Proof.Machine.execClrMax k s
  | .reengage k => Sys2Proof.Machine.execReengage k s
  | .swatchStart c slot => Sys2Proof.Machine.execSwatchStart c slot s
  | .swatchAbort c => Sys2Proof.Machine.execSwatchAbort c s
  | .laneStart l recipe => Sys2Proof.Machine.execLaneStart l recipe s
  | .laneHold l => Sys2Proof.Machine.execLaneHold l s
  | .laneResume l => Sys2Proof.Machine.execLaneResume l s
  | .laneAbort l => Sys2Proof.Machine.execLaneAbort l s
  | .laneAdvance l exit => Sys2Proof.Machine.execLaneAdvance l exit s
  | .laneClear l => Sys2Proof.Machine.execLaneClear l s
  | .laneGoto l step => Sys2Proof.Machine.execLaneGoto l step s
  | .validate recipe => Sys2Proof.Machine.execValidate recipe s
  | .invalidate recipe => Sys2Proof.Machine.execInvalidate recipe s
  | .axisStop a => Sys2Proof.Machine.execAxisStop a s
  | .axisResume a => Sys2Proof.Machine.execAxisResume a s
  | .axisReplan a => Sys2Proof.Machine.execAxisReplan a s
  | .axisClrFault a => Sys2Proof.Machine.execAxisClrFault a s
  | .setPos a arg => Sys2Proof.Machine.execSetPos a arg s
  | .stepperTick a off => Sys2Proof.Machine.execStepperTick a off s
  | .stall a => Sys2Proof.Machine.execStall a s
  | .holdDelayExpiry a => Sys2Proof.Machine.execHoldDelayExpiry a s
  | .pwmCommit p => Sys2Proof.Machine.execPwmCommit p s
  | .pwGcommit r mask => Sys2Proof.Machine.execPwGcommit r mask s
  | .reloadPoint p off centre => Sys2Proof.Machine.execReloadPoint p off centre s
  | .swnEdge p tsw rise => Sys2Proof.Machine.execSwnEdge p tsw rise s
  | .dtMaxExpiry p rise => Sys2Proof.Machine.execDtMaxExpiry p rise s
  | .comparatorChange ch off bits => Sys2Proof.Machine.execComparatorChange ch off bits s
  | .sdiMainOutput ch off bits => Sys2Proof.Machine.execSdiMainOutput ch off bits s
  | .sdiFastOutput ch off bits => Sys2Proof.Machine.execSdiFastOutput ch off bits s
  | .dlCalibration r span => Sys2Proof.Machine.execDlCalibration r span s
  | .tripFilterChange t off read => Sys2Proof.Machine.execTripFilterChange t off read s
  | .clockMonitorFault d => Sys2Proof.Machine.execClockMonitorFault d s
  | .clkFaultClear g => Sys2Proof.Machine.execClkFaultClear g s
  | .linkHung d => Sys2Proof.Machine.execLinkHung d s
  | .dieSupplyFault d => Sys2Proof.Machine.execDieSupplyFault d s
  | .dieOvertemp d => Sys2Proof.Machine.execDieOvertemp d s
  | .dieFence d => Sys2Proof.Machine.execDieFence d s
  | .regionPortFence r => Sys2Proof.Machine.execRegionPortFence r s
  | .hgReset t => Sys2Proof.Machine.execHgReset t s
  | .hgResetAll => Sys2Proof.Machine.execHgResetAll s
  | .hedgerowPatch who => Sys2Proof.Machine.execHedgerowPatch who s
  | .keyChange code => Sys2Proof.Machine.execKeyChange code s
  | .pairDiff => Sys2Proof.Machine.execPairDiff s
  | .ctlStop => Sys2Proof.Machine.execCtlStop s
  | .ctlStart => Sys2Proof.Machine.execCtlStart s
  | .reload bank img partner => Sys2Proof.Machine.execReload bank img partner s
  | .kill r t => Sys2Proof.Machine.execKill r t s
  | .enable r t => Sys2Proof.Machine.execEnable r t s
  | .forceSet n => Sys2Proof.Machine.execForceSet n s
  | .forceRelease n => Sys2Proof.Machine.execForceRelease n s
  | .releaseAll => Sys2Proof.Machine.execReleaseAll s
  | .olcApply => Sys2Proof.Machine.execOlcApply s
  | .waitExpiry f => Sys2Proof.Machine.execWaitExpiry f s
  | .holdMaxExpiry f => Sys2Proof.Machine.execHoldMaxExpiry f s
  | .ceArm r off => Sys2Proof.Machine.execCeArm r off s
  | .ceDisarm r off => Sys2Proof.Machine.execCeDisarm r off s
  | .ceForce r off => Sys2Proof.Machine.execCeForce r off s
  | .captureRow r off => Sys2Proof.Machine.execCaptureRow r off s
  | .holdoffEnd r off => Sys2Proof.Machine.execHoldoffEnd r off s
  | .spacerRow r off => Sys2Proof.Machine.execSpacerRow r off s
  | .pulse line off => Sys2Proof.Machine.execPulse line off s
  | .tbCal branches shared => Sys2Proof.Machine.execTbCal branches shared s
  | .trigPinEdge line off => Sys2Proof.Machine.execTrigPinEdge line off s
  | .blockAgeExpiry spec => Sys2Proof.Machine.execBlockAgeExpiry spec s
  | .epoch off => Sys2Proof.Machine.execEpoch off s
  | .flush => Sys2Proof.Machine.execFlush s
  | .userMark arg off => Sys2Proof.Machine.execUserMark arg off s
  | .specWrite => Sys2Proof.Machine.execSpecWrite s
  | .streamEnable n off => Sys2Proof.Machine.execStreamEnable n off s
  | .streamRecovery n off => Sys2Proof.Machine.execStreamRecovery n off s
  | .bufferWriteback k len => Sys2Proof.Machine.execBufferWriteback k len s
  | .tailWindow ring off => Sys2Proof.Machine.execTailWindow ring off s
  | .discoverReturn ring entries => Sys2Proof.Machine.execDiscoverReturn ring entries s
  | .admitReturn n off acked => Sys2Proof.Machine.execAdmitReturn n off acked s
  | .mailboxAnswer n data istat => Sys2Proof.Machine.execMailboxAnswer n data istat s
  | .noAnswer n => Sys2Proof.Machine.execNoAnswer n s
  | .stnHold n => Sys2Proof.Machine.execStnHold n s
  | .stnFallow n => Sys2Proof.Machine.execStnFallow n s
  | .stnResume n => Sys2Proof.Machine.execStnResume n s
  | .readmit n => Sys2Proof.Machine.execReadmit n s
  | .linkLost p => Sys2Proof.Machine.execLinkLost p s
  | .ptpOffset m utc => Sys2Proof.Machine.execPtpOffset m utc s
  | .holdover => Sys2Proof.Machine.execHoldover s
  | .tmSet => Sys2Proof.Machine.execTmSet s
  | .tmOffset => Sys2Proof.Machine.execTmOffset s
  | .rtcUpdate off => Sys2Proof.Machine.execRtcUpdate off s
  | .rtcSecWrite v => Sys2Proof.Machine.execRtcSecWrite v s
  | .rtcTrimWindow => Sys2Proof.Machine.execRtcTrimWindow s
  | .edgeCapture e off level stable => Sys2Proof.Machine.execEdgeCapture e off level stable s
  | .canFrameReceive p off f => Sys2Proof.Machine.execCanFrameReceive p off f s
  | .canTxComplete p off tdc => Sys2Proof.Machine.execCanTxComplete p off tdc s
  | .arbitrationLost p => Sys2Proof.Machine.execArbitrationLost p s
  | .canError p kind side step => Sys2Proof.Machine.execCanError p kind side step s
  | .busIntegration p => Sys2Proof.Machine.execBusIntegration p s
  | .busOffRecovery p => Sys2Proof.Machine.execBusOffRecovery p s
  | .recover p => Sys2Proof.Machine.execRecover p s
  | .cancel p entry => Sys2Proof.Machine.execCancel p entry s
  | .abdRestart p => Sys2Proof.Machine.execAbdRestart p s
  | .abdWindowExpiry p => Sys2Proof.Machine.execAbdWindowExpiry p s
  | .canTimingWrite p reg v => Sys2Proof.Machine.execCanTimingWrite p reg v s
  | .canModeRequest p req => Sys2Proof.Machine.execCanModeRequest p req s
  | .helloSend => Sys2Proof.Machine.execHelloSend s
  | .hello h => Sys2Proof.Machine.execHello h s
  | .heartbeatSend => Sys2Proof.Machine.execHeartbeatSend s
  | .heartbeatReceive off epoch => Sys2Proof.Machine.execHeartbeatReceive off epoch s
  | .takeover => Sys2Proof.Machine.execTakeover s
  | .handover => Sys2Proof.Machine.execHandover s
  | .take => Sys2Proof.Machine.execTake s
  | .resync => Sys2Proof.Machine.execResync s
  | .mute => Sys2Proof.Machine.execMute s
  | .digestReceive cyc d => Sys2Proof.Machine.execDigestReceive cyc d s
  | .digWaitExpiry => Sys2Proof.Machine.execDigWaitExpiry s
  | .logEntryReceive e => Sys2Proof.Machine.execLogEntryReceive e s
  | .olfoazLinkDown => Sys2Proof.Machine.execOlfoazLinkDown s
  | .laneDeg => Sys2Proof.Machine.execLaneDeg s
  | .seekTimeout seen => Sys2Proof.Machine.execSeekTimeout seen s
  | .bulkDone journal b => Sys2Proof.Machine.execBulkDone journal b s
  | .catchUpDone b => Sys2Proof.Machine.execCatchUpDone b s
  | .shadowDone ms => Sys2Proof.Machine.execShadowDone ms s
  | .resyncRetry => Sys2Proof.Machine.execResyncRetry s
  | .checkpointDone => Sys2Proof.Machine.execCheckpointDone s
  | .warm => Sys2Proof.Machine.execWarm s
  | .warmNockpt => Sys2Proof.Machine.execWarmNockpt s
  | .warmRestart img => Sys2Proof.Machine.execWarmRestart img s
  | .restoreDone => Sys2Proof.Machine.execRestoreDone s
  | .coldReset bootsel unit density dir0 dir1 hdrA hdrB => Sys2Proof.Machine.execColdReset bootsel unit density dir0 dir1 hdrA hdrB s
  | .dramTrained ok => Sys2Proof.Machine.execDramTrained ok s
  | .sectionsChecked secs img active ms => Sys2Proof.Machine.execSectionsChecked secs img active ms s
  | .ringWaitExpiry => Sys2Proof.Machine.execRingWaitExpiry s
  | .dramInitDone => Sys2Proof.Machine.execDramInitDone s
  | .powerUp outage bootsel unit density dir0 dir1 hdrA hdrB img => Sys2Proof.Machine.execPowerUp outage bootsel unit density dir0 dir1 hdrA hdrB img s
  | .powerLoss => Sys2Proof.Machine.execPowerLoss s
  | .ringDoorbell k tail descs => Sys2Proof.Machine.execRingDoorbell k tail descs s
  | .ringReread k descs => Sys2Proof.Machine.execRingReread k descs s
  | .write addr val mask => Sys2Proof.Machine.execWrite addr val mask s
  | .writeBlock addr vals => Sys2Proof.Machine.execWriteBlock addr vals s
  | .readBlock addr words => Sys2Proof.Machine.execReadBlock addr words s
  | .item f src tag data => Sys2Proof.Machine.execItem f src tag data s
  | .mailbox n wr paddr len data member => Sys2Proof.Machine.execMailbox n wr paddr len data member s
  | .marker => Sys2Proof.Machine.execMarker s
  | .ringReset k => Sys2Proof.Machine.execRingReset k s
  | .ringIrqTimer k => Sys2Proof.Machine.execRingIrqTimer k s
  | .hostLinkLoss => Sys2Proof.Machine.execHostLinkLoss s
  | .hostLinkReturn => Sys2Proof.Machine.execHostLinkReturn s
  | .hostInputWrite n v => Sys2Proof.Machine.execHostInputWrite n v s
  | .registerWrite bar2 addr bytes off => Sys2Proof.Machine.execRegisterWrite bar2 addr bytes off s
  | .correctableError mem off => Sys2Proof.Machine.execCorrectableError mem off s
  | .uncorrectableError loc waddr => Sys2Proof.Machine.execUncorrectableError loc waddr s
  | .scrubRead mem correctable passEnd => Sys2Proof.Machine.execScrubRead mem correctable passEnd s
  | .sentinelRun c off pass rerun late => Sys2Proof.Machine.execSentinelRun c off pass rerun late s
  | .senClear c => Sys2Proof.Machine.execSenClear c s
  | .areaCheck r ok reread => Sys2Proof.Machine.execAreaCheck r ok reread s
  | .cvInit => Sys2Proof.Machine.execCvInit s
  | .cvData v => Sys2Proof.Machine.execCvData v s
  | .cvDataB v => Sys2Proof.Machine.execCvDataB v s
  | .cvDmaGo => Sys2Proof.Machine.execCvDmaGo s
  | .cvDmaDone => Sys2Proof.Machine.execCvDmaDone s
  | .test => Sys2Proof.Machine.execTest s
  | .service => Sys2Proof.Machine.execService s
  | .cvChGo c => Sys2Proof.Machine.execCvChGo c s
  | .cvChDone c => Sys2Proof.Machine.execCvChDone c s
  | .bistGo mask => Sys2Proof.Machine.execBistGo mask s
  | .bistDone r pass => Sys2Proof.Machine.execBistDone r pass s
  | .authNonce cls => Sys2Proof.Machine.execAuthNonce cls s
  | .auth cls signature => Sys2Proof.Machine.execAuth cls signature s
  | .logout cls => Sys2Proof.Machine.execLogout cls s
  | .propose by_ item bytes => Sys2Proof.Machine.execPropose by_ item bytes s
  | .confirm by_ slot digest => Sys2Proof.Machine.execConfirm by_ slot digest s
  | .withdraw by_ slot => Sys2Proof.Machine.execWithdraw by_ slot s
  | .updateBegin bank => Sys2Proof.Machine.execUpdateBegin bank s
  | .updateWrite bank offset len => Sys2Proof.Machine.execUpdateWrite bank offset len s
  | .updateEnd bank crcOk sigOk svn ident => Sys2Proof.Machine.execUpdateEnd bank crcOk sigOk svn ident s
  | .activate bank sec => Sys2Proof.Machine.execActivate bank sec s
  | .activateDue => Sys2Proof.Machine.execActivateDue s
  | .activateDrop => Sys2Proof.Machine.execActivateDrop s
  | .svnCommit runSec => Sys2Proof.Machine.execSvnCommit runSec s
  | .reclaim mask => Sys2Proof.Machine.execReclaim mask s
  | .sensors => Sys2Proof.Machine.execSensors s
  | .trace on confirmed => Sys2Proof.Machine.execTrace on confirmed s
  | .sessionTimeout cls => Sys2Proof.Machine.execSessionTimeout cls s
  | .authLockoutEnd => Sys2Proof.Machine.execAuthLockoutEnd s
  | .proposalLapse slot => Sys2Proof.Machine.execProposalLapse slot s
  | .eraseDone ok => Sys2Proof.Machine.execEraseDone ok s
  | .sensorSample temps volts vbat clear low => Sys2Proof.Machine.execSensorSample temps volts vbat clear low s
  | .lockstepMismatch => Sys2Proof.Machine.execLockstepMismatch s
  | .mgmtReset => Sys2Proof.Machine.execMgmtReset s
  | .nvmCopy ok => Sys2Proof.Machine.execNvmCopy ok s
  | .commandedTransition p tick rise end_ => Sys2Proof.Machine.execCommandedTransition p tick rise end_ s
  | .hubHardwareLimit => Sys2Proof.Machine.execHubHardwareLimit s
  | .canClockGood => Sys2Proof.Machine.execCanClockGood s
  | .fieldLinkUp p => Sys2Proof.Machine.execFieldLinkUp p s
  | .olfoazLinkUp => Sys2Proof.Machine.execOlfoazLinkUp s
  | .closeEntrySend cyc => Sys2Proof.Machine.execCloseEntrySend cyc s
  | .tmNowRead off => Sys2Proof.Machine.execTmNowRead off s
  | .consoleDisconnect => Sys2Proof.Machine.execConsoleDisconnect s
  | .vbatLoss => Sys2Proof.Machine.execVbatLoss s
  | .validationDone => Sys2Proof.Machine.execValidationDone s
  | .busyWindowEnd clusters nets => Sys2Proof.Machine.execBusyWindowEnd clusters nets s

end Sys2Proof.Machine
end

