-- ==== Sys2Proof/WellFormed.lean ====
section
/-!
DEFINITION. Which commands the surroundings can present: the bounds that the spec sets on what comes with an event or
request. A request that the block itself checks and answers with a status is well formed.
-/
namespace Sys2Proof

/-- An instant within a cycle: at most the longest period, 8 ms (R45). -/
def offWf (off : Nat) : Bool := decide (off ≤ 8000000)

/-- Data lengths of classical CAN and CAN FD (R397). -/
def canLengths : List Nat := [0, 1, 2, 3, 4, 5, 6, 7, 8, 12, 16, 20, 24, 32, 48, 64]

/-- A CAN frame (R397): the identifier fits its format, BRS and ESI belong to FD frames, a remote frame is a classical
frame, and the length is one that a DLC spells. -/
def CanFrame.wf (f : CanFrame) : Bool :=
  decide (f.ident < (if f.ide then 2 ^ 29 else 2 ^ 11)) && (f.fdf || (!f.brs && !f.esi)) && !(f.fdf && f.rtr) &&
    decide (f.data.length ≤ (if f.fdf then 64 else 8)) && canLengths.contains f.data.length

/-- A segment (R359): the station number fits, and the input data take at most 1,476 bytes of the frame (R363). -/
def Seg.wf (g : Seg) : Bool := decide (g.stn < 504 ∧ 4 * g.input.length ≤ 1476)

/-- A cyclic frame (R358): at most 16 frames to a train (R363), the EtherType fits its field, ROLE is a code of R56. -/
def RxFrame.wf (f : RxFrame) : Bool := decide (f.etype < 65536 ∧ f.fidx < 16 ∧ f.role ≤ 2) && f.segs.all Seg.wf

/-- A descriptor (R459): OPC and TAG fit their fields, ADDR is 64 bits wide. -/
def Desc.wf (d : Desc) : Bool := decide (d.opc < 256 ∧ d.tag < 65536 ∧ d.len < 2 ^ 32 ∧ d.addr < 2 ^ 64)

/-- A protected item (R492): a hedgerow patch holds 1 to 64 entries (R313), there are 64 permission ranges (R237), and a
nanosecond of a step lies in its second (R389). -/
def Item.wf (i : Item) : Bool :=
  match i with
  | .image _ _ => true
  | .hedgerow entries => decide (1 ≤ entries.length ∧ entries.length ≤ 64)
  | .forceRanges ranges => decide (ranges.length = 64)
  | .lifeCycle _ _ _ => true
  | .take => true
  | .handover => true
  | .dieFence _ => true
  | .timeStep set _ ns => !set || decide (0 ≤ ns ∧ ns < 1000000000)
  | .rtcWrite _ => true
  | .credential _ _ _ => true

/-- A well-formed command. -/
def Instr.wf (i : Instr) : Bool :=
  match i with
  | .cycleStart => true
  | .cyclicFrameReceive _ off _ _ f => offWf off && f.wf
  | .landingCutoff => true
  | .taskDispatch _ off mismatches => offWf off && mismatches.all (fun m => decide (m.1 < 8192))
  | .taskComplete _ off => offWf off
  | .releaseTick _ off => offWf off
  | .phaseSGate off _ => offWf off
  | .phaseLGate off => offWf off
  | .close _ => true
  | .localSlotRelease _ off => offWf off
  | .sampleComplete _ off mismatch => offWf off && mismatch.all (fun m => decide (m.1 ≤ 8))
  | .sampleSkip _ off => offWf off
  | .modeRequest _ _ => true
  | .tpWrite _ _ _ => true
  | .lawDataWrite _ _ _ => true
  | .lawAddrWrite _ _ => true
  | .lawStateRead _ => true
  | .clrFault _ => true
  | .clrMax _ => true
  | .reengage _ => true
  | .swatchStart _ _ => true
  | .swatchAbort _ => true
  | .laneStart _ _ => true
  | .laneHold _ => true
  | .laneResume _ => true
  | .laneAbort _ => true
  | .laneAdvance _ _ => true
  | .laneClear _ => true
  | .laneGoto _ _ => true
  | .validate _ => true
  | .invalidate _ => true
  | .axisStop _ => true
  | .axisResume _ => true
  | .axisReplan _ => true
  | .axisClrFault _ => true
  | .setPos _ _ => true
  | .stepperTick _ off => offWf off
  | .stall _ => true
  | .holdDelayExpiry _ => true
  | .pwmCommit _ => true
  | .pwGcommit _ _ => true
  | .reloadPoint _ off _ => offWf off
  | .swnEdge _ _ _ => true
  | .dtMaxExpiry _ _ => true
  | .comparatorChange _ off _ => offWf off
  | .sdiMainOutput _ off _ => offWf off
  | .sdiFastOutput _ off _ => offWf off
  | .dlCalibration _ _ => true
  | .tripFilterChange _ off _ => offWf off
  | .clockMonitorFault _ => true
  | .clkFaultClear _ => true
  | .linkHung _ => true
  | .dieSupplyFault _ => true
  | .dieOvertemp _ => true
  | .dieFence _ => true
  | .regionPortFence _ => true
  | .hgReset _ => true
  | .hgResetAll => true
  | .hedgerowPatch _ => true
  | .keyChange _ => true
  | .pairDiff => true
  | .ctlStop => true
  | .ctlStart => true
  | .reload _ _ _ => true
  | .kill _ _ => true
  | .enable _ _ => true
  | .forceSet _ => true
  | .forceRelease _ => true
  | .releaseAll => true
  | .olcApply => true
  | .waitExpiry _ => true
  | .holdMaxExpiry _ => true
  | .ceArm _ off => offWf off
  | .ceDisarm _ off => offWf off
  | .ceForce _ off => offWf off
  | .captureRow _ off => offWf off
  | .holdoffEnd _ off => offWf off
  | .spacerRow _ off => offWf off
  | .pulse _ off => offWf off
  | .tbCal branches shared => decide (branches.length ≤ 16 ∧ shared.length ≤ 8)
  | .trigPinEdge _ off => offWf off
  | .blockAgeExpiry _ => true
  | .epoch off => offWf off
  | .flush => true
  | .userMark _ off => offWf off
  | .specWrite => true
  | .streamEnable _ off => offWf off
  | .streamRecovery _ off => offWf off
  | .bufferWriteback _ _ => true
  | .tailWindow _ off => offWf off
  | .discoverReturn _ entries => decide (entries.length ≤ 126)
  | .admitReturn _ off _ => offWf off
  | .mailboxAnswer _ data _ => decide (data.length ≤ 1024)
  | .noAnswer _ => true
  | .stnHold _ => true
  | .stnFallow _ => true
  | .stnResume _ => true
  | .readmit _ => true
  | .linkLost _ => true
  | .ptpOffset m _ => decide (m.domain < 256)
  | .holdover => true
  | .tmSet => true
  | .tmOffset => true
  | .rtcUpdate off => offWf off
  | .rtcSecWrite _ => true
  | .rtcTrimWindow => true
  | .edgeCapture _ off _ _ => offWf off
  | .canFrameReceive _ off f => offWf off && f.wf
  | .canTxComplete _ off _ => offWf off
  | .arbitrationLost _ => true
  | .canError _ _ _ step => decide (step ≤ 8)
  | .busIntegration _ => true
  | .busOffRecovery _ => true
  | .recover _ => true
  | .cancel _ _ => true
  | .abdRestart _ => true
  | .abdWindowExpiry _ => true
  | .canTimingWrite _ _ _ => true
  | .canModeRequest _ _ => true
  | .helloSend => true
  | .hello h => decide (h.state ≤ 7)
  | .heartbeatSend => true
  | .heartbeatReceive off _ => offWf off
  | .takeover => true
  | .handover => true
  | .take => true
  | .resync => true
  | .mute => true
  | .digestReceive _ _ => true
  | .digWaitExpiry => true
  | .logEntryReceive _ => true
  | .olfoazLinkDown => true
  | .laneDeg => true
  | .seekTimeout _ => true
  | .bulkDone _ _ => true
  | .catchUpDone _ => true
  | .shadowDone _ => true
  | .resyncRetry => true
  | .checkpointDone => true
  | .warm => true
  | .warmNockpt => true
  | .warmRestart _ => true
  | .restoreDone => true
  | .coldReset _ _ _ _ _ _ _ => true
  | .dramTrained _ => true
  | .sectionsChecked _ _ _ _ => true
  | .ringWaitExpiry => true
  | .dramInitDone => true
  | .powerUp _ _ _ _ _ _ _ _ _ => true
  | .powerLoss => true
  | .ringDoorbell _ _ descs => descs.all Desc.wf
  | .ringReread _ descs => descs.all Desc.wf
  | .write _ _ _ => true
  | .writeBlock _ _ => true
  | .readBlock _ _ => true
  | .item _ _ _ data => decide (data.length ≤ 64)
  | .mailbox _ _ _ _ data _ => decide (data.length ≤ 1024)
  | .marker => true
  | .ringReset _ => true
  | .ringIrqTimer _ => true
  | .hostLinkLoss => true
  | .hostLinkReturn => true
  | .hostInputWrite _ _ => true
  | .registerWrite _ _ bytes off => offWf off && decide (1 ≤ bytes.length ∧ bytes.length ≤ 64)
  | .correctableError _ off => offWf off
  | .uncorrectableError _ _ => true
  | .scrubRead _ _ _ => true
  | .sentinelRun _ off _ _ _ => offWf off
  | .senClear _ => true
  | .areaCheck _ _ _ => true
  | .cvInit => true
  | .cvData _ => true
  | .cvDataB _ => true
  | .cvDmaGo => true
  | .cvDmaDone => true
  | .test => true
  | .service => true
  | .cvChGo _ => true
  | .cvChDone _ => true
  | .bistGo _ => true
  | .bistDone _ _ => true
  | .authNonce _ => true
  | .auth _ signature => decide (signature.length = 96)
  | .logout _ => true
  | .propose _ x _ => x.wf
  | .confirm _ _ _ => true
  | .withdraw _ _ => true
  | .updateBegin _ => true
  | .updateWrite _ _ len => decide (len ≤ 2 ^ 20)
  | .updateEnd _ _ _ _ _ => true
  | .activate _ _ => true
  | .activateDue => true
  | .activateDrop => true
  | .svnCommit _ => true
  | .reclaim _ => true
  | .sensors => true
  | .trace _ _ => true
  | .sessionTimeout _ => true
  | .authLockoutEnd => true
  | .proposalLapse _ => true
  | .eraseDone _ => true
  | .sensorSample temps volts _ _ _ => decide (temps.length = 20 ∧ volts.length = 16)
  | .lockstepMismatch => true
  | .mgmtReset => true
  | .nvmCopy _ => true
  | .commandedTransition _ _ _ _ => true
  | .hubHardwareLimit => true
  | .canClockGood => true
  | .fieldLinkUp _ => true
  | .olfoazLinkUp => true
  | .closeEntrySend _ => true
  | .tmNowRead off => offWf off
  | .consoleDisconnect => true
  | .vbatLoss => true
  | .validationDone => true
  | .busyWindowEnd clusters nets => decide (clusters.length = 128 ∧ nets.length = 16)

end Sys2Proof
end

