-- ==== Sys2Proof/Safety.lean ====
section
/-!
DEFINITION. The terms in which statements about the block are made: the canonical form of its memories, what a command
answers, what a command leaves as it was, and the words that recording an event may write.
-/
namespace Sys2Proof.Machine

/-- The canonical form of a memory of words or bytes that read as zero when unlisted. -/
abbrev Memory.wf {n : Nat} (m : List (Nat × BitVec n)) : Prop := Smap.wf (fun _ => 0) m

/-- Registers, law memory, DRAM data and record specifications are in canonical form, so that equal contents are equal
data. -/
def State.Canonical (s : State) : Prop :=
  Smap.wf Reg.reset s.io ∧ Memory.wf s.lawMem ∧ Memory.wf s.dram ∧ Memory.wf s.specs

/-- The command answers a next state, and the state meets the postcondition. -/
def Does (c : Instr) (s : State) (post : State → Prop) : Prop := ∃ t, exec c s = .next t ∧ post t

/-- A state that an operation gives meets the postcondition. -/
abbrev Meets (t : State) (post : State → Prop) : Prop := post t

/-- DRAM data, law memory, record specifications, and the output words of the image are as they were. -/
structure SameMemory (s t : State) : Prop where
  dram : t.dram = s.dram
  lawMem : t.lawMem = s.lawMem
  specs : t.specs = s.specs
  outMaster : t.outMaster = s.outMaster
  outCopy : t.outCopy = s.outCopy
  snap : t.snap = s.snap

/-- Every BAR0 word is as it was, but for those of the list. -/
def SameRegsBut (l : List Nat) (s t : State) : Prop := ∀ a, a ∉ l → t.rd a = s.rd a

/-- The words that recording an event may write (R454, R455, R458, R462, R490): the recorder's registers, the
interrupt status and pending bits, and the registers of rings 8 to 15. -/
def eventWord (a : Nat) : Prop :=
  a ∈ [R.EV_HEAD_SEQ, R.EV_OLDEST_SEQ, R.EV_STAGE_FILL, R.EV_LOST_CNT, R.EV_STAT, R.HI_IRQ0_STAT] ∨
    (0x9000 ≤ a ∧ a < 0x9020) ∨
    ∃ k, 8 ≤ k ∧ k < 16 ∧ a ∈ [R.HI_RING_HEAD k, R.HI_RING_CNT k, R.HI_RING_LOST k]

/-- Every BAR0 word is as it was, but for those of the list and those that recording an event may write. -/
def SameRegsButEvents (l : List Nat) (s t : State) : Prop := ∀ a, a ∉ l → ¬ eventWord a → t.rd a = s.rd a

/-- A host command to a slot of the variant applies at the t0 of its entry: the slot is field-synchronous, or not USED (R3,
R116, log 212). -/
abbrev State.slotNow (s : State) (k : Nat) : Prop := s.lacks (k / 256) = false ∧
  (s.bit (R.LE_CFG k) F.LE_CFG_TIMING = true ∨ s.bit (R.LE_CFG k) F.LE_CFG_USED = false)
/-- A host command to a slot of the variant waits for a release: the slot is USED and local (R3, R116). -/
abbrev State.slotWaits (s : State) (k : Nat) : Prop := s.lacks (k / 256) = false ∧
  s.bit (R.LE_CFG k) F.LE_CFG_TIMING = false ∧ s.bit (R.LE_CFG k) F.LE_CFG_USED = true
/-- The registers that a refused write may change, those of event recording and rings apart (R451). -/
abbrev werrRegs : List Nat := [R.HI_WERR_STAT, R.HI_WERR_ADDR, R.HI_WERR_CNT]

/-- The port at which a tail frame of a ring comes back (R380, log 234). -/
abbrev State.tailPort (s : State) (r : Nat) : Nat :=
  if s.bit (R.FP_RING_STAT r) F.FP_RING_STAT_BREAK then 2 * r else 2 * r + 1
/-- One host command of a lane waits for its Phase S, with no condition, restart or other command there (R157, R172). -/
abbrev State.laneWaits (s : State) (l code : Nat) : Prop :=
  (s.laneX l).host = [code] ∧ (s.laneX l).cmd = 0 ∧ (s.laneX l).fresh = false ∧ (s.laneX l).conds = 0
/-- The lane as Phase S leaves it after its conditions, commands, timers, ramps and exits (R172). -/
def State.laneAfter (s : State) (l : Nat) (n tag : Word) : State := (s.laneBegin l 0 n tag).1

end Sys2Proof.Machine
end

