-- ==== Sys2Proof/Certificates/Slice0/Obligations.lean ====
section
/-!
DEFINITION. The statements about the block.
-/
open Sys2Proof Sys2Proof.Machine


/-- A step runs the command at the front of the queue on the state with the queue's rest, and idles on an empty
queue. For every command c, rest of the queue and state s: step of s with c in front of the rest is exec of c on
s with the rest as its queue; step of a state whose queue is empty answers that state (the idle step is the
model's choice, log 10). -/
def Obligations.StepRunsTheFrontCommand : Prop :=
  (∀ (c : Instr) (rest : List Instr) (s : State),
    step { s with pending := c :: rest } = exec c { s with pending := rest }) ∧
  ∀ s : State, s.pending = [] → step s = .next s


/-- No command stops the block, and the queue loses exactly its front command. For every state s whose queue is c ::
rest, step answers a next state (never a fault or a refusal), whose queue is rest; so after as many steps as the
queue holds commands the queue is empty. The variant of the device is unchanged throughout. -/
def Obligations.EveryCommandCompletesAndTakesOnlyTheFront : Prop :=
  (∀ (s : State) (c : Instr) (rest : List Instr), s.pending = c :: rest →
    ∃ t, step s = .next t ∧ t.pending = rest ∧ t.lz2048 = s.lz2048) ∧
  ∀ s : State, ∃ t, Sys2Proof.core.run s.pending.length s = .next t ∧ t.pending = [] ∧ t.lz2048 = s.lz2048


/-- Every step keeps registers, law memory, DRAM data and record specifications in canonical form. For every state s
in canonical form (addresses strictly rising, no entry equal to what an unlisted address reads as, in the four
memories), if step of s answers a next state t, then t is in canonical form. Equal contents are therefore equal
data. The canonical form is the model's (log 6). -/
def Obligations.EveryStepKeepsCanonicalForm : Prop :=
  ∀ s t : State, s.Canonical → step s = .next t → t.Canonical


/-- The state after reset is in canonical form, and reads the reset values. State.reset is in canonical form, with
an empty queue and nothing sent; HI_ID reads PART 0x4096, every control die is STARTING, and every BAR0 word
other than the three listed ones reads its reset value. Where the spec gives no reset value, the reset value is
the model's (logs 4 to 6). -/
def Obligations.ResetIsCanonicalAndQuiet : Prop :=
  State.reset.Canonical ∧ State.reset.pending = [] ∧ State.reset.out = [] ∧
    State.reset.fld R.HI_ID F.HI_ID_PART = 0x4096 ∧ (∀ d : DieIx, State.reset.dieState d.val = 3) ∧
    ∀ a, a ≠ R.HI_ID → a ≠ R.HI_CAP → a ≠ R.HI_DIE_STATE → State.reset.rd a = Reg.reset a


/-- At the start of a cycle t0 and operating time advance by one period and the phases of the cycle reopen. In a
running unit whose first cycle has started, CYCLE_START advances the operating time by T and reopens the cut-
off, Phase S, Phase L and the close; t0 advances by exactly T when no step of the time base, no time command and
no confirmed change waits. The cycle number in TM_CYC_SEQ advances by 1 modulo 2^32 and t0 by T in the operation
that begins the cycle. A unit that is not up, or that waits in step 7 of start-up for the decision on its
checkpoint, idles. -/
def Obligations.CycleStartAdvancesTime : Prop :=
  (∀ s : State, s.boot.up = true → s.boot.started = true → s.phase ≠ 6 →
    Does .cycleStart s fun t => t.opNs = s.opNs + s.period ∧ t.cyc.cut = false ∧ t.cyc.sDone = false ∧
      t.cyc.lOpen = false ∧ t.cyc.closed = false) ∧
  (∀ s : State, s.boot.up = true → s.boot.started = true → s.phase ≠ 6 → s.tbStep = none → s.tm.set = none →
    s.mg.props = [] → Does .cycleStart s fun t => t.t0 = s.t0 + s.period) ∧
  (∀ s : State, s.boot.started = true → s.cycNext.seq = s.seq + 1 ∧ s.cycNext.t0 = s.t0 + s.period) ∧
  ∀ s : State, (s.boot.up = false ∨ (s.phase = 6 ∧ s.boot.use.isSome = true)) →
    exec .cycleStart s = .next s


/-- The cut-off, the Phase S gate, the Phase L gate and the close each act once in a cycle, in their order. In a
running unit the landing cut-off marks itself passed and counts the age of every listed CAN word: 0 after a
reception of this cycle (which the model holds as 256), else one more up to 255. Phase S opens at its offset or
later, once every active region has reported Phase N, and is then done; Phase L opens at its offset or later,
and not before the offset at which Phase S was done; the close closes the cycle. Each answers the state as it
was when it has already acted in the cycle, and Phase L also before Phase S is done. -/
def Obligations.CyclePhasesOpenOnce : Prop :=
  (∀ s : State, s.boot.up = true → s.boot.started = true → s.cyc.cut = false →
    Does .landingCutoff s fun t => t.cyc.cut = true ∧
      t.canAge = s.canAge.map (fun e => (e.1, if e.2 = 256 then 0 else min 255 (e.2 + 1))) ∧ t.cyc.closed = s.cyc.closed) ∧
  (∀ s : State, s.cyc.cut = true → exec .landingCutoff s = .next s) ∧
  (∀ (off : Nat) (b : Bool) (s : State), s.cyc.sDone = false → s.computes = true →
    s.fld R.TM_PH_S_START F.TM_PH_S_START_OFFSET ≤ off → s.activeRegions.all s.regionDone = true →
    Does (.phaseSGate off b) s fun t => t.cyc.sDone = true ∧ t.cyc.lOpen = s.cyc.lOpen ∧ t.hg.pendS = []) ∧
  (∀ (off : Nat) (b : Bool) (s : State), s.cyc.sDone = true → exec (.phaseSGate off b) s = .next s) ∧
  (∀ (off : Nat) (s : State), s.cyc.sDone = true → s.cyc.lOpen = false → s.cyc.sOff ≤ off →
    s.fld R.TM_PH_L_START F.TM_PH_L_START_OFFSET ≤ off →
    Does (.phaseLGate off) s fun t => t.cyc.lOpen = true ∧ t.cyc.sDone = true ∧ t.hg.pendL = []) ∧
  (∀ (off : Nat) (s : State), (s.cyc.sDone = false ∨ s.cyc.lOpen = true ∨ off < s.cyc.sOff) → exec (.phaseLGate off) s = .next s) ∧
  (∀ (m : BitVec 4) (s : State), s.boot.up = true → s.boot.started = true → s.cyc.closed = false →
    s.computes = true → Does (.close m) s fun t => t.cyc.closed = true ∧ t.opNs = s.opNs ∧ t.t0 = s.t0) ∧
  ∀ (m : BitVec 4) (s : State), s.cyc.closed = true → exec (.close m) s = .next s


/-- The snapshot of a close holds each output word as its owner, a force, a fence or stop and the hedgerow leave it.
For every output word w that may differ from 0 (written, with a fallow value, or forced) and is no reserved
index the snapshot holds, bit by bit, the word's fallow value where a term of the close rewrites it, and
elsewhere its fallow value if a fence or stop has taken the word, else the owner's value with the forced bits
laid over it. A reserved index (0xF800 and above) is sent as 0. The copies of the control dies receive the
snapshot, and the registers, the owners' values and the input log stay as they were. -/
def Obligations.SnapshotTakesOwnersForcesAndFallow : Prop :=
  (∀ (s : State) (w : Nat), w ∈ s.outWords → w < 0xF800 →
    s.snapshot.snapVal w =
      ((if s.wordsFallow.contains w then s.wordFallow w else s.forced (Ref.outWord w) (s.outVal w)) &&&
        ~~~ s.hgMask s.hgAtC w) ||| (s.wordFallow w &&& s.hgMask s.hgAtC w)) ∧
  (∀ (s : State) (w : Nat), 0xF800 ≤ w → w ∈ s.outWords → s.snapshot.snapVal w = 0) ∧
  ∀ s : State, s.snapshot.outCopy = s.snapshot.snap ∧ s.snapshot.io = s.io ∧ s.snapshot.outMaster = s.outMaster ∧
    s.snapshot.log = s.log ∧ s.snapshot.closeFallow = s.wordsFallow


/-- The engine takes the best ready task, a completion ends the running one, a tick wakes those whose time has come.
In a region that runs, with no stop and a best ready task b that may run, TASK_DISPATCH without a residue
mismatch makes b the running task (TK_STATE RUNNING) when the engine is idle, or when it runs a task u of a
higher priority number, which then stands at the head of the ready ones; while the controller is stopped nothing
is dispatched. TASK_COMPLETE leaves no task running and counts TK_RUNS; of a background task it marks the
instance complete, appends the writes it evaluates to those that wait for the publication, and changes no memory
and no register but those of the task and of the engine; with no running task it changes nothing. RELEASE_TICK
makes every configured task ready that waits on the release list and whose wake time has come, and changes
nothing in a region without such a task. -/
def Obligations.TaskCommands : Prop :=
  (∀ (r : RegionIx) (off b : Nat) (s : State), s.stopped = false → s.dieState (r.val / 4) = 0 →
    s.regionHeld r = false → (s.rsX r).halt = false → (s.rsX r).run = none → s.taskBest r = some b →
    Does (.taskDispatch r off []) s fun t => (t.rsX r).run = some b ∧ b ∉ (t.rsX r).ready ∧ t.taskState r b = 4) ∧
  (∀ (r : RegionIx) (off b u : Nat) (s : State), s.stopped = false → s.dieState (r.val / 4) = 0 →
    s.regionHeld r = false → (s.rsX r).halt = false → (s.rsX r).run = some u → s.taskBest r = some b →
    s.fld (R.TK_CFG r b) F.TK_CFG_PRIO < s.fld (R.TK_CFG r u) F.TK_CFG_PRIO →
    Does (.taskDispatch r off []) s fun t => (t.rsX r).run = some b ∧ b ∉ (t.rsX r).ready ∧
      (t.rsX r).ready.head? = some u) ∧
  (∀ (r : RegionIx) (off : Nat) (m : List (Nat × Bool)) (s : State), s.stopped = true →
    exec (.taskDispatch r off m) s = .next s) ∧
  (∀ (r : RegionIx) (off b : Nat) (s : State), (s.rsX r).run = some b → s.taskInPhase r b = false →
    Does (.taskComplete r off) s fun t => (t.rsX r).run = none ∧
      t.rd (R.TK_RUNS r b) = s.rd (R.TK_RUNS r b) + 1 ∧ (t.taskX (taskKey r b)).done = true ∧
      (s.taskX (taskKey r b)).writes <+: (t.taskX (taskKey r b)).writes ∧ SameMemory s t ∧
      SameRegsBut [R.NE_STAT r, R.NE_LAST_NODE r, R.NE_STALL_CNT r, R.TK_STATE r b, R.TK_RUNS r b,
        R.TK_EXEC_MAX r b] s t) ∧
  (∀ (r : RegionIx) (off b : Nat) (s : State), (s.rsX r).run = some b →
    Does (.taskComplete r off) s fun t => (t.rsX r).run = none) ∧
  (∀ (r : RegionIx) (off : Nat) (s : State), (s.rsX r).run = none → exec (.taskComplete r off) s = .next s) ∧
  (∀ (r : RegionIx) (off b : Nat) (s : State), b ∈ s.usedTasks r → s.taskState r b = 2 →
    (s.taskX (taskKey r b)).wake ≤ s.now off →
    Does (.releaseTick r off) s fun t => b ∈ (t.rsX r).ready ∧ t.taskState r b = 3) ∧
  ∀ (r : RegionIx) (off : Nat) (s : State), (∀ b ∈ s.usedTasks r, s.taskState r b ≠ 2) →
    exec (.releaseTick r off) s = .next s


/-- CLR_FAULT ends a slot fault, CLR_MAX clears the largest delay, REENGAGE stands until the next sample. For a slot
that the variant has: one that is field-synchronous or not USED: outside RUN, with the cluster not held by its
sentinel, CLR_FAULT ends the fault of the slot and clears FCAUSE.SLOT_FAULT; CLR_MAX, in every mode, sets
LE_MAX_DELAY to 0; REENGAGE, outside RUN and with no writer of the field in the image, sets LE_SUP_CMD.REENGAGE.
For a used local slot each of the three waits for the first release after this t0, with LE_CMD showing its bit
for the first two, and nothing else of the slot changes. A release takes the waiting commands, in a slot outside
a cascade, except those of the present cycle at its t0. In RUN, CLR_FAULT and REENGAGE are refused: the slots
stay and HI_WERR_CNT counts. No other register and no memory changes. That an unused slot takes them at t0 is
the model's choice (log 212). -/
def Obligations.SlotClearCommands : Prop :=
  (∀ (k : SlotIx) (s : State), s.mode ≠ 3 → s.bit (R.LC_SEN_STAT (k.val / 32)) F.LC_SEN_STAT_HELD = false → s.slotNow k →
    Does (.clrFault k) s fun t => (t.slotX k).fault = false ∧ t.bit (R.LE_STAT k) ⟨11, 1⟩ = false ∧
      SameMemory s t ∧ SameRegsBut [R.LE_STAT k, R.LE_CMD k] s t) ∧
  (∀ (k : SlotIx) (s : State), s.mode ≠ 3 → s.slotWaits k →
    Does (.clrFault k) s fun t => (t.slotX k).host = (s.slotX k).host ++ [(R.LE_CMD k, 1, 1, s.seq)] ∧
      t.bit (R.LE_CMD k) F.LE_CMD_CLR_FAULT = true ∧ (t.slotX k).fault = (s.slotX k).fault ∧ SameMemory s t ∧
      SameRegsBut [R.LE_CMD k] s t) ∧
  (∀ (k : SlotIx) (c : Instr) (s : State), s.lacks (k.val / 256) = false → s.mode = 3 → c ∈ [.clrFault k, .reengage k] →
    Does c s fun t => t.slots = s.slots ∧ t.rd R.HI_WERR_CNT = s.rd R.HI_WERR_CNT + 1 ∧ SameMemory s t ∧
      SameRegsButEvents werrRegs s t) ∧
  (∀ (k : SlotIx) (s : State), s.slotNow k → Does (.clrMax k) s fun t =>
    t.rd (R.LE_MAX_DELAY k) = 0 ∧ t.slots = s.slots ∧ SameMemory s t ∧
      SameRegsBut [R.LE_MAX_DELAY k, R.LE_CMD k] s t) ∧
  (∀ (k : SlotIx) (s : State), s.slotWaits k → Does (.clrMax k) s fun t =>
    (t.slotX k).host = (s.slotX k).host ++ [(R.LE_CMD k, 2, 2, s.seq)] ∧
      t.bit (R.LE_CMD k) F.LE_CMD_CLR_MAX = true ∧ SameMemory s t ∧ SameRegsBut [R.LE_CMD k] s t) ∧
  (∀ (k : SlotIx) (s : State), s.mode ≠ 3 → Smap.find s.img.owners (Ref.slotField k 31) = none → s.slotNow k →
    Does (.reengage k) s fun t => t.bit (R.LE_SUP_CMD k) F.LE_SUP_CMD_REENGAGE = true ∧ t.slots = s.slots ∧
      SameMemory s t ∧ SameRegsBut [R.LE_SUP_CMD k] s t) ∧
  (∀ (k : SlotIx) (s : State), s.mode ≠ 3 → Smap.find s.img.owners (Ref.slotField k 31) = none → s.slotWaits k →
    Does (.reengage k) s fun t => (t.slotX k).host = (s.slotX k).host ++ [(R.LE_SUP_CMD k, 1, 1, s.seq)] ∧
      SameMemory s t ∧ SameRegsBut [] s t) ∧
  ∀ (k : SlotIx) (off : Nat) (n : Word) (s : State), s.relDue k (s.now off) = true →
    s.bit (R.LE_CFG k) F.LE_CFG_CASC = false → (n ≠ s.seq ∨ off ≠ 0) →
    ((s.slotX k).host = [(R.LE_CMD k, 1, 1, n)] → s.bit (R.LC_SEN_STAT (k.val / 32)) F.LC_SEN_STAT_HELD = false →
      Does (.localSlotRelease k off) s fun t => (t.slotX k).fault = false ∧ (t.slotX k).host = [] ∧
        t.bit (R.LE_STAT k) ⟨11, 1⟩ = false ∧ t.rd (R.LE_CMD k) = 0) ∧
    ((s.slotX k).host = [(R.LE_CMD k, 2, 2, n)] →
      Does (.localSlotRelease k off) s fun t => t.rd (R.LE_MAX_DELAY k) = 0 ∧ (t.slotX k).host = [] ∧
        t.rd (R.LE_CMD k) = 0) ∧
    ((s.slotX k).host = [(R.LE_SUP_CMD k, 1, 1, n)] →
      Does (.localSlotRelease k off) s fun t => t.bit (R.LE_SUP_CMD k) F.LE_SUP_CMD_REENGAGE = true ∧
        (t.slotX k).host = [])


/-- A requestable mode is held as the request, and a finite TP value is shown at once and waits for the next
release. For a slot that the variant has: one that is field-synchronous or not USED, outside RUN and for a field
that the image gives no writer: a mode code 0 to 3 becomes LE_MODE.REQ and clears FCAUSE.COMMAND; FALLOW (4)
also becomes REQ, and in a used slot sets FCAUSE.COMMAND; any other code leaves the slot's registers as they
were, but for the WARN. A TP write of a finite value shows it in LE_TP and lists it for the slot's next release;
a NaN or an infinity leaves every register but those of event recording, and the list, as they were. LE_MODE.EFF
changes in no case but code 4. For a used local slot the write waits, and the first release after this t0 takes
it. In RUN, and for a field with a writer, the write is refused with status 1 or 2: the slots stay and
HI_WERR_CNT counts. That an unused slot takes it at t0 is the model's choice (log 212). -/
def Obligations.SlotModeAndParameterWrites : Prop :=
  (∀ (k : SlotIx) (code : BitVec 3) (s : State), s.mode ≠ 3 → Smap.find s.img.owners (Ref.slotField k 4) = none →
    s.slotNow k →
    (code.toNat ≤ 3 → Does (.modeRequest k code) s fun t => t.fld (R.LE_MODE k) F.LE_MODE_REQ = code.toNat ∧
      t.fld (R.LE_MODE k) F.LE_MODE_EFF = s.fld (R.LE_MODE k) F.LE_MODE_EFF ∧
      t.bit (R.LE_STAT k) ⟨12, 1⟩ = false ∧ SameMemory s t ∧ SameRegsBut [R.LE_MODE k, R.LE_STAT k] s t) ∧
    (code.toNat = 4 → s.bit (R.LE_CFG k) F.LE_CFG_USED = false → Does (.modeRequest k code) s fun t =>
      t.fld (R.LE_MODE k) F.LE_MODE_REQ = 4 ∧ SameRegsBut [R.LE_MODE k] s t) ∧
    (code.toNat = 4 → s.bit (R.LE_CFG k) F.LE_CFG_USED = true → Does (.modeRequest k code) s fun t =>
      t.fld (R.LE_MODE k) F.LE_MODE_REQ = 4 ∧ t.bit (R.LE_STAT k) ⟨12, 1⟩ = true) ∧
    (4 < code.toNat → Does (.modeRequest k code) s fun t => t.slots = s.slots ∧ SameMemory s t ∧
      SameRegsButEvents [] s t)) ∧
  (∀ (k : SlotIx) (n : Fin 8) (v : Word) (s : State), s.mode ≠ 3 →
    Smap.find s.img.owners (Ref.slotField k (13 + n)) = none → s.slotNow k →
    (F32.finite v = true → Does (.tpWrite k n v) s fun t => t.rd (R.LE_TP k n) = v ∧
      Smap.find (t.slotX k).tp n = some v ∧ SameMemory s t ∧ SameRegsBut [R.LE_TP k n] s t) ∧
    (F32.finite v = false → Does (.tpWrite k n v) s fun t => t.slots = s.slots ∧ SameMemory s t ∧
      SameRegsButEvents [] s t)) ∧
  (∀ (k : SlotIx) (code : BitVec 3) (s : State), s.mode ≠ 3 → Smap.find s.img.owners (Ref.slotField k 4) = none →
    s.slotWaits k → Does (.modeRequest k code) s fun t =>
      (t.slotX k).host = (s.slotX k).host ++ [(R.LE_MODE k, Word.ofN code.toNat, 7, s.seq)] ∧ SameMemory s t ∧
      SameRegsBut [] s t) ∧
  (∀ (k : SlotIx) (n : Fin 8) (v : Word) (s : State), s.mode ≠ 3 →
    Smap.find s.img.owners (Ref.slotField k (13 + n)) = none → s.slotWaits k →
    Does (.tpWrite k n v) s fun t =>
      (t.slotX k).host = (s.slotX k).host ++ [(R.LE_TP k n, v, 0xFFFFFFFF, s.seq)] ∧ SameMemory s t ∧
      SameRegsBut [] s t) ∧
  (∀ (k : SlotIx) (off : Nat) (n : Word) (code : BitVec 3) (s : State), s.relDue k (s.now off) = true →
    s.bit (R.LE_CFG k) F.LE_CFG_CASC = false → (n ≠ s.seq ∨ off ≠ 0) → code.toNat ≤ 3 →
    (s.slotX k).host = [(R.LE_MODE k, Word.ofN code.toNat, 7, n)] →
    Does (.localSlotRelease k off) s fun t => t.fld (R.LE_MODE k) F.LE_MODE_REQ = code.toNat ∧
      (t.slotX k).host = []) ∧
  (∀ (k : SlotIx) (off : Nat) (n : Word) (i : Fin 8) (v : Word) (s : State), s.relDue k (s.now off) = true →
    s.bit (R.LE_CFG k) F.LE_CFG_CASC = false → (n ≠ s.seq ∨ off ≠ 0) → F32.finite v = true →
    (s.slotX k).host = [(R.LE_TP k i, v, 0xFFFFFFFF, n)] →
    Does (.localSlotRelease k off) s fun t => t.rd (R.LE_TP k i) = v ∧ (t.slotX k).host = [] ∧ (t.slotX k).tp = []) ∧
  ∀ (k : SlotIx) (code : BitVec 3) (n : Fin 8) (v : Word) (c : Instr) (f : Nat) (s : State), s.lacks (k.val / 256) = false →
    (c = .modeRequest k code ∧ f = 4) ∨ (c = .tpWrite k n v ∧ f = 13 + n.val) →
    (s.mode = 3 ∨ (Smap.find s.img.owners (Ref.slotField k f)).isSome = true) →
    Does c s fun t => t.slots = s.slots ∧ t.rd R.HI_WERR_CNT = s.rd R.HI_WERR_CNT + 1 ∧
      (s.fld R.HI_WERR_STAT F.HI_WERR_STAT_STATUS = 0 →
        t.fld R.HI_WERR_STAT F.HI_WERR_STAT_STATUS = if s.mode = 3 then 1 else 2) ∧ SameMemory s t ∧
      SameRegsButEvents werrRegs s t


/-- The law port writes one word of a slot that permits it, and reads the word at its address. For a cluster that
the variant has: LC_LAW_ADDR takes its WORD and AUTOINC fields. In PROGRAM, with the slot of the word at EFF
DISABLED or MANUAL, a finite value (or any value of a state word) is stored in that word of the cluster's law
memory and no other word, and no register changes; in another mode no word changes and LC_STAT.LAW_DENIED is
set. A read outside the latched words shows the word at WORD in LC_LAW_DATA, advances WORD modulo 4,096 with
AUTOINC, and leaves the law memory as it was. -/
def Obligations.LawMemoryPort : Prop :=
  (∀ (c : ClusterIx) (v : Word) (s : State), s.lacks (c.val / 8) = false → Does (.lawAddrWrite c v) s fun t =>
    t.fld (R.LC_LAW_ADDR c) F.LC_LAW_ADDR_WORD = F.LC_LAW_ADDR_WORD.get v ∧
      t.bit (R.LC_LAW_ADDR c) F.LC_LAW_ADDR_AUTOINC = v.getLsbD 31 ∧ SameMemory s t ∧
      SameRegsBut [R.LC_LAW_ADDR c] s t) ∧
  (∀ (c : ClusterIx) (w : Fin 4096) (v : Word) (s : State), s.lacks (c.val / 8) = false → s.mode = 1 →
    s.fld (R.LE_MODE (lawSlot c w)) F.LE_MODE_EFF ≤ 1 → (12 ≤ w.val % 16 ∨ F32.finite v = true) →
    Does (.lawDataWrite c w v) s fun t =>
      Smap.get (fun _ => (0 : Word)) t.lawMem (4096 * c.val + w.val) = v ∧
      (∀ j, j ≠ 4096 * c.val + w.val →
        Smap.get (fun _ => (0 : Word)) t.lawMem j = Smap.get (fun _ => (0 : Word)) s.lawMem j) ∧
      t.io = s.io ∧ t.dram = s.dram) ∧
  (∀ (c : ClusterIx) (w : Fin 4096) (v : Word) (s : State), s.lacks (c.val / 8) = false → s.mode ≠ 1 →
    Does (.lawDataWrite c w v) s fun t => t.bit (R.LC_STAT c) F.LC_STAT_LAW_DENIED = true ∧ SameMemory s t) ∧
  ∀ (c : ClusterIx) (s : State), s.lacks (c.val / 8) = false → (s.clusterX c).latch = none →
    Does (.lawStateRead c) s fun t =>
      t.rd (R.LC_LAW_DATA c) = Smap.get (fun _ => (0 : Word)) s.lawMem
        (4096 * c.val + s.fld (R.LC_LAW_ADDR c) F.LC_LAW_ADDR_WORD) ∧
      (s.bit (R.LC_LAW_ADDR c) F.LC_LAW_ADDR_AUTOINC = true →
        t.fld (R.LC_LAW_ADDR c) F.LC_LAW_ADDR_WORD = (s.fld (R.LC_LAW_ADDR c) F.LC_LAW_ADDR_WORD + 1) % 4096) ∧
      SameMemory s t ∧ SameRegsBut [R.LC_LAW_DATA c, R.LC_LAW_ADDR c] s t


/-- A release makes a ready sample, a skip drops the oldest one past its deadline, a completion takes it for the
engine. A used local slot outside a cascade, of a running die, region and loop start, whose timer matches at a
time that has had no release, gets a ready sample whose instant is the release time, at the end of its list; its
deadline is the next computed release time that has had none, and the release time is noted; LE_SAMPLE_T shows
the tag. Where the oldest ready sample of a running slot has not started by its deadline, SAMPLE_SKIP of that
slot, alone or a member of its cascade, completes: it takes the sample off the list, keeps the others, and
counts in LE_SKIP_CNT, and outside a cascade once in LC_SKIP_CNT. SAMPLE_COMPLETE of a running slot whose sample
the cluster's engine runs completes, with or without a residue mismatch, and takes that sample off; with no
residue mismatch and no fallow cause during the run it leaves LE_OVR.RUN 0, and sets LE_STAT.LATE when the
completion lies after the sample's deadline. It changes nothing for a slot whose sample the engine does not run. -/
def Obligations.SampleReleaseSkipAndCompletion : Prop :=
  (∀ (k : SlotIx) (off : Nat) (s : State), s.relDue k (s.now off) = true → s.bit (R.LE_CFG k) F.LE_CFG_CASC = false →
    Does (.localSlotRelease k off) s fun t => t.rd (R.LE_SAMPLE_T k) = tagOf (s.now off) ∧
      (t.slotX k).rels = relNote (s.slotX k).rels (s.rd (R.LE_PERIOD k)).toNat (s.now off) ∧
      ∃ r, (t.slotX k).ready.getLast? = some r ∧ r.t = s.now off ∧ r.dead = none ∧
        r.deadline = relFree (t.slotX k).rels (s.rd (R.LE_PERIOD k)).toNat (s.now off + (s.rd (R.LE_PERIOD k)).toNat)) ∧
  (∀ (k : SlotIx) (off : Nat) (s : State), s.relDue k (s.now off) = false → exec (.localSlotRelease k off) s = .next s) ∧
  (∀ (k : SlotIx) (off : Nat) (r : Ready) (rest : List Ready) (s : State), (s.slotX k).ready = r :: rest →
    s.slotRuns k = true → k.val ∈ s.jobSlots (s.jobHead k) → s.jobSkips k (s.now off) r = true →
    Does (.sampleSkip k off) s fun t => (t.slotX k).ready.map Ready.t = rest.map Ready.t ∧
      t.rd (R.LE_SKIP_CNT k) = s.rd (R.LE_SKIP_CNT k) + 1 ∧
      (s.bit (R.LE_CFG k) F.LE_CFG_CASC = false → t.rd (R.LC_SKIP_CNT (k.val / 32)) = s.rd (R.LC_SKIP_CNT (k.val / 32)) + 1)) ∧
  (∀ (k : SlotIx) (off h : Nat) (r : Ready) (s : State), s.engineJob (k.val / 32) = some (h, k.val, r) →
    s.slotRuns k = true → r.dead = none →
    Does (.sampleComplete k off none) s fun t => t.fld (R.LE_OVR k) F.LE_OVR_RUN = 0 ∧
      (r.deadline < s.now off → t.bit (R.LE_STAT k) F.LE_STAT_LATE = true)) ∧
  (∀ (k : SlotIx) (off h : Nat) (m : Option (Nat × Bool)) (r : Ready) (s : State),
    s.engineJob (k.val / 32) = some (h, k.val, r) → s.slotRuns k = true →
    Does (.sampleComplete k off m) s fun t => (t.slotX k).ready.map Ready.t = ((s.slotX k).ready.drop 1).map Ready.t) ∧
  ∀ (k : SlotIx) (off : Nat) (m : Option (Nat × Bool)) (s : State), s.engineJob (k.val / 32) = none →
    exec (.sampleComplete k off m) s = .next s


/-- A swatch starts only where no refusal stands, and an abort command ends a running one. For a cluster that the
variant has: SWATCH_START on a slot puts the slot in LC_SW_CTRL and its refusal in LC_SW_STAT.CAUSE. Without a
refusal STATE becomes 1 with 0 samples counted, the window of the swatch opens, the slot shows
LE_SUP_STAT.SWATCH, and no other register changes but the use of the window pool. With a refusal the clusters
stay as they were, STATE becomes 0 where no swatch runs, and a running swatch keeps its STATE; a refusal for the
mode counts in HI_WERR_CNT too. SWATCH_ABORT of a running swatch leaves it ABORTED (5) with cause 5, closes its
window and clears LE_SUP_STAT.SWATCH; it changes nothing where none runs. -/
def Obligations.SwatchStartAndAbort : Prop :=
  (∀ (c : ClusterIx) (n : Fin 32) (s : State), s.lacks (c.val / 8) = false →
    (s.setFld (R.LC_SW_CTRL c) F.LC_SW_CTRL_SLOT n).swatchRefuse c = 0 →
    Does (.swatchStart c n) s fun t => t.fld (R.LC_SW_CTRL c) F.LC_SW_CTRL_SLOT = n.val ∧
      t.fld (R.LC_SW_STAT c) F.LC_SW_STAT_STATE = 1 ∧ t.fld (R.LC_SW_STAT c) F.LC_SW_STAT_CAUSE = 0 ∧
      t.fld (R.LC_SW_CNT c) F.LC_SW_CNT_SAMPLES = 0 ∧ (t.clusterX c).win.isSome = true ∧ (t.clusterX c).slot = n.val ∧
      t.bit (R.LE_SUP_STAT (c.val * 32 + n.val)) F.LE_SUP_STAT_SWATCH = true ∧ SameMemory s t ∧
      SameRegsBut [R.LC_SW_CTRL c, R.LC_SW_STAT c, R.LC_SW_CNT c, R.LE_SUP_STAT (c.val * 32 + n.val),
        R.CE_POOL_FREE (c.val / 8)] s t) ∧
  (∀ (c : ClusterIx) (n : Fin 32) (s : State) (w : Nat), s.lacks (c.val / 8) = false →
    (s.setFld (R.LC_SW_CTRL c) F.LC_SW_CTRL_SLOT n).swatchRefuse c = w → w ≠ 0 →
    Does (.swatchStart c n) s fun t => t.fld (R.LC_SW_STAT c) F.LC_SW_STAT_CAUSE = w ∧
      t.fld (R.LC_SW_STAT c) F.LC_SW_STAT_STATE =
        (if 1 ≤ s.fld (R.LC_SW_STAT c) F.LC_SW_STAT_STATE ∧ s.fld (R.LC_SW_STAT c) F.LC_SW_STAT_STATE ≤ 3 then
          s.fld (R.LC_SW_STAT c) F.LC_SW_STAT_STATE else 0) ∧ t.clusters = s.clusters ∧ SameMemory s t ∧
      SameRegsButEvents ([R.LC_SW_CTRL c, R.LC_SW_STAT c] ++ if w = 1 then werrRegs else []) s t) ∧
  (∀ (c : ClusterIx) (s : State), s.lacks (c.val / 8) = false → 1 ≤ s.fld (R.LC_SW_STAT c) F.LC_SW_STAT_STATE →
    s.fld (R.LC_SW_STAT c) F.LC_SW_STAT_STATE ≤ 3 →
    Does (.swatchAbort c) s fun t => t.fld (R.LC_SW_STAT c) F.LC_SW_STAT_STATE = 5 ∧
      t.fld (R.LC_SW_STAT c) F.LC_SW_STAT_CAUSE = 5 ∧ (t.clusterX c).win = none ∧
      t.bit (R.LE_SUP_STAT (c.val * 32 + (s.clusterX c).slot)) F.LE_SUP_STAT_SWATCH = false ∧ SameMemory s t) ∧
  ∀ (c : ClusterIx) (s : State), s.lacks (c.val / 8) = false → (s.fld (R.LC_SW_STAT c) F.LC_SW_STAT_STATE = 0 ∨
    4 ≤ s.fld (R.LC_SW_STAT c) F.LC_SW_STAT_STATE) → exec (.swatchAbort c) s = .next s


/-- START waits for Phase S, and there puts an idle or finished lane at step 0 of a valid recipe of its chamber.
LANE_START of a configured lane in PROGRAM or REMOTE puts the recipe into SQ_CMD_ARG and the code into SQ_CMD,
where it waits for Phase S; nothing else changes. In Phase S, on a lane with no other command, condition or
restart that is IDLE or DONE, with a VALID recipe of the lane's chamber, it sets SQ_POS to the recipe and step
0, clears SQ_SEQ and SQ_CMD, waits for step 0 with its fetch ready two cycles later, and marks the recipe
IN_USE; SQ_STATE is RUN with PEND. On a lane in another state SQ_REJ shows code 1 with reason 1, and for a
recipe that is not VALID or of another chamber reason 3; SQ_POS then stays. -/
def Obligations.LaneStartAdmitsARecipe : Prop :=
  (∀ (l : LaneIx) (n : Fin 256) (s : State), s.laneUsed l = true → (s.mode = 1 ∨ s.mode = 2) →
    Does (.laneStart l n) s fun t => (t.laneX l).host = (s.laneX l).host ++ [1] ∧ (t.rd (R.SQ_CMD l)).toNat = 1 ∧
      (t.rd (R.SQ_CMD_ARG l)).toNat = n.val ∧ SameMemory s t ∧ SameRegsBut [R.SQ_CMD l, R.SQ_CMD_ARG l] s t) ∧
  (∀ (l : LaneIx) (r : Nat) (n tag : Word) (s : State), s.laneWaits l 1 → (s.rd (R.SQ_CMD_ARG l)).toNat % 256 = r →
    (s.laneState l = 0 ∨ s.laneState l = 4) →
    (s.rcpValid r = true → s.rcpChamber r = s.fld (R.SQ_CFG l) F.SQ_CFG_CHAMBER →
      Meets (s.laneAfter l n tag) fun t => t.laneRecipe l = r ∧ t.laneStep l = 0 ∧
      t.rd (R.SQ_SEQ l) = 0 ∧ t.rd (R.SQ_STATE l) = 0x11 ∧
      (t.laneX l).wait = some ⟨0, none, n + 2⟩ ∧ t.rcpInUse r = true ∧
      t.fld (R.SQ_CMD l) F.SQ_CMD_CODE = 0 ∧
      t.lawMem = s.lawMem ∧ t.outMaster = s.outMaster) ∧
    ((s.rcpValid r = false ∨ s.rcpChamber r ≠ s.fld (R.SQ_CFG l) F.SQ_CFG_CHAMBER) →
      Meets (s.laneAfter l n tag) fun t => t.rd (R.SQ_REJ l) = 0x31 ∧ t.rd (R.SQ_POS l) = s.rd (R.SQ_POS l) ∧
      SameMemory s t)) ∧
  ∀ (l : LaneIx) (n tag : Word) (s : State), s.laneWaits l 1 → s.laneState l ≠ 0 → s.laneState l ≠ 4 →
    Meets (s.laneAfter l n tag) fun t => t.rd (R.SQ_REJ l) = 0x11 ∧ t.rd (R.SQ_POS l) = s.rd (R.SQ_POS l) ∧
      SameMemory s t


/-- The other lane commands wait for Phase S, and act there in the states that permit them. HOLD and ABORT of a
configured lane outside STOP, and RESUME, ADVANCE, CLEAR and GOTO in PROGRAM or REMOTE, put their code into
SQ_CMD (and their argument into SQ_CMD_ARG) and wait for Phase S; nothing else changes. In Phase S, on a lane
with no other command, condition or restart: HOLD takes a lane from RUN to HOLD with cause COMMAND. RESUME takes
a lane in HOLD back to ABORTING if it was in its abort path and to RUN otherwise, with no hold cause. ABORT of a
lane in RUN whose recipe holds no abort entry ends the recipe, DONE with ABORTED; with an abort entry the lane
is ABORTING. ADVANCE on a HOST exit of the committed step of a lane in RUN ends that step, by this exit or a
lower one. CLEAR takes a DONE lane to IDLE and releases its recipe. GOTO in HOLD waits for the step with PEND
set. -/
def Obligations.LaneHoldResumeAbortAdvanceClearGoto : Prop :=
  (∀ (l : LaneIx) (e : Fin 4) (k : Fin 4096) (c : Instr) (code : Nat) (s : State), s.laneUsed l = true →
    (c, code) ∈ [(Instr.laneHold l, 2), (.laneResume l, 3), (.laneAbort l, 4), (.laneAdvance l e, 5),
      (.laneClear l, 6), (.laneGoto l k, 7)] →
    (s.mode = 1 ∨ s.mode = 2 ∨ (s.mode = 3 ∧ (code = 2 ∨ code = 4))) →
    Does c s fun t => (t.laneX l).host = (s.laneX l).host ++ [code] ∧ (t.rd (R.SQ_CMD l)).toNat = code ∧
      (code = 5 → (t.rd (R.SQ_CMD_ARG l)).toNat = e.val) ∧ (code = 7 → (t.rd (R.SQ_CMD_ARG l)).toNat = k.val) ∧
      SameMemory s t ∧ SameRegsBut [R.SQ_CMD l, R.SQ_CMD_ARG l] s t) ∧
  (∀ (l : LaneIx) (n tag : Word) (s : State), s.laneWaits l 2 → s.laneState l = 1 →
    Meets (s.laneAfter l n tag) fun t => t.laneState l = 2 ∧ t.bit (R.SQ_STATE l) ⟨8, 1⟩ = true ∧
      t.laneInAbort l = false ∧ SameMemory s t) ∧
  (∀ (l : LaneIx) (n tag : Word) (s : State), s.laneWaits l 3 → s.laneState l = 2 →
    Meets (s.laneAfter l n tag) fun t => t.laneState l = (if s.laneInAbort l then 3 else 1) ∧
      t.fld (R.SQ_STATE l) F.SQ_STATE_HOLD_CAUSE = 0 ∧
      t.laneInAbort l = false ∧ SameMemory s t) ∧
  (∀ (l : LaneIx) (n tag : Word) (s : State), s.laneWaits l 4 → s.laneState l = 1 →
    (s.bit (R.SQ_ABORT_ENT l) F.SQ_ABORT_ENT_HELD = false →
      Meets (s.laneAfter l n tag) fun t => t.laneState l = 4 ∧ t.bit (R.SQ_STATE l) F.SQ_STATE_ABORTED = true ∧
      (t.laneX l).wait = none ∧ (t.laneX l).abort = false ∧
      t.lawMem = s.lawMem) ∧
    (s.bit (R.SQ_ABORT_ENT l) F.SQ_ABORT_ENT_HELD = true →
      Meets (s.laneAfter l n tag) fun t => t.laneState l = 3 ∧ (t.laneX l).abort = true)) ∧
  (∀ (l : LaneIx) (e : Fin 4) (n tag : Word) (s : State), s.laneWaits l 5 → s.laneState l = 1 →
    s.lanePend l = false → (s.laneX l).abort = false → (s.laneX l).kept = none →
    (s.rd (R.SQ_CMD_ARG l)).toNat = e.val → e.val < s.stepExits (s.laneRecipe l) (s.laneStep l) →
    (s.stepExit (s.laneRecipe l) (s.laneStep l) e).typ = 5 →
    ∃ j, (s.laneBegin l 0 n tag).2 = some j ∧ j ≤ e.val) ∧
  (∀ (l : LaneIx) (n tag : Word) (s : State), s.laneWaits l 6 → s.laneState l = 4 →
    Meets (s.laneAfter l n tag) fun t => t.laneState l = 0 ∧ t.bit (R.SQ_STATE l) F.SQ_STATE_ABORTED = false ∧
      t.rcpInUse (s.laneRecipe l) = false) ∧
  ∀ (l : LaneIx) (n tag : Word) (s : State), s.laneWaits l 7 → s.laneState l = 2 →
    (s.rd (R.SQ_CMD_ARG l)).toNat % 4096 < s.rcpSteps (s.laneRecipe l) →
    Meets (s.laneAfter l n tag) fun t => t.laneState l = 2 ∧ t.lanePend l = true ∧
      (t.laneX l).wait = some ⟨(s.rd (R.SQ_CMD_ARG l)).toNat % 4096, none, n + 2⟩ ∧
      (t.laneX l).ramps = [] ∧ SameMemory s t


/-- A lane command that the mode forbids is refused with reason 2, and one to an unconfigured lane does nothing. For
each of the seven lane commands of a configured lane in a mode that does not permit it (in STOP every one, in
RUN all but HOLD and ABORT), SQ_REJ shows the code with reason 2, SQ_STAT.CMD_REJ is set, the refused write
counts in HI_WERR_CNT, and the lanes, the memories and every other register but those of event recording stay. A
lane that the image does not configure is unaffected (the model's choice, log 45). -/
def Obligations.LaneCommandsKeepToModeAndConfiguration : Prop :=
  (∀ (l : LaneIx) (n : Fin 256) (e : Fin 4) (k : Fin 4096) (c : Instr) (code : Nat) (s : State), s.laneUsed l = true →
    (c, code) ∈ [(Instr.laneStart l n, 1), (.laneHold l, 2), (.laneResume l, 3), (.laneAbort l, 4),
      (.laneAdvance l e, 5), (.laneClear l, 6), (.laneGoto l k, 7)] →
    (s.mode = 0 ∨ (s.mode = 3 ∧ code ≠ 2 ∧ code ≠ 4)) →
    Does c s fun t => t.rd (R.SQ_REJ l) = Word.ofN (code + 32) ∧ t.bit (R.SQ_STAT l) F.SQ_STAT_CMD_REJ = true ∧
      t.rd R.HI_WERR_CNT = s.rd R.HI_WERR_CNT + 1 ∧ t.lanes = s.lanes ∧ SameMemory s t ∧
      SameRegsButEvents ([R.SQ_REJ l, R.SQ_STAT l] ++ werrRegs) s t) ∧
  ∀ (l : LaneIx) (n : Fin 256) (e : Fin 4) (k : Fin 4096) (c : Instr) (s : State), s.laneUsed l = false →
    c ∈ [Instr.laneStart l n, .laneHold l, .laneResume l, .laneAbort l, .laneAdvance l e, .laneClear l, .laneGoto l k] →
    exec c s = .next s


/-- A validation runs one at a time, and its end sets VALID exactly when no check fails. With no validation running,
VALIDATE puts the recipe and VALIDATE into SQ_RCP_CTRL and sets SQ_RCP_STAT.BUSY; with one running it leaves it
and shows cause IN_USE (6) without PASS. VALIDATION_DONE clears BUSY and SQ_RCP_CTRL.VALIDATE and shows the
first failing check of the recipe, PASS when there is none, and unless the recipe is in use its VALID bit says
whether the checks passed. INVALIDATE of a recipe that is not in use clears VALID; of one in use it shows cause
6 and leaves the store. -/
def Obligations.RecipeValidation : Prop :=
  (∀ (n : Fin 256) (s : State), s.bit R.SQ_RCP_STAT F.SQ_RCP_STAT_BUSY = false →
    Does (.validate n) s fun t => t.bit R.SQ_RCP_STAT F.SQ_RCP_STAT_BUSY = true ∧ t.validating = n.val ∧
      t.fld R.SQ_RCP_CTRL F.SQ_RCP_CTRL_RECIPE = n.val ∧ t.bit R.SQ_RCP_CTRL F.SQ_RCP_CTRL_VALIDATE = true ∧
      SameMemory s t ∧ SameRegsBut [R.SQ_RCP_STAT, R.SQ_RCP_CTRL] s t) ∧
  (∀ (n : Fin 256) (s : State), s.bit R.SQ_RCP_STAT F.SQ_RCP_STAT_BUSY = true →
    Does (.validate n) s fun t => t.validating = s.validating ∧ t.fld R.SQ_RCP_STAT F.SQ_RCP_STAT_CAUSE = 6 ∧
      t.bit R.SQ_RCP_STAT F.SQ_RCP_STAT_PASS = false ∧ SameMemory s t) ∧
  (∀ (s : State) (c : Nat), s.bit R.SQ_RCP_STAT F.SQ_RCP_STAT_BUSY = true →
    s.rcpCheck s.validating = c →
    Does .validationDone s fun t => t.bit R.SQ_RCP_STAT F.SQ_RCP_STAT_BUSY = false ∧
      t.fld R.SQ_RCP_STAT F.SQ_RCP_STAT_CAUSE = c ∧
      t.bit R.SQ_RCP_STAT F.SQ_RCP_STAT_PASS = decide (c = 0) ∧
      t.bit R.SQ_RCP_CTRL F.SQ_RCP_CTRL_VALIDATE = false ∧
      (c ≠ 6 → t.rcpValid s.validating = decide (c = 0)) ∧ SameRegsBut [R.SQ_RCP_STAT, R.SQ_RCP_CTRL] s t) ∧
  (∀ (n : Fin 256) (s : State), s.rcpInUse n = false →
    Does (.invalidate n) s fun t => t.rcpValid n = false ∧ t.rcpInUse n = false ∧ t.lawMem = s.lawMem ∧
      SameRegsBut [R.SQ_RCP_STAT, R.SQ_RCP_CTRL] s t) ∧
  ∀ (n : Fin 256) (s : State), s.rcpInUse n = true →
    Does (.invalidate n) s fun t => t.fld R.SQ_RCP_STAT F.SQ_RCP_STAT_CAUSE = 6 ∧ SameMemory s t ∧
      SameRegsBut [R.SQ_RCP_STAT, R.SQ_RCP_CTRL] s t


/-- An accepted key code is logged, a key difference is shown, and stop and start commands set and clear their
causes. In a unit that is not the standby and whose start-up has ended (phase 7), KEY_CHANGE shows the code in
TK_KEY and adds one KEY entry for the assigned cycle to the log. In a standby PAIR_DIFF sets TK_KEY.PAIR_DIFF.
In PROGRAM or REMOTE CTL_STOP sets cause COMMAND and CTL_START clears causes WATCHDOG and COMMAND, and neither
changes another register; in STOP and RUN both are refused writes and leave TK_CTL. -/
def Obligations.KeyAndStopCommands : Prop :=
  (∀ (code : BitVec 2) (s : State), s.role ≠ 2 → s.fld R.BT_STAT F.BT_STAT_PHASE = 7 →
    Does (.keyChange code) s fun t => t.fld R.TK_KEY F.TK_KEY_KEY = code.toNat ∧
      t.fld R.TK_KEY F.TK_KEY_PINS = code.toNat ∧
      t.log = s.log ++ [⟨s.assignCyc, s.lseq, false, s.tag 0, .key code⟩] ∧ t.lseq = s.lseq + 1 ∧
      SameMemory s t ∧ SameRegsBut [R.TK_KEY] s t) ∧
  (∀ s : State, s.role = 2 → Does .pairDiff s fun t => t.bit R.TK_KEY F.TK_KEY_PAIR_DIFF = true ∧ t.log = s.log ∧
    SameMemory s t ∧ SameRegsButEvents [R.TK_KEY] s t) ∧
  (∀ s : State, (s.mode = 1 ∨ s.mode = 2) →
    Does .ctlStop s fun t => (t.fld R.TK_CTL F.TK_CTL_CAUSE).testBit 3 = true ∧ t.mode = s.mode ∧
      t.stopped = s.stopped ∧ SameMemory s t ∧ SameRegsBut [R.TK_CTL] s t) ∧
  (∀ s : State, (s.mode = 1 ∨ s.mode = 2) →
    Does .ctlStart s fun t => (t.fld R.TK_CTL F.TK_CTL_CAUSE).testBit 3 = false ∧
      (t.fld R.TK_CTL F.TK_CTL_CAUSE).testBit 1 = false ∧ t.mode = s.mode ∧ t.stopped = s.stopped ∧
      SameMemory s t ∧ SameRegsBut [R.TK_CTL] s t) ∧
  ∀ s : State, (s.mode = 0 ∨ s.mode = 3) →
    (Does .ctlStop s fun t => t.rd R.TK_CTL = s.rd R.TK_CTL ∧ t.rd R.HI_WERR_CNT = s.rd R.HI_WERR_CNT + 1) ∧
    (Does .ctlStart s fun t => t.rd R.TK_CTL = s.rd R.TK_CTL ∧ t.rd R.HI_WERR_CNT = s.rd R.HI_WERR_CNT + 1)


/-- KILL disables a task and ENABLE makes it idle, an expired wait is logged, and a flow held too long kills its
holder. In PROGRAM or REMOTE, KILL of a used task that is not DISABLED leaves it DISABLED without an instance
and sets TK_HUB_STAT.KILL; ENABLE of a DISABLED one leaves it IDLE and changes no other register. WAIT_EXPIRY of
a WAITING flow in a unit that is not the standby adds one EXPIRY entry to the log and changes no register.
HOLD_MAX_EXPIRY of a flow not IDLE for more than HOLD_MAX cycles since its last dispatch disables its holder
task, and does nothing before. -/
def Obligations.KillEnableAndFlowExpiry : Prop :=
  (∀ (r : RegionIx) (n : Fin 256) (s : State), (s.mode = 1 ∨ s.mode = 2) →
    s.bit (R.TK_CFG r n) F.TK_CFG_USED = true → s.taskState r n ≠ 0 →
    Does (.kill r n) s fun t => t.rd (R.TK_STATE r n) = 0 ∧ (t.taskX (taskKey r n)).live = false ∧
      t.bit R.TK_HUB_STAT F.TK_HUB_STAT_KILL = true ∧ t.lawMem = s.lawMem ∧ t.dram = s.dram) ∧
  (∀ (r : RegionIx) (n : Fin 256) (s : State), (s.mode = 1 ∨ s.mode = 2) →
    s.bit (R.TK_CFG r n) F.TK_CFG_USED = true → s.taskState r n = 0 →
    Does (.enable r n) s fun t => t.taskState r n = 1 ∧ SameMemory s t ∧ SameRegsBut [R.TK_STATE r n] s t) ∧
  (∀ (f : FlowIx) (s : State), s.flowState f = 2 → s.role ≠ 2 →
    Does (.waitExpiry f) s fun t => t.log = s.log ++ [⟨s.assignCyc, s.lseq, false, s.tag 0, .expiry f (s.flowX f).count⟩] ∧
      t.io = s.io ∧ SameMemory s t) ∧
  (∀ (f : FlowIx) (s : State), s.flowState f ≠ 0 →
    s.fld (R.FL_HOLD f) F.FL_HOLD_HOLD_MAX < (s.seq - (s.flowX f).last).toNat →
    s.bit (R.TK_CFG (s.flowRegion f) (s.flowHolder f)) F.TK_CFG_USED = true →
    Does (.holdMaxExpiry f) s fun t => t.taskState (s.flowRegion f) (s.flowHolder f) = 0) ∧
  ∀ (f : FlowIx) (s : State), (s.flowState f = 0 ∨
    (s.seq - (s.flowX f).last).toNat ≤ s.fld (R.FL_HOLD f) F.FL_HOLD_HOLD_MAX) →
    exec (.holdMaxExpiry f) s = .next s


/-- An accepted force lays its masked value over the reference, a refused one changes nothing, a release clears it.
In a canonical state where the staged force fails no check, FORCE_SET leaves the entry active with the staged
reference, mask and value, shows cause 0, and every read of the reference then has the masked bits of the value;
where a check fails, the cause is shown and no entry, memory or other register changes. FORCE_RELEASE leaves its
entry inactive and RELEASE_ALL leaves no entry active, with cause 0. -/
def Obligations.ForceCommands : Prop :=
  (∀ (i : Fin 4096) (s : State), s.Canonical →
    s.forceCheck i (s.fld R.TK_FRC_REF F.TK_FRC_REF_REF) (s.rd R.TK_FRC_MASK) = 0 →
    Does (.forceSet i) s fun t => t.forceAt i = some (s.fld R.TK_FRC_REF F.TK_FRC_REF_REF) ∧
      t.rd (R.FORCE i + 4) = s.rd R.TK_FRC_MASK ∧ t.rd (R.FORCE i + 8) = s.rd R.TK_FRC_VAL ∧
      t.fld R.TK_FRC_STAT F.TK_FRC_STAT_CAUSE = 0 ∧
      (∀ v : Word, t.forced (s.fld R.TK_FRC_REF F.TK_FRC_REF_REF) v =
        (v &&& ~~~ s.rd R.TK_FRC_MASK) ||| (s.rd R.TK_FRC_VAL &&& s.rd R.TK_FRC_MASK)) ∧
      t.outMaster = s.outMaster ∧ t.snap = s.snap ∧
      SameRegsBut [R.FORCE i, R.FORCE i + 4, R.FORCE i + 8, R.TK_FRC_STAT] s t) ∧
  (∀ (i : Fin 4096) (s : State) (c : Nat),
    s.forceCheck i (s.fld R.TK_FRC_REF F.TK_FRC_REF_REF) (s.rd R.TK_FRC_MASK) = c → c ≠ 0 →
    Does (.forceSet i) s fun t => t.fld R.TK_FRC_STAT F.TK_FRC_STAT_CAUSE = c ∧ SameMemory s t ∧
      SameRegsBut [R.TK_FRC_STAT] s t) ∧
  (∀ (i : Fin 4096) (s : State), Does (.forceRelease i) s fun t => t.forceAt i = none ∧
    t.fld R.TK_FRC_STAT F.TK_FRC_STAT_CAUSE = 0 ∧ t.outMaster = s.outMaster ∧ t.snap = s.snap ∧
    SameRegsBut [R.FORCE i, R.FORCE i + 4, R.FORCE i + 8, R.TK_FRC_STAT] s t) ∧
  ∀ s : State, s.Canonical → Does .releaseAll s fun t => t.forces = [] ∧
    t.fld R.TK_FRC_STAT F.TK_FRC_STAT_CAUSE = 0 ∧ t.fld R.TK_FRC_STAT F.TK_FRC_STAT_COUNT = 0 ∧
    t.outMaster = s.outMaster


/-- An on-line change group applies as a whole or not at all, and a refused reload only shows its cause. OLC_APPLY
ends with DONE and without BUSY. In STOP or RUN it shows cause 1 and index 0, an empty or over-long group shows
cause 3, and then no memory and no register but TK_OLC_STAT changes. A group of 1 to 256 entries that all pass
their checks completes with cause 0 and index 0: it gives each constant and each coefficient that it names its
new value, and TK_OLC_SEQ the cycle; a group of one constant leaves DRAM data and law memory. RELOAD outside
PROGRAM shows cause 1, with a bank that is neither ACCEPTED nor ACTIVE (in a holder also at the partner) cause
2, with a foreign force cause 3, and changes nothing else; otherwise RELOAD completes: a unit whose cycles run
shows cause 0, sets stop cause RELOAD and keeps the bank for the next cycle boundary, and changes no other
register. There, and at once in a unit whose cycles do not run, it decides a warm restart without checkpoint
with restart cause RELOAD and stops the cycles. -/
def Obligations.OnLineChangeAndReload : Prop :=
  (∀ s : State, (s.mode = 0 ∨ s.mode = 3) →
    Does .olcApply s fun t => t.fld R.TK_OLC_STAT F.TK_OLC_STAT_CAUSE = 1 ∧
      t.fld R.TK_OLC_STAT F.TK_OLC_STAT_INDEX = 0 ∧ t.bit R.TK_OLC_STAT F.TK_OLC_STAT_DONE = true ∧
      t.bit R.TK_OLC_STAT F.TK_OLC_STAT_BUSY = false ∧ SameMemory s t ∧ SameRegsBut [R.TK_OLC_STAT] s t) ∧
  (∀ s : State, (s.mode = 1 ∨ s.mode = 2) →
    (s.fld R.TK_OLC_CTRL F.TK_OLC_CTRL_COUNT = 0 ∨ 256 < s.fld R.TK_OLC_CTRL F.TK_OLC_CTRL_COUNT) →
    Does .olcApply s fun t => t.fld R.TK_OLC_STAT F.TK_OLC_STAT_CAUSE = 3 ∧ SameMemory s t ∧
      SameRegsBut [R.TK_OLC_STAT] s t) ∧
  (∀ s : State, (s.mode = 1 ∨ s.mode = 2) → s.fld R.TK_OLC_CTRL F.TK_OLC_CTRL_COUNT = 1 →
    (s.olcEntry 0).kind = 1 → s.olcCause [] (s.olcEntry 0) = 0 →
    Does .olcApply s fun t => t.olcGet (s.olcEntry 0) = (s.olcEntry 0).new ∧ t.rd R.TK_OLC_SEQ = s.seq ∧
      t.dram = s.dram ∧ t.lawMem = s.lawMem) ∧
  (∀ (n : Nat) (s : State), (s.mode = 1 ∨ s.mode = 2) → s.fld R.TK_OLC_CTRL F.TK_OLC_CTRL_COUNT = n → 1 ≤ n → n ≤ 256 →
    s.olcCheck 0 [] ((List.range n).map s.olcEntry) = none →
    Does .olcApply s fun t => t.fld R.TK_OLC_STAT F.TK_OLC_STAT_CAUSE = 0 ∧
      t.fld R.TK_OLC_STAT F.TK_OLC_STAT_INDEX = 0 ∧ t.bit R.TK_OLC_STAT F.TK_OLC_STAT_DONE = true ∧
      t.bit R.TK_OLC_STAT F.TK_OLC_STAT_BUSY = false ∧ t.rd R.TK_OLC_SEQ = s.seq ∧
      ∀ i < n, (s.olcEntry i).kind ≤ 2 → t.olcGet (s.olcEntry i) = (s.olcEntry i).new) ∧
  (∀ (s : State) (bank : Bank) (img : Image) (p : Bool) (c : Nat),
    ((c = 1 ∧ s.mode ≠ 1) ∨ (c = 2 ∧ s.mode = 1 ∧ (s.bankState bank < 3 ∨ (s.role = 1 ∧ p = false))) ∨
      (c = 3 ∧ s.mode = 1 ∧ 3 ≤ s.bankState bank ∧ (s.role = 1 → p = true) ∧ s.forceForeign img = true)) →
    Does (.reload bank img p) s fun t => t.fld R.TK_CTL F.TK_CTL_RLD_CAUSE = c ∧ t.img = s.img ∧ t.boot = s.boot ∧
      SameMemory s t ∧ SameRegsBut [R.TK_CTL] s t) ∧
  (∀ (s : State) (bank : Bank) (img : Image) (p : Bool), s.mode = 1 → 3 ≤ s.bankState bank →
    (s.role = 1 → p = true) → s.forceForeign img = false →
    (s.boot.up = true → s.boot.started = true → Does (.reload bank img p) s fun t => t.fld R.TK_CTL F.TK_CTL_RLD_CAUSE = 0 ∧ (t.fld R.TK_CTL F.TK_CTL_CAUSE).testBit 4 = true ∧
      t.boot = { s.boot with reload := some bank } ∧ SameMemory s t ∧ SameRegsBut [R.TK_CTL] s t) ∧
    ((s.boot.up = false ∨ s.boot.started = false) → Does (.reload bank img p) s fun t => t.boot.restart = some (4, true) ∧ t.boot.reload = none ∧ t.boot.up = false)) ∧
  ∀ (s : State) (bank : Bank), s.boot.reload = some bank → Meets s.reloadGo fun t =>
    t.boot.restart = some (4, true) ∧ t.boot.reload = none ∧ t.boot.up = false ∧
      t.bit R.KA_CMD_STAT F.KA_CMD_STAT_BUSY = true


/-- STOP, RESUME, REPLAN, CLR_FAULT and SET_POS wait for the Phase L gate of their axis and act there. Each command
of a configured axis waits for its Phase L gate, with its code in AX_CMD until then (SET_POS with its argument
before it), and nothing else changes; one to an axis that is not configured changes nothing. The gate takes the
waiting commands in order. There STOP sets cause COMMAND, and where it is newly set, DSTOP is usable and the
plan is not already slow enough, a MOVING axis is then STOPPING. RESUME of a HALTED axis with no term against
it, no stop and no FAULT cause clears COMMAND and HEDGEROW and moves on to its goal with no remainder; in
another state, or where one of these stands, it sets CMD_REJ. REPLAN of a HALTED axis with usable limits latches
them. CLR_FAULT clears cause FAULT and STALL. SET_POS of a STANDSTILL or HALTED axis takes the position,
STANDSTILL, no remainder and no POS_LOST. No command changes a memory. -/
def Obligations.AxisCommands : Prop :=
  (∀ (a : AxisIx) (c : Instr) (code : Word) (s : State), s.bit (R.AX_CFG a) F.AX_CFG_USED = true →
    (c, code) ∈ [(Instr.axisStop a, 1), (.axisResume a, 2), (.axisReplan a, 3), (.axisClrFault a, 4)] →
    Does c s fun t => (t.axisX a).writes = (s.axisX a).writes ++ [(R.AX_CMD a, code, 7)] ∧
      t.rd (R.AX_CMD a) = code ∧ SameMemory s t ∧ SameRegsBut [R.AX_CMD a] s t) ∧
  (∀ (a : AxisIx) (arg : BitVec 64) (s : State), s.bit (R.AX_CFG a) F.AX_CFG_USED = true →
    Does (.setPos a arg) s fun t => (t.axisX a).writes = (s.axisX a).writes ++
        [(R.AX_CMD_ARG_LO a, arg.truncate 32, (0xFFFFFFFF : Word)), (R.AX_CMD_ARG_HI a, (arg >>> 32).truncate 32, 0xFFFFFFFF),
          (R.AX_CMD a, 5, 7)] ∧ t.rd (R.AX_CMD a) = 5 ∧ SameMemory s t ∧ SameRegsBut [R.AX_CMD a] s t) ∧
  (∀ (a : AxisIx) (arg : BitVec 64) (c : Instr) (s : State), s.bit (R.AX_CFG a) F.AX_CFG_USED = false →
    c ∈ [Instr.axisStop a, .axisResume a, .axisReplan a, .axisClrFault a, .setPos a arg] → exec c s = .next s) ∧
  (∀ (a : AxisIx) (arg : BitVec 64) (code : Word) (tag : Word) (s : State), 1 ≤ code.toNat → code.toNat ≤ 5 →
    (s.axisX a).writes = [(R.AX_CMD_ARG_LO a, arg.truncate 32, (0xFFFFFFFF : Word)),
      (R.AX_CMD_ARG_HI a, (arg >>> 32).truncate 32, 0xFFFFFFFF), (R.AX_CMD a, code, 7)] →
    (s.axHostWrites a tag).2 = [(code.toNat, arg.toInt)] ∧ ((s.axHostWrites a tag).1.axisX a).writes = [] ∧
      (s.axHostWrites a tag).1.rd (R.AX_CMD a) = 0) ∧
  (∀ (a : AxisIx) (arg : Int) (h : Bool) (tag : Word) (s : State), s.axState a = 1 → (s.axisX a).causes.testBit 0 = false →
    limitOk (s.rd (R.AX_DSTOP a)) (limitA s.period (s.rd (R.AX_DSTOP a))) = true →
    s.axSlows a (limitA s.period (s.rd (R.AX_DSTOP a))) = false →
    Meets ((s.axCommand a 1 arg h tag).axStopBegin a tag) fun t => t.axState a = 2 ∧
      t.bit (R.AX_STATE a) ⟨8, 1⟩ = true ∧ t.axPos a = s.axPos a) ∧
  (∀ (a : AxisIx) (arg : Int) (tag : Word) (s : State), s.axState a = 3 →
    s.stopped = false → (s.axCause a).testBit 3 = false →
    Meets (s.axCommand a 2 arg false tag) fun t => t.axState a = 1 ∧ t.bit (R.AX_STATE a) ⟨8, 1⟩ = false ∧ t.bit (R.AX_STATE a) ⟨9, 1⟩ = false ∧
      t.bit (R.AX_STATE a) F.AX_STATE_REMAIN = false ∧ (t.axisX a).goal = (s.axisX a).goal ∧
      t.axPos a = s.axPos a ∧ SameMemory s t) ∧
  (∀ (a : AxisIx) (arg : Int) (h : Bool) (tag : Word) (s : State),
    ((s.axState a ≠ 3 ∧ s.axState a ≠ 4) ∨ h = true ∨ s.stopped = true ∨ (s.axCause a).testBit 3 = true) →
    Meets (s.axCommand a 2 arg h tag) fun t => t.bit (R.AX_STAT a) F.AX_STAT_CMD_REJ = true ∧ t.axes = s.axes ∧ SameMemory s t ∧
      SameRegsButEvents [R.AX_STAT a] s t) ∧
  (∀ (a : AxisIx) (arg : Int) (h : Bool) (tag : Word) (s : State), s.axState a = 3 →
    s.axLimitsOk a = true →
    Meets (s.axCommand a 3 arg h tag) fun t => t.rd (R.AX_USE_VMAX a) = s.rd (R.AX_VMAX a) ∧ t.rd (R.AX_USE_AMAX a) = s.rd (R.AX_AMAX a) ∧
      t.rd (R.AX_USE_DMAX a) = s.rd (R.AX_DMAX a) ∧ t.rd (R.AX_USE_JMAX a) = s.rd (R.AX_JMAX a) ∧ t.axes = s.axes ∧
      SameMemory s t ∧ SameRegsBut [R.AX_USE_VMAX a, R.AX_USE_AMAX a, R.AX_USE_DMAX a, R.AX_USE_JMAX a] s t) ∧
  (∀ (a : AxisIx) (arg : Int) (h : Bool) (tag : Word) (s : State),
    Meets (s.axCommand a 4 arg h tag) fun t => t.bit (R.AX_STATE a) ⟨11, 1⟩ = false ∧ t.bit (R.AX_STAT a) F.AX_STAT_STALL = false ∧ SameMemory s t ∧
      SameRegsBut [R.AX_STATE a, R.AX_STAT a] s t) ∧
  ∀ (a : AxisIx) (arg : BitVec 64) (h : Bool) (tag : Word) (s : State),
    (s.axState a = 0 ∨ s.axState a = 3) → Meets (s.axCommand a 5 arg.toInt h tag) fun t => t.axPos a = arg.toInt ∧ t.axState a = 0 ∧
      t.bit (R.AX_STATE a) F.AX_STATE_REMAIN = false ∧ t.bit (R.AX_STAT a) F.AX_STAT_POS_LOST = false ∧
      t.axes = s.axes ∧ SameMemory s t


/-- A stepper tick plays the cycle's trajectory, a stall is shown and reported, and the hold delay sets the hold
current. A tick of a stepper axis whose pins this unit drives keeps the position that the trajectory of the
cycle has at that offset, and shows an electrical angle below 1,024; the axis position does not change. A stall
report of one that runs at full current with the load condition sets STALL and POS_LOST, and in a unit that is
not the standby adds one STALL entry to the log. The hold delay of one at STANDSTILL or HALTED is remembered,
and changes no register. An axis whose pins this unit does not drive is unaffected by the three. -/
def Obligations.StepperEvents : Prop :=
  (∀ (a : AxisIx) (off : Nat) (s : State), s.stRuns a = true →
    Does (.stepperTick a off) s fun t => (t.axisX a).lastN = (s.axisX a).play.posNum s.period off ∧
      (t.rd (R.AX_ST_ANGLE a)).toNat < 1024 ∧ t.axPos a = s.axPos a ∧ t.axState a = s.axState a ∧
      SameMemory s t) ∧
  (∀ (a : AxisIx) (s : State), s.stRuns a = true → s.bit (R.AX_ST_STAT a) F.AX_ST_STAT_STALL_RUN = true →
    s.role ≠ 2 →
    Does (.stall a) s fun t => t.bit (R.AX_STAT a) F.AX_STAT_STALL = true ∧
      t.bit (R.AX_STAT a) F.AX_STAT_POS_LOST = true ∧
      t.log = s.log ++ [⟨s.assignCyc, s.lseq, false, s.tag 0, .stall a⟩] ∧ SameMemory s t ∧
      SameRegsBut [R.AX_STAT a] s t) ∧
  (∀ (a : AxisIx) (s : State), s.stRuns a = true → (s.axState a = 0 ∨ s.axState a = 3) →
    Does (.holdDelayExpiry a) s fun t => (t.axisX a).held = true ∧ t.io = s.io ∧ SameMemory s t) ∧
  ∀ (a : AxisIx) (off : Nat) (c : Instr) (s : State), s.stRuns a = false →
    c ∈ [Instr.stepperTick a off, .stall a, .holdDelayExpiry a] → exec c s = .next s


/-- A commit that passes its checks is pending until the reload point, which loads it; a failing one leaves what is
pending. In a region the variant has, on a used pair whose shadows are not a stepper's, PWM_COMMIT holds the
shadow set as pending when no check fails, and otherwise shows the cause and COMMIT_REJ and leaves the pending
set; on another pair it does nothing. PW_GCOMMIT does so for every pair of the mask whose checks, taken with the
group, pass, and leaves the pairs outside the mask. At a period start of the carrier (by its mode and
synchronisation), where RELOAD loads there or nothing is loaded yet, and at the centre of a CENTRE period where
RELOAD loads there, a running die takes a pending set with a period, committed before this instant, as the
loaded one, with nothing pending, and shows the period and its time in PW_ACT_PER and PW_RELOAD_T; of a set
committed at this very instant and one committed earlier it loads the earlier one, and the other stays pending.
A row at which the carrier has no period start or centre changes nothing. -/
def Obligations.PwmCommitAndReload : Prop :=
  (∀ (p : PairIx) (s : State), s.lacks (p.val / 12) = false → s.pwOwn p = true → s.pwCheck p [p.val] (s.pwShadow p) = 0 →
    Does (.pwmCommit p) s fun t => (t.pairX p).pend = some (s.pwShadow p) ∧
      t.bit (R.PW_STAT p) F.PW_STAT_PENDING = true ∧ (t.pairX p).cur = (s.pairX p).cur ∧ SameMemory s t ∧
      SameRegsBut [R.PW_STAT p] s t) ∧
  (∀ (p : PairIx) (s : State) (c : Nat), s.lacks (p.val / 12) = false → s.pwOwn p = true → s.pwCheck p [p.val] (s.pwShadow p) = c → c ≠ 0 →
    Does (.pwmCommit p) s fun t => t.pairs = s.pairs ∧ t.fld (R.PW_STAT p) F.PW_STAT_REJ_CAUSE = c ∧
      t.bit (R.PW_STAT p) F.PW_STAT_COMMIT_REJ = true ∧ SameMemory s t ∧
      SameRegsButEvents [R.PW_STAT p] s t) ∧
  (∀ (p : PairIx) (s : State), s.lacks (p.val / 12) = false → s.pwOwn p = false → exec (.pwmCommit p) s = .next s) ∧
  (∀ (r : RegionIx) (mask : BitVec 12) (i : Fin 12) (s : State), s.lacks r.val = false → mask.getLsbD i = true →
    s.pwOwn (r.val * 12 + i.val) = true →
    s.pwCheck (r.val * 12 + i.val)
      (((List.range 12).filter (fun i => mask.toNat.testBit i)).map (fun i => r.val * 12 + i))
      (s.pwShadow (r.val * 12 + i.val)) = 0 →
    Does (.pwGcommit r mask) s fun t =>
      (t.pairX (r.val * 12 + i.val)).pend = some (s.pwShadow (r.val * 12 + i.val)) ∧ SameMemory s t ∧
      ∀ q : PairIx, (q.val / 12 ≠ r.val ∨ mask.getLsbD (q.val % 12) = false) → t.pairX q = s.pairX q) ∧
  (∀ (p : PairIx) (off : Nat) (b : Bool) (c : PwmSet) (s : State), s.pwOwn p = true → s.dieRuns (p.val / 48) = true →
    (s.pairX p).pend = some c → (s.pairX p).pendAt ≠ tagOf (s.now off) → c.per ≠ 0 →
    (b = false → (s.pwStartAt p (s.now off)).isSome = true ∧ (s.fld (R.PW_CFG p) F.PW_CFG_MODE ≠ 1 ∨
      s.fld (R.PW_CFG p) F.PW_CFG_RELOAD ≠ 1 ∨ (s.pairX p).cur.per = 0)) →
    (b = true → s.pwMiddle p (s.now off) = true ∧ s.fld (R.PW_CFG p) F.PW_CFG_RELOAD ≠ 0) →
    Does (.reloadPoint p off b) s fun t => (t.pairX p).cur = c ∧ (t.pairX p).pend = none ∧
      t.rd (R.PW_ACT_PER p) = Word.ofN c.per ∧ t.rd (R.PW_RELOAD_T p) = tagOf (s.now off)) ∧
  (∀ (p : PairIx) (off : Nat) (c e : PwmSet) (s : State), s.pwOwn p = true → s.dieRuns (p.val / 48) = true →
    (s.pairX p).pend = some c → (s.pairX p).pendAt = tagOf (s.now off) → (s.pairX p).earlier = some e → e.per ≠ 0 →
    (s.pwStartAt p (s.now off)).isSome = true → (s.fld (R.PW_CFG p) F.PW_CFG_MODE ≠ 1 ∨
      s.fld (R.PW_CFG p) F.PW_CFG_RELOAD ≠ 1 ∨ (s.pairX p).cur.per = 0) →
    Does (.reloadPoint p off false) s fun t => (t.pairX p).cur = e ∧ (t.pairX p).pend = some c ∧
      t.rd (R.PW_ACT_PER p) = Word.ofN e.per) ∧
  ∀ (p : PairIx) (off : Nat) (s : State),
    (s.pwStartAt p (s.now off) = none → exec (.reloadPoint p off false) s = .next s) ∧
    (s.pwMiddle p (s.now off) = false → exec (.reloadPoint p off true) s = .next s)


/-- A commanded transition turns one side off before the other may turn on, and the awaited side turns on alone. A
due transition of a used pair of a running die that is not forced, whose side it turns on is neither on nor
awaited, turns off the side that conducted and awaits the other: neither side that was off turns on. In CFT the
comparator ends an on-time from the blanking end on: the high side turns off at that tick. The expected switch-
node edge turns the awaited side on with the measured dead time, limited to DT_MIN to DT_MAX; the expiry of
DT_MAX turns it on with DT_MAX, counting a missing commutation unless the pair shows its fallow pattern. In
every one of these a pair whose sides were not both on, with the side opposite to the awaited one off, does not
end with both on. -/
def Obligations.PwmTransitionsNeverShortTheBridge : Prop :=
  (∀ (p : PairIx) (tick : Nat) (rise : Bool) (s : State), s.bit (R.PW_CFG p) F.PW_CFG_USED = true →
    s.dieRuns (p.val / 48) = true → s.pwPinned p = false → s.pwDue p tick rise = true → (s.pairX p).has rise = false →
    Does (.commandedTransition p tick rise false) s fun t => (t.pairX p).wait = some rise ∧
      (rise = true → (t.pairX p).lo = false ∧ (t.pairX p).hi = false) ∧
      (rise = false → (t.pairX p).hi = false ∧ (t.pairX p).lo = false) ∧ t.io = s.io ∧ SameMemory s t) ∧
  (∀ (p : PairIx) (tick : Nat) (s : State), s.bit (R.PW_CFG p) F.PW_CFG_USED = true → s.dieRuns (p.val / 48) = true →
    s.bit (R.PW_STAT p) F.PW_STAT_STEPPER = false → s.pairAxis p = none → s.pwPinned p = false →
    s.fld (R.PW_CFG p) F.PW_CFG_MODE = 3 → s.bit (R.PW_CFG p) F.PW_CFG_TERM_EN = true →
    s.bit (R.SD_STAT p) F.SD_STAT_CMP_HI = true → (s.pairX p).rise.isSome = true → tick ≤ (s.pairX p).fall.getD 0 →
    s.fld (R.PW_PWMIN p) F.PW_PWMIN_TICKS + s.fld (R.PW_DT_RISE p) F.PW_DT_RISE_TICKS ≤ tick →
    (s.pairX p).has false = false →
    Does (.commandedTransition p tick false true) s fun t => (t.pairX p).hi = false ∧
      (t.pairX p).wait = some false ∧ (t.pairX p).fall = some tick ∧ t.io = s.io ∧ SameMemory s t) ∧
  (∀ (p : PairIx) (tsw : Nat) (rise : Bool) (s : State), (s.pairX p).wait = some rise → s.pwPinned p = false →
    Does (.swnEdge p tsw rise) s fun t => (t.pairX p).wait = none ∧
      (rise = true → (t.pairX p).hi = true ∧ (t.pairX p).lo = (s.pairX p).lo ∧
        t.fld (R.PW_DT_RISE p) F.PW_DT_RISE_TICKS =
          min (max (tsw + s.fld (R.PW_GUARD p) F.PW_GUARD_GUARD) (s.fld (R.PW_DT p) F.PW_DT_DT_MIN))
            (s.fld (R.PW_DT p) F.PW_DT_DT_MAX)) ∧
      (rise = false → (t.pairX p).lo = true ∧ (t.pairX p).hi = (s.pairX p).hi ∧
        t.fld (R.PW_DT_FALL p) F.PW_DT_FALL_TICKS =
          min (max (tsw + s.fld (R.PW_GUARD p) F.PW_GUARD_GUARD) (s.fld (R.PW_DT p) F.PW_DT_DT_MIN))
            (s.fld (R.PW_DT p) F.PW_DT_DT_MAX)) ∧
      SameMemory s t ∧ SameRegsBut [R.PW_DT_RISE p, R.PW_DT_FALL p] s t) ∧
  (∀ (p : PairIx) (rise : Bool) (s : State), (s.pairX p).wait = some rise → s.pwPinned p = false →
    Does (.dtMaxExpiry p rise) s fun t => (t.pairX p).wait = none ∧
      (if rise then (t.pairX p).hi else (t.pairX p).lo) = true ∧
      t.bit (R.PW_STAT p) F.PW_STAT_NOCOMM = true ∧ t.rd (R.PW_NOCOMM_CNT p) = s.rd (R.PW_NOCOMM_CNT p) + 1 ∧
      SameMemory s t) ∧
  (∀ (p : PairIx) (rise : Bool) (s : State), (s.pairX p).wait = some rise → s.pwPinned p = true →
    Does (.dtMaxExpiry p rise) s fun t => (t.pairX p).wait = none ∧
      (if rise then (t.pairX p).hi else (t.pairX p).lo) = true ∧ t.io = s.io) ∧
  ∀ (p : PairIx) (n : Nat) (rise e : Bool) (s : State) (c : Instr),
    (c = .commandedTransition p n rise e ∨ c = .swnEdge p n rise ∨ c = .dtMaxExpiry p rise) →
    ¬((s.pairX p).hi = true ∧ (s.pairX p).lo = true) →
    ((s.pairX p).wait = some true → (s.pairX p).lo = false) →
    ((s.pairX p).wait = some false → (s.pairX p).hi = false) →
    Does c s fun t => ¬((t.pairX p).hi = true ∧ (t.pairX p).lo = true)


/-- A valid filter output is shown with its time, the comparators follow the sliding sum, and a good clock restarts
the filters. On a channel that runs, a main output from the third on shows the value of the sum that its filter
forms from the data bits, its tag and one more count; an earlier one changes no register. A fast output keeps
its time. A comparator change of a channel that is not held, and takes no magnitude (ABS, or a stepper's sense
channel), gives the hedgerow the comparators as the sliding sum of the data bits leaves them: CMP_HI with
HI_SEEN at or above HI, clear below HI less the hysteresis, CMP_LO in mirror image. Samples of a trip's ball on
an ACTIVE die show the level after POL as the raw state; when N or more have read a level that neither the raw
nor the filtered state had, the filtered state takes it one sample period and 2 ns after the N-th, seen when it
became active, and the hedgerow takes it then; fewer than N leave the filtered state and the hedgerow as they
were. CLK_FAULT_CLEAR on a running die ends the fault of each channel of the group and restarts its filters. -/
def Obligations.SdiOutputsAndComparators : Prop :=
  (∀ (ch : PairIx) (off : Nat) (bits : List (Bool × Bool)) (s : State), s.sdiRuns ch = true → 2 ≤ (s.sdiX ch).nMain →
    Does (.sdiMainOutput ch off bits) s fun t =>
      t.rd (R.SD_MAIN ch) = (sdiValue (s.sdiMainSum ch bits) (s.fld (R.SD_CFG ch) F.SD_CFG_MAIN_OSR ^ 3)).1 ∧
      t.rd (R.SD_MAIN_T ch) = s.tag off ∧ t.rd (R.SD_CNT ch) = s.rd (R.SD_CNT ch) + 1 ∧
      (t.sdiX ch).tMain = s.now off) ∧
  (∀ (ch : PairIx) (off : Nat) (bits : List (Bool × Bool)) (s : State), s.sdiRuns ch = true → (s.sdiX ch).nMain < 2 →
    Does (.sdiMainOutput ch off bits) s fun t => t.io = s.io ∧ (t.sdiX ch).nMain = (s.sdiX ch).nMain + 1) ∧
  (∀ (ch : PairIx) (off : Nat) (bits : List (Bool × Bool)) (s : State), s.sdiRuns ch = true →
    Does (.sdiFastOutput ch off bits) s fun t => (t.sdiX ch).tFast = s.now off ∧
      (t.sdiX ch).nFast = min 2 ((s.sdiX ch).nFast + 1)) ∧
  (∀ (ch : PairIx) (off : Nat) (bits : List (Bool × Bool)) (s : State), s.sdiRuns ch = true → (s.sdiX ch).held = false →
    ∃ u : State, exec (.comparatorChange ch off bits) s = .next (u.hgEval (s.now off)) ∧
      SameMemory s u ∧ SameRegsBut [R.SD_STAT ch] s u ∧
      (s.bit (R.SD_CFG ch) F.SD_CFG_ABS = false → s.stepSense ch = false →
        (s.fldI (R.SD_THR_HI ch) F.SD_THR_HI_VALUE * (s.fld (R.SD_CFG ch) F.SD_CFG_FAST_OSR : Int) ^ 2 ≤ s.sdiFastSum ch bits * 2 ^ 15 →
          u.bit (R.SD_STAT ch) F.SD_STAT_CMP_HI = true) ∧
        (s.sdiFastSum ch bits * 2 ^ 15 < (s.fldI (R.SD_THR_HI ch) F.SD_THR_HI_VALUE) *
            (s.fld (R.SD_CFG ch) F.SD_CFG_FAST_OSR : Int) ^ 2 - s.fld (R.SD_HYST ch) F.SD_HYST_VALUE *
            (s.fld (R.SD_CFG ch) F.SD_CFG_FAST_OSR : Int) ^ 2 →
          u.bit (R.SD_STAT ch) F.SD_STAT_CMP_HI = false) ∧
        (s.sdiFastSum ch bits * 2 ^ 15 ≤ s.fldI (R.SD_THR_LO ch) F.SD_THR_LO_VALUE *
            (s.fld (R.SD_CFG ch) F.SD_CFG_FAST_OSR : Int) ^ 2 → u.bit (R.SD_STAT ch) F.SD_STAT_CMP_LO = true))) ∧
  (∀ (n : Fin 48) (off k : Nat) (x : Bool) (s : State), s.dieState (n.val / 12) = 0 →
    s.tripN n ≤ k → (s.fld (R.PW_TRIP_STAT (n.val / 3)) F.PW_TRIP_STAT_RAW).testBit (n.val % 3) ≠ x →
    (s.fld (R.PW_TRIP_STAT (n.val / 3)) F.PW_TRIP_STAT_FILT).testBit (n.val % 3) ≠ x →
    ∃ u : State,
      exec (.tripFilterChange n off ⟨x != s.bit (R.PW_TRIP_CFG (n.val / 3) (n.val % 3)) F.PW_TRIP_CFG_POL, k⟩) s =
        .next (u.hgEval (s.now off - (k - s.tripN n) * s.tripPeriod n + s.tripPeriod n + 2)) ∧
      (u.fld (R.PW_TRIP_STAT (n.val / 3)) F.PW_TRIP_STAT_RAW).testBit (n.val % 3) = x ∧
      (u.fld (R.PW_TRIP_STAT (n.val / 3)) F.PW_TRIP_STAT_FILT).testBit (n.val % 3) = x ∧
      (x = true → (u.fld (R.PW_TRIP_STAT (n.val / 3)) F.PW_TRIP_STAT_SEEN).testBit (n.val % 3) = true) ∧
      SameMemory s u ∧ SameRegsBut [R.PW_TRIP_STAT (n.val / 3)] s u) ∧
  (∀ (n : Fin 48) (off k : Nat) (x : Bool) (s : State), s.dieState (n.val / 12) = 0 → 0 < k → k < s.tripN n →
    (s.fld (R.PW_TRIP_STAT (n.val / 3)) F.PW_TRIP_STAT_RAW).testBit (n.val % 3) ≠ x →
    Does (.tripFilterChange n off ⟨x != s.bit (R.PW_TRIP_CFG (n.val / 3) (n.val % 3)) F.PW_TRIP_CFG_POL, k⟩) s fun t =>
      (t.fld (R.PW_TRIP_STAT (n.val / 3)) F.PW_TRIP_STAT_RAW).testBit (n.val % 3) = x ∧
      t.fld (R.PW_TRIP_STAT (n.val / 3)) F.PW_TRIP_STAT_FILT = s.fld (R.PW_TRIP_STAT (n.val / 3)) F.PW_TRIP_STAT_FILT ∧
      t.hg = s.hg ∧ SameMemory s t ∧ SameRegsBut [R.PW_TRIP_STAT (n.val / 3)] s t) ∧
  ∀ (g : Fin 48) (i : Fin 4) (s : State), s.dieRuns (g.val / 12) = true →
    s.bit (R.SD_STAT (4 * g.val + i.val)) F.SD_STAT_CLK_FAULT = true →
    Does (.clkFaultClear g) s fun t => t.bit (R.SD_STAT (4 * g.val + i.val)) F.SD_STAT_CLK_FAULT = false ∧
      (t.sdiX (4 * g.val + i.val)).nMain = 0 ∧ (t.sdiX (4 * g.val + i.val)).nFast = 0 ∧
      t.bit (R.SD_GRP_STAT g) F.SD_GRP_STAT_CLK_OK = true ∧ SameMemory s t


/-- A span in range readies the shadow line, and one out of range stops calibration of the region. On a running die,
while calibration of a region has not stopped and no line is ready, a span of 32 to 63 whose map rises strictly
makes the shadow line ready with that span shown, and any other span sets CAL_FAIL and stops the calibration for
good. Once calibration has stopped or a line is ready, a calibration changes nothing. -/
def Obligations.DelayLineCalibration : Prop :=
  (∀ (r : RegionIx) (span : Nat) (s : State), s.dieRuns (r.val / 4) = true → (s.dlX r).stopped = false → (s.dlX r).ready = false →
    32 ≤ span → span ≤ 63 → dlRising span = true →
    Does (.dlCalibration r span) s fun t => (t.dlX r).ready = true ∧ (t.dlX r).stopped = false ∧
      Smap.find (t.dlX r).spans ((s.dlX r).shadow.getD 12) = some span ∧
      t.fld (R.PW_DL_STAT r) F.PW_DL_STAT_SPAN = span ∧ SameMemory s t ∧
      SameRegsButEvents [R.PW_DL_STAT r] s t) ∧
  (∀ (r : RegionIx) (span : Nat) (s : State), s.dieRuns (r.val / 4) = true → (s.dlX r).stopped = false → (s.dlX r).ready = false →
    (span < 32 ∨ 63 < span ∨ dlRising span = false) →
    Does (.dlCalibration r span) s fun t => (t.dlX r).stopped = true ∧ (t.dlX r).shadow = none ∧
      t.bit (R.PW_DL_STAT r) F.PW_DL_STAT_CAL_FAIL = true ∧ SameMemory s t ∧
      SameRegsButEvents [R.PW_DL_STAT r] s t) ∧
  ∀ (r : RegionIx) (span : Nat) (s : State), ((s.dlX r).stopped = true ∨ (s.dlX r).ready = true) →
    exec (.dlCalibration r span) s = .next s


/-- A hung link, a supply or temperature fault and a confirmed command each fence an active die, once and for all.
LINK_HUNG, DIE_SUPPLY_FAULT, DIE_OVERTEMP and DIE_FENCE of an ACTIVE control die leave it FENCED and every other
die as it was, raise the FENCE wire of the die, and leave no sample of the die's slots waiting. On a die that is
already FENCED or is ABSENT they change nothing. -/
def Obligations.DieFenceCommands : Prop :=
  (∀ (d : DieIx) (c : Instr) (s : State),
    c ∈ [Instr.linkHung d, .dieSupplyFault d, .dieOvertemp d, .dieFence d] → s.dieState d = 0 →
    Does c s fun t => t.dieState d = 1 ∧ (∀ e : DieIx, e ≠ d → t.dieState e = s.dieState e) ∧
      Out.fence d.val ∈ t.out ∧ ∀ k ∈ s.usedSlots, k / 1024 = d.val → (t.slotX k).ready = []) ∧
  ∀ (d : DieIx) (c : Instr) (s : State),
    c ∈ [Instr.linkHung d, .dieSupplyFault d, .dieOvertemp d, .dieFence d] →
    (s.dieState d = 1 ∨ s.dieState d = 2) → exec c s = .next s


/-- Each clock domain that fails takes the outcome of its row, and a region port fence stops the region's capture. A
failed hub, memory or management clock stops the controller with cause FATAL; a failed CLK_HOST takes the host
link down; a failed CLK_CAN is remembered until it is good; a failed SDI group clock of a running die sets
CLK_FAULT and both comparators of its four channels before the hedgerow takes them; a failed core or PWM clock
fences its ACTIVE die; a failed RTC clock shows CLK_FAULT. A port fence of a region of a running die that is not
fenced sets CE_STAT.FENCED and leaves no window open in its engine. -/
def Obligations.ClockAndPortFaults : Prop :=
  (∀ (d : Domain) (s : State), d ∈ [Domain.hub, .mem, .mgmt] →
    Does (.clockMonitorFault d) s fun t => (t.fld R.TK_CTL F.TK_CTL_CAUSE).testBit 2 = true ∧ t.mode = s.mode ∧
      t.boot.fatal = true ∧ SameMemory s t ∧ SameRegsButEvents [R.TK_CTL] s t) ∧
  (∀ s : State, Does (.clockMonitorFault .host) s fun t => t.hostDown = true) ∧
  (∀ s : State, Does (.clockMonitorFault .can) s fun t => t.canBad = true) ∧
  (∀ s : State, Does (.clockMonitorFault .rtc) s fun t =>
    t.bit R.TM_RTC_STAT F.TM_RTC_STAT_CLK_FAULT = true ∧ SameMemory s t) ∧
  (∀ (g : Fin 48) (s : State), s.dieRuns (g.val / 12) = true → ∃ u : State,
    exec (.clockMonitorFault (.sdm g)) s = .next (u.hgEval u.t0) ∧ u.t0 = s.t0 ∧
      ∀ i : Fin 4, u.bit (R.SD_STAT (4 * g.val + i.val)) F.SD_STAT_CLK_FAULT = true ∧
        u.bit (R.SD_STAT (4 * g.val + i.val)) F.SD_STAT_CMP_HI = true ∧
        u.bit (R.SD_STAT (4 * g.val + i.val)) F.SD_STAT_CMP_LO = true) ∧
  (∀ (d : DieIx) (c : Domain) (s : State), (c = .core d ∨ c = .pwm d) → s.dieState d = 0 →
    Does (.clockMonitorFault c) s fun t => t.dieState d = 1) ∧
  (∀ (r : RegionIx) (s : State), s.dieState (r.val / 4) = 0 → s.bit (R.CE_STAT r) F.CE_STAT_FENCED = false →
    Does (.regionPortFence r) s fun t => t.bit (R.CE_STAT r) F.CE_STAT_FENCED = true ∧ (t.ceX r).win = none ∧
      t.lawMem = s.lawMem ∧ t.dram = s.dram)


/-- After an evaluation every configured term is true exactly when its sources say so or it is latched. After the
hedgerow has been evaluated, each configured term is true if and only if its sources make it true, or it latches
and was true before. Where a term that was false becomes true, every used PWM pair it targets that no true term
targeted before is FORCED. -/
def Obligations.TermsFollowTheirSources : Prop :=
  (∀ (s : State) (now n : Nat), n ∈ s.hgTerms →
    (s.hgEval now).hgTrue n = (s.hgRaw n || (s.bit (R.HG_TERM n 0) ⟨2, 1⟩ && s.hgTrue n))) ∧
  (∀ (s : State) (now n : Nat) (g : HgTgt), n ∈ s.hgTerms → s.hgTrue n = false → s.hgRaw n = true →
    g ∈ s.hgTargets n → g.kind = 1 → g ∉ s.hgAllTargets s.hgTrues →
    s.bit (R.PW_CFG g.index) F.PW_CFG_USED = true → g.index < 192 →
    (s.hgEval now).bit (R.PW_STAT g.index) F.PW_STAT_FORCED = true)


/-- A reset clears a latched term whose sources have cleared, and only that; a patch outside PROGRAM changes no
item. HG_RESET of a configured latched term that is true while its sources are not leaves it false; of a term
whose sources are true, that is not latched, or that is false, it changes nothing. HG_RESET_ALL leaves every
configured latched term whose sources are not true false. A patch that HG_PATCH_BUF holds, COUNT entries of it,
shows outside PROGRAM DONE with cause 1 and index 0 and changes no other register; in PROGRAM, with the
placement rules met, a single entry for the fallow value of a word that passes, takes its new value. With a
COUNT of 0 or above 64 there is no patch, and nothing changes (the model's choice, log 270). -/
def Obligations.HedgerowResetsAndPatch : Prop :=
  (∀ (n : TermIx) (s : State), s.bit (R.HG_TERM n 0) ⟨0, 1⟩ = true → s.bit (R.HG_TERM n 0) ⟨2, 1⟩ = true →
    s.hgRaw n = false → Does (.hgReset n) s fun t => t.hgTrue n = false) ∧
  (∀ (n : TermIx) (s : State), (s.hgRaw n = true ∨ s.hgTrue n = false ∨ s.bit (R.HG_TERM n 0) ⟨2, 1⟩ = false) →
    exec (.hgReset n) s = .next s) ∧
  (∀ s : State, Does .hgResetAll s fun t => ∀ n ∈ s.hgTerms, s.bit (R.HG_TERM n 0) ⟨0, 1⟩ = true →
    s.bit (R.HG_TERM n 0) ⟨2, 1⟩ = true → s.hgRaw n = false → t.hgTrue n = false) ∧
  (∀ (who : Principal × Principal) (w : Word × Word × Word × Word) (ws : List (Word × Word × Word × Word)) (s : State),
    s.mode ≠ 1 →
    s.fld R.HG_PATCH_CTRL F.HG_PATCH_CTRL_COUNT ≤ 64 → s.patchBuf = w :: ws →
    Does (.hedgerowPatch who) s fun t => t.bit R.HG_PATCH_STAT F.HG_PATCH_STAT_DONE = true ∧
      t.bit R.HG_PATCH_STAT F.HG_PATCH_STAT_PENDING = false ∧
      t.fld R.HG_PATCH_STAT F.HG_PATCH_STAT_CAUSE = 1 ∧ t.fld R.HG_PATCH_STAT F.HG_PATCH_STAT_INDEX = 0 ∧
      SameMemory s t ∧ SameRegsBut [R.HG_PATCH_STAT] s t) ∧
  (∀ (who : Principal × Principal) (s : State), (s.fld R.HG_PATCH_CTRL F.HG_PATCH_CTRL_COUNT = 0 ∨ 64 < s.fld R.HG_PATCH_CTRL F.HG_PATCH_CTRL_COUNT) →
    exec (.hedgerowPatch who) s = .next s) ∧
  ∀ (who : Principal × Principal) (n : Fin 65536) (old new : Word) (s : State), s.mode = 1 → s.rd (R.WORD_FALLOW n) = old →
    s.hgPlaced = true → s.patchBuf = [(4, Word.ofN n, old, new)] →
    Does (.hedgerowPatch who) s fun t => t.rd (R.WORD_FALLOW n) = new ∧
      t.bit R.HG_PATCH_STAT F.HG_PATCH_STAT_DONE = true ∧ t.fld R.HG_PATCH_STAT F.HG_PATCH_STAT_CAUSE = 0


/-- ARM reserves a window or shows why not, DISARM ends it, and FORCE triggers, counts or does nothing as the state
says. In a region that the variant has: CE_ARM of an unfenced engine of a running die in IDLE or DONE that is
not armed: with a bad configuration it only sets BAD_CFG; without room in the pool it only sets REFUSED; else it
reserves the bytes, opens an empty window and awaits the next row, with CE_CTRL.ARM standing. In any other case
it changes nothing. CE_DISARM leaves IDLE with no window and no ARM. CE_FORCE in FILL or ARMED gives the window
the next WIN_ID and the present time as trigger time, and counts in CE_TRG_CNT; in HOLDOFF, in POST outside the
trigger row, or at an instant not later than the end of the last hold-off, it counts in CE_SUPP_CNT and keeps
the state; in the trigger row of a window in POST it is not counted and changes no register; otherwise it
changes nothing. -/
def Obligations.CaptureEngineCommands : Prop :=
  (∀ (r : RegionIx) (off st : Nat) (s : State) (streaming : Bool), s.lacks r.val = false → s.ceState r = st → (st = 0 ∨ st = 5) →
    (s.ceX r).arm = false → s.bit (R.CE_STAT r) F.CE_STAT_FENCED = false → s.dieState (r.val / 4) = 0 →
    (s.ceBad r = true → Does (.ceArm r off) s fun t => t.bit (R.CE_STAT r) F.CE_STAT_BAD_CFG = true ∧
      t.ceState r = st ∧ t.ces = s.ces ∧ t.pools = s.pools ∧ SameMemory s t ∧ SameRegsBut [R.CE_STAT r] s t) ∧
    (s.ceBad r = false →
      s.poolAsk r (s.fld (R.CE_PRE r) F.CE_PRE_ROWS) (s.rd (R.CE_POST r)).toNat (4 + 4 * s.ceProbes r) = none →
      Does (.ceArm r off) s fun t => t.bit (R.CE_STAT r) F.CE_STAT_REFUSED = true ∧ t.ces = s.ces ∧
        t.pools = s.pools ∧ SameMemory s t ∧ SameRegsBut [R.CE_STAT r] s t) ∧
    ∀ n : Nat, s.ceBad r = false →
      s.poolAsk r (s.fld (R.CE_PRE r) F.CE_PRE_ROWS) (s.rd (R.CE_POST r)).toNat (4 + 4 * s.ceProbes r) =
        some (streaming, n) →
      Does (.ceArm r off) s fun t => (t.ceX r).arm = true ∧ t.ceState r = 0 ∧
        (∃ w, (t.ceX r).win = some w ∧ w.rows = [] ∧ w.trig = none ∧ w.resv = n ∧ w.streaming = streaming) ∧
        Smap.get (fun _ => 0) t.pools r = Smap.get (fun _ => 0) s.pools r + n ∧ SameMemory s t ∧
        t.bit (R.CE_CTRL r) F.CE_CTRL_ARM = true ∧ SameRegsBut [R.CE_STAT r, R.CE_CTRL r, R.CE_POOL_FREE r] s t) ∧
  (∀ (r : RegionIx) (off : Nat) (s : State), s.lacks r.val = false → ((s.ceState r ≠ 0 ∧ s.ceState r ≠ 5) ∨ (s.ceX r).arm = true ∨
    s.bit (R.CE_STAT r) F.CE_STAT_FENCED = true ∨ s.dieState (r.val / 4) ≠ 0) → exec (.ceArm r off) s = .next s) ∧
  (∀ (r : RegionIx) (off : Nat) (s : State), s.lacks r.val = false → Does (.ceDisarm r off) s fun t => t.ceState r = 0 ∧
      t.bit (R.CE_CTRL r) F.CE_CTRL_ARM = false ∧
    (t.ceX r).win = none ∧ (t.ceX r).arm = false ∧ SameMemory s t) ∧
  (∀ (r : RegionIx) (off : Nat) (s : State) (w : Win), s.lacks r.val = false → (s.ceState r = 1 ∨ s.ceState r = 2) →
    (s.ceX r).win = some w → (s.ceX r).hoEnd ≤ s.now off → Does (.ceForce r off) s fun t =>
      t.rd (R.CE_TRG_CNT r) = s.rd (R.CE_TRG_CNT r) + 1 ∧ t.rd (R.CE_WIN_ID r) = s.winId + 1 ∧
      t.rd (R.CE_TRG_T r) = s.tag off ∧ (t.ceState r = 3 ∨ t.ceState r = 4) ∧ (t.ceX r).hoT = s.now off ∧
      SameMemory s t) ∧
  (∀ (r : RegionIx) (off : Nat) (s : State), s.lacks r.val = false →
    ((s.ceState r = 3 ∧ ∀ w ∈ (s.ceX r).win, w.inRow (s.now off) = false) ∨ s.ceState r = 4 ∨
      (s.ceState r ≠ 3 ∧ s.now off < (s.ceX r).hoEnd)) →
    Does (.ceForce r off) s fun t => t.rd (R.CE_SUPP_CNT r) = s.rd (R.CE_SUPP_CNT r) + 1 ∧
      t.ceState r = s.ceState r ∧ t.rd (R.CE_TRG_CNT r) = s.rd (R.CE_TRG_CNT r) ∧
      (t.ceX r).hoN = (s.ceX r).hoN + 1 ∧ SameMemory s t) ∧
  (∀ (r : RegionIx) (off : Nat) (s : State) (w : Win), s.lacks r.val = false → s.ceState r = 3 →
    (s.ceX r).win = some w → w.inRow (s.now off) = true → Does (.ceForce r off) s fun t => t.io = s.io ∧
      t.ceState r = 3 ∧ (t.ceX r).hoN = (s.ceX r).hoN ∧ (t.ceX r).supp = (s.ceX r).supp ∧ SameMemory s t) ∧
  ∀ (r : RegionIx) (off : Nat) (s : State), s.lacks r.val = false → s.ceState r ≠ 1 → s.ceState r ≠ 2 →
    s.ceState r ≠ 3 → s.ceState r ≠ 4 → (s.ceX r).hoEnd ≤ s.now off → exec (.ceForce r off) s = .next s


/-- A row is taken at the timer's instants, kept within PRE before the trigger, and completes the window after POST
rows. For an unarmed, unfenced engine of a running die with SYNC TIMER whose timer matches at an instant that
has had no row. Before a trigger, unless the source is PROBE and its condition holds on the row: the row with
the values of all probes is added, at most PRE + 1 rows stay, and FILL becomes ARMED once PRE rows stand. If it
holds after the end of the last hold-off, the trigger is counted with the time of the row, which stays in the
window. After the trigger, unless a streaming window is full: the row is added, or completes the window, which
then closes into HOLDOFF. Memory stays. When the timer does not match, or the instant has had its row, nothing
changes. SPACER_ROW 2,100 ms after the last row of an untriggered SLOT window adds a spacer row; without a
window in the region it changes nothing. -/
def Obligations.CaptureRows : Prop :=
  (∀ (r : RegionIx) (off p : Nat) (s : State) (w : Win) (row : Row) (l : List Row) (fires : Bool),
    s.fld (R.CE_CFG r) F.CE_CFG_SYNC = 0 → s.fld (R.CE_PERIOD r) F.CE_PERIOD_NS = p → p ≠ 0 →
    (s.now off + p - s.fld (R.CE_PHASE r) F.CE_PHASE_NS % p) % p = 0 → (s.ceX r).arm = false →
    (s.ceX r).win = some w → (∀ i ∈ (s.ceX r).rels, s.now off < i.1 ∨ i.2 < s.now off) →
    s.bit (R.CE_STAT r) F.CE_STAT_FENCED = false → s.dieState (r.val / 4) = 0 →
    row = ⟨s.now off, (List.range (s.ceProbes r)).map (s.probeVal r), false, w.stepPend⟩ → l = w.rows ++ [row] →
    fires = (decide (s.fld (R.CE_TRG r) F.CE_TRG_SRC = 0) && (probeFire (s.fld (R.CE_TRG r) F.CE_TRG_DIR)
      (s.probeF32 r (s.fld (R.CE_TRG r) F.CE_TRG_INDEX)) (s.rd (R.CE_LEVEL r)) (s.rd (R.CE_HYST r)) (s.ceX r).up
      (s.ceX r).dn).1) →
    ((s.ceState r = 1 ∨ s.ceState r = 2) → w.trig = none → fires = false →
      Does (.captureRow r off) s fun t =>
        (t.ceX r).win.map (fun v => v.rows) = some (l.drop (l.length - (w.pre + 1))) ∧
        t.ceState r = (if s.ceState r = 1 ∧ l.length < w.pre then 1 else 2) ∧ SameMemory s t ∧
        SameRegsBut [R.CE_STAT r] s t) ∧
    ((s.ceState r = 1 ∨ s.ceState r = 2) → w.trig = none → fires = true → (s.ceX r).hoEnd ≤ s.now off →
      Does (.captureRow r off) s fun t => t.rd (R.CE_TRG_CNT r) = s.rd (R.CE_TRG_CNT r) + 1 ∧
        t.rd (R.CE_TRG_T r) = s.tag off ∧ t.rd (R.CE_WIN_ID r) = s.winId + 1 ∧
        (∀ v ∈ (t.ceX r).win, v.rows.getLast? = some row ∧ v.trig = some (s.now off, 0)) ∧ SameMemory s t) ∧
    (s.ceState r = 3 → w.trig.isSome = true → s.winFull w = false → Does (.captureRow r off) s fun t =>
      (t.ceX r).win.map (fun v => v.rows) = (if l.length - w.preAct ≥ w.post then none else some l) ∧
      t.ceState r = (if l.length - w.preAct ≥ w.post then 4 else 3) ∧ SameMemory s t)) ∧
  (∀ (r : RegionIx) (off : Nat) (s : State), (s.fld (R.CE_CFG r) F.CE_CFG_SYNC ≠ 0 ∨
    (s.now off + s.fld (R.CE_PERIOD r) F.CE_PERIOD_NS -
      s.fld (R.CE_PHASE r) F.CE_PHASE_NS % s.fld (R.CE_PERIOD r) F.CE_PERIOD_NS) %
      s.fld (R.CE_PERIOD r) F.CE_PERIOD_NS ≠ 0 ∨
    (∃ i ∈ (s.ceX r).rels, i.1 ≤ s.now off ∧ s.now off ≤ i.2)) → exec (.captureRow r off) s = .next s) ∧
  (∀ (r : RegionIx) (off : Nat) (s : State) (w : Win) (row : Row), s.fld (R.CE_CFG r) F.CE_CFG_SYNC = 2 →
    (s.ceX r).win = some w → w.rows.getLast? = some row → s.now off = row.t + 2100000000 → (s.ceX r).arm = false →
    s.bit (R.CE_STAT r) F.CE_STAT_FENCED = false → s.dieState (r.val / 4) = 0 →
    (s.ceState r = 1 ∨ s.ceState r = 2) → w.trig = none → s.fld (R.CE_TRG r) F.CE_TRG_SRC ≠ 0 →
    Does (.spacerRow r off) s fun t => ∃ v, (t.ceX r).win = some v ∧
      v.rows.getLast? = some ⟨s.now off, (List.range (s.ceProbes r)).map (s.probeVal r), true, w.stepPend⟩ ∧
      SameMemory s t) ∧
  ∀ (r : RegionIx) (off : Nat) (s : State), (s.ceX r).win = none →
    (∀ i < 8, (s.clusterX (8 * r.val + i)).win = none) → exec (.spacerRow r off) s = .next s


/-- Hold-off begins at the trigger and ends, once the window has closed, after CE_HOLDOFF in time or in suppressed
triggers. A trigger that is accepted (one later than the end of the last hold-off) notes its time for the hold-
off. In HOLDOFF, HOLDOFF_END ends the hold-off if and only if the window has closed and, with HO_MODE 0,
CE_HOLDOFF ns have passed since the trigger time, or, with HO_MODE 1, CE_HOLDOFF suppressed triggers have been
counted since it. It then enters DONE with AUTO = 0; with AUTO = 1 it reserves a new window as R335 says and
enters FILL with no rows and no trigger (IDLE where the pool refuses it). In each case it notes the instant, up
to which conditions belong to the hold-off. Otherwise it changes nothing. Suppressed triggers in HOLDOFF, and in
POST outside the trigger row, are counted. -/
def Obligations.HoldOffEndsAsItsModeSays : Prop :=
  (∀ (r : RegionIx) (off : Nat) (s : State) (w : Win), s.lacks r.val = false → (s.ceState r = 1 ∨ s.ceState r = 2) →
    (s.ceX r).win = some w → (s.ceX r).hoEnd ≤ s.now off → Does (.ceForce r off) s fun t =>
      (t.ceX r).hoT = s.now off) ∧
  (∀ (r : RegionIx) (off : Nat) (s : State), s.lacks r.val = false →
    ((s.ceState r = 3 ∧ ∀ w ∈ (s.ceX r).win, w.inRow (s.now off) = false) ∨ s.ceState r = 4) →
    Does (.ceForce r off) s fun t => (t.ceX r).hoN = (s.ceX r).hoN + 1) ∧
  (∀ (r : RegionIx) (off : Nat) (s : State) (past : Prop),
    (past ↔ ((s.ceX r).closed = true ∧
      ((s.bit (R.CE_CFG r) F.CE_CFG_HO_MODE = false ∧
        s.now off ≥ (s.ceX r).hoT + (s.rd (R.CE_HOLDOFF r)).toNat) ∨
      (s.bit (R.CE_CFG r) F.CE_CFG_HO_MODE = true ∧ (s.ceX r).hoN ≥ (s.rd (R.CE_HOLDOFF r)).toNat)))) →
    s.ceState r = 4 →
    (¬ past → exec (.holdoffEnd r off) s = .next s) ∧
    (past → s.bit (R.CE_CFG r) F.CE_CFG_AUTO = false → Does (.holdoffEnd r off) s fun t =>
      t.ceState r = 5 ∧ (t.ceX r).hoEnd = s.now off + 1 ∧ SameMemory s t) ∧
    (past → s.bit (R.CE_CFG r) F.CE_CFG_AUTO = true →
      (s.poolAsk r (s.fld (R.CE_PRE r) F.CE_PRE_ROWS) (s.rd (R.CE_POST r)).toNat (4 + 4 * s.ceProbes r)).isSome =
        true →
      Does (.holdoffEnd r off) s fun t => t.ceState r = 1 ∧
        (t.ceX r).hoEnd = s.now off + 1 ∧
        (∃ w, (t.ceX r).win = some w ∧ w.rows = [] ∧ w.trig = none) ∧ SameMemory s t) ∧
    (past → s.bit (R.CE_CFG r) F.CE_CFG_AUTO = true →
      s.poolAsk r (s.fld (R.CE_PRE r) F.CE_PRE_ROWS) (s.rd (R.CE_POST r)).toNat (4 + 4 * s.ceProbes r) = none →
      Does (.holdoffEnd r off) s fun t => t.ceState r = 0 ∧ (t.ceX r).hoEnd = s.now off + 1 ∧ SameMemory s t)) ∧
  ∀ (r : RegionIx) (off : Nat) (s : State), s.ceState r ≠ 4 → exec (.holdoffEnd r off) s = .next s


/-- An event on a trigger line is sent and counted unless it follows the previous one within 1 µs; calibration shows
its result. PULSE on a line whose last event lies at least 1 µs back sends the event with the write instant as
its origin, on the ball as well for OUT and SHARED; if no engine waits for the line, it advances the line's
count by 1, holds its tag and sets its bit, and memory stays. Nearer to the last event nothing changes.
TRIG_PIN_EDGE does so with the ball time less the pad latency for IN, less 40 ns and the board delay for SHARED,
without the ball; while the SHARED lines are calibrated the unit with the higher ID only echoes such an edge,
and the other does nothing; for NONE and OUT it changes nothing. TB_CAL sets CAL_DONE and clears CAL; one
matched branch takes its round trip and tap; an unmatched branch sets CAL_FAIL; a SHARED line of a unit with a
partner takes half of its round trip less the turn-round of 100 ns, in ps, and SH_CAL. -/
def Obligations.TriggerBusEvents : Prop :=
  (∀ (l : Fin 8) (off : Nat) (s : State), (∀ o ∈ Smap.find s.tbLast l.val, o + 1000 ≤ s.now off) →
    Does (.pulse l off) s fun t =>
      Out.bus l.val (s.tag off) (s.fld (R.TB_CFG l) F.TB_CFG_PIN = 1 || s.fld (R.TB_CFG l) F.TB_CFG_PIN = 3) ∈ t.out ∧
      (s.ceSelect 1 l.val = [] → t.rd (R.TB_CNT l) = s.rd (R.TB_CNT l) + 1 ∧ t.rd (R.TB_LAST_T l) = s.tag off ∧
        t.bit R.TB_STAT ⟨8 + l.val, 1⟩ = true ∧ SameMemory s t)) ∧
  (∀ (l : Fin 8) (off o : Nat) (s : State), Smap.find s.tbLast l.val = some o → s.now off < o + 1000 →
    exec (.pulse l off) s = .next s) ∧
  (∀ (l : Fin 8) (off at_ : Nat) (s : State),
    ((s.fld (R.TB_CFG l) F.TB_CFG_PIN = 2 ∧ at_ = s.now off - Config.padLatency) ∨
      (s.fld (R.TB_CFG l) F.TB_CFG_PIN = 3 ∧ s.tbShared = false ∧
        at_ = s.now off - 40 - (s.fld (R.TB_PIN_DLY l) F.TB_PIN_DLY_PS + 500) / 1000)) →
    (∀ o ∈ Smap.find s.tbLast l.val, o + 1000 ≤ at_) →
    Does (.trigPinEdge l off) s fun t => Out.bus l.val (tagOf at_) false ∈ t.out ∧
      (s.ceSelect 1 l.val = [] → t.rd (R.TB_CNT l) = s.rd (R.TB_CNT l) + 1 ∧ t.rd (R.TB_LAST_T l) = tagOf at_ ∧
        SameMemory s t)) ∧
  (∀ (l : Fin 8) (off : Nat) (s : State), s.fld (R.TB_CFG l) F.TB_CFG_PIN = 3 → s.tbShared = true →
    Does (.trigPinEdge l off) s fun t => t.io = s.io ∧ SameMemory s t ∧
      t.out = (if s.unit = 1 then Out.trigCal l.val true :: s.out else s.out)) ∧
  (∀ (l : Fin 8) (off : Nat) (s : State), (s.fld (R.TB_CFG l) F.TB_CFG_PIN = 0 ∨ s.fld (R.TB_CFG l) F.TB_CFG_PIN = 1) →
    exec (.trigPinEdge l off) s = .next s) ∧
  (∀ (bs : List (RegionIx × Branch)) (sh : List (Fin 8 × Nat)) (s : State), Does (.tbCal bs sh) s fun t =>
    t.bit R.TB_STAT F.TB_STAT_CAL_DONE = true ∧ t.bit R.TB_CMD F.TB_CMD_CAL = false ∧ t.tbShared = false ∧
    (bs.any (fun e => !e.2.matched) = true → t.bit R.TB_STAT F.TB_STAT_CAL_FAIL = true) ∧ SameMemory s t) ∧
  (∀ (l : Fin 8) (rtt : Nat) (s : State), s.fld (R.TB_CFG l) F.TB_CFG_PIN = 3 → s.xl.partner.isSome = true →
    Does (.tbCal [] [(l, rtt)]) s fun t =>
      t.fld (R.TB_PIN_DLY l) F.TB_PIN_DLY_PS = min 65535 ((rtt - 100000) / 2) ∧
      t.bit R.TB_STAT ⟨16 + l.val, 1⟩ = true ∧ SameMemory s t) ∧
  ∀ (r : RegionIx) (b : Branch) (s : State), b.matched = true → b.ps < 65536 → b.tap < 256 →
    Does (.tbCal [(r, b)] []) s fun t => t.fld (R.TB_RTT r) F.TB_RTT_PS = b.ps ∧ t.fld (R.TB_RTT r) F.TB_RTT_TAP = b.tap ∧
      t.bit R.TB_STAT F.TB_STAT_CAL_FAIL = s.bit R.TB_STAT F.TB_STAT_CAL_FAIL ∧
      SameRegsBut [R.TB_RTT r, R.TB_STAT, R.TB_CMD] s t


/-- An enabled stream with room takes user marks and epochs in order, a full one counts them as lost, and recovers
with a gap. USER_MARK, and EPOCH at a second boundary, append to every enabled stream that has room and no open
gap one block with its mark (USER with lane 0xFF, or EPOCH of the instant) and the next BSEQ; to one that is
full or has an open gap they append nothing, advance RS_S_LOST by 1 and open the gap. EPOCH also shows the rate
of the past second; away from a boundary it changes nothing. STREAM_ENABLE of a disabled, empty stream enables
it and puts the FIRST epoch into it, and of an enabled one changes nothing. STREAM_RECOVERY of an enabled stream
with an open gap and 1 MiB of free share appends an EPOCH and a GAP, closes the gap and counts it; otherwise it
changes nothing. Memory stays. -/
def Obligations.StreamsTakeTheirMarks : Prop :=
  (∀ (c : Instr) (off : Nat) (arg : Word) (s : State) (st : Fin 8) (b : Blk),
    ((c = .userMark arg off ∧ b = .mark (s.now off) 12 [arg, 0xFF, 0, 0]) ∨
      (c = .epoch off ∧ s.now off % 1000000000 = 0 ∧ b = s.epochBlk (s.now off) false false)) → s.streamOn st = true →
    Does c s fun t => SameMemory s t ∧
      ((s.streamX st).blocks.length < s.streamCap st → s.bit (R.RS_S_STAT st) F.RS_S_STAT_GAP_OPEN = false →
        (t.streamX st).blocks = (s.streamX st).blocks ++ [{ b with bseq := s.rd (R.RS_S_BSEQ st) }] ∧
        t.rd (R.RS_S_BSEQ st) = s.rd (R.RS_S_BSEQ st) + 1) ∧
      (s.streamCap st ≤ (s.streamX st).blocks.length ∨ s.bit (R.RS_S_STAT st) F.RS_S_STAT_GAP_OPEN = true →
        (t.streamX st).blocks = (s.streamX st).blocks ∧ t.rd (R.RS_S_LOST st) = s.rd (R.RS_S_LOST st) + 1 ∧
        t.bit (R.RS_S_STAT st) F.RS_S_STAT_GAP_OPEN = true)) ∧
  (∀ (off : Nat) (s : State),
    (s.now off % 1000000000 = 0 → Does (.epoch off) s fun t => t.rd R.RS_RATE = Word.ofN (s.recBytes / 1000)) ∧
    (s.now off % 1000000000 ≠ 0 → exec (.epoch off) s = .next s)) ∧
  (∀ (st : Fin 8) (off : Nat) (s : State), s.streamOn st = false → (s.streamX st).blocks = [] → 0 < s.streamCap st →
    s.bit (R.RS_S_STAT st) F.RS_S_STAT_GAP_OPEN = false → Does (.streamEnable st off) s fun t => t.streamOn st = true ∧
      (t.streamX st).blocks = [{ s.epochBlk (s.now off) false true with bseq := s.rd (R.RS_S_BSEQ st) }] ∧
      SameMemory s t) ∧
  (∀ (st : Fin 8) (off : Nat) (s : State), s.streamOn st = true → exec (.streamEnable st off) s = .next s) ∧
  (∀ (st : Fin 8) (off : Nat) (s : State), s.streamOn st = true →
    s.bit (R.RS_S_STAT st) F.RS_S_STAT_GAP_OPEN = true → (s.streamX st).blocks.length + 16384 ≤ s.streamCap st →
    Does (.streamRecovery st off) s fun t =>
      (t.streamX st).blocks.map (fun b => b.typ) = (s.streamX st).blocks.map (fun b => b.typ) ++ [8, 11] ∧
      t.bit (R.RS_S_STAT st) F.RS_S_STAT_GAP_OPEN = false ∧ t.rd (R.RS_S_GAPS st) = s.rd (R.RS_S_GAPS st) + 1 ∧
      SameMemory s t) ∧
  ∀ (st : Fin 8) (off : Nat) (s : State), (s.bit (R.RS_S_STAT st) F.RS_S_STAT_GAP_OPEN = false ∨
    s.streamCap st < (s.streamX st).blocks.length + 16384) → exec (.streamRecovery st off) s = .next s


/-- Flush and age close open blocks, a specification is staged or refused, and a posted buffer takes what is ready.
FLUSH leaves no open block of streams 0 to 7, BLOCK_AGE_EXPIRY, in the cycle in which RS_FLUSH ms have passed
since the time of the first entry or later (before that it changes nothing), none of the specification's key;
that block, with its entries, goes to its stream if that is enabled and has room. SPEC_WRITE of a specification
that follows the rules stages its four words and sets RS_SPEC_CMD.WRITE; one that does not only sets SPEC_REJ.
BUFFER_WRITEBACK on a served stream ring hands the oldest whole blocks that fit, and on a served window ring the
next words of the first queued window, to the next posted buffer and uses it; on any other ring it changes
nothing. DRAM data and law memory stay. -/
def Obligations.BlocksAndDelivery : Prop :=
  (∀ s : State, Does .flush s fun t => (∀ e ∈ t.opens, 8 ≤ e.2.stream) ∧ SameMemory s t) ∧
  (∀ (i : Fin 65535) (s : State), (∀ o ∈ Smap.find s.opens (s.specKey i),
    s.t0 + s.period ≤ o.t + s.fld R.RS_FLUSH F.RS_FLUSH_MS * 1000000) → exec (.blockAgeExpiry i) s = .next s) ∧
  (∀ (i : Fin 65535) (s : State) (o : OpenBlk), Smap.find s.opens (s.specKey i) = some o →
    o.t + s.fld R.RS_FLUSH F.RS_FLUSH_MS * 1000000 < s.t0 + s.period → Does (.blockAgeExpiry i) s fun t =>
      Smap.find t.opens (s.specKey i) = none ∧ SameMemory s t ∧
      (s.streamOn o.stream = true → (s.streamX o.stream).blocks.length < s.streamCap o.stream →
        s.bit (R.RS_S_STAT o.stream) F.RS_S_STAT_GAP_OPEN = false →
        (t.streamX o.stream).blocks = (s.streamX o.stream).blocks ++ [⟨o.t, o.typ, o.ents.length,
          if o.typ = 2 then 0xFFFF else o.spec, s.rd (R.RS_S_BSEQ o.stream), o.interval, o.ents.flatten⟩])) ∧
  (∀ s : State, s.specOk (s.fld R.RS_SPEC_IDX F.RS_SPEC_IDX_INDEX) (s.rdAll (R.RS_SPEC_D 0) 4) = true →
    Does .specWrite s fun t => t.bit R.RS_SPEC_CMD F.RS_SPEC_CMD_WRITE = true ∧ SameMemory s t ∧
      ∀ j < 4, (4 * s.fld R.RS_SPEC_IDX F.RS_SPEC_IDX_INDEX + j, s.rd (R.RS_SPEC_D 0 + 4 * j)) ∈ t.specPend) ∧
  (∀ s : State, s.specOk (s.fld R.RS_SPEC_IDX F.RS_SPEC_IDX_INDEX) (s.rdAll (R.RS_SPEC_D 0) 4) = false →
    Does .specWrite s fun t => t.bit R.RS_STAT F.RS_STAT_SPEC_REJ = true ∧ t.specPend = s.specPend ∧ SameMemory s t ∧
      SameRegsBut [R.RS_STAT] s t) ∧
  (∀ (k : HRingIx) (len m : Nat) (s : State) (d : Desc) (rest : List Desc) (bs : List Blk), 16 ≤ k.val → k.val < 24 →
    (s.hringX k).posted = d :: rest → (s.streamX (k.val - 16)).blocks = bs → bs ≠ [] → 64 ≤ d.len → 64 ≤ len →
    s.ringServed k = true → m = min (min len d.len / 64) bs.length →
    Does (.bufferWriteback k len) s fun t => (t.streamX (k.val - 16)).blocks = bs.drop m ∧ (t.hringX k).posted = rest ∧
      SameMemory s t ∧ ∃ slot err ps, Out.buffer k.val slot err (64 * m) ps ((bs.take m).map Blk.words).flatten ∈ t.out) ∧
  (∀ (k : HRingIx) (len m : Nat) (s : State) (d : Desc) (rest : List Desc) (c : Chunk) (q : List Chunk), 24 ≤ k.val →
    k.val < 32 → (s.hringX k).posted = d :: rest → s.winQ k = c :: q → c.words ≠ [] → 4 ≤ d.len → 4 ≤ len →
    s.ringServed k = true → m = min (min len d.len / 4) c.words.length →
    Does (.bufferWriteback k len) s fun t => (t.hringX k).posted = rest ∧ SameMemory s t ∧
      ∃ slot err ps, Out.buffer k.val slot err (4 * m) ps (c.words.take m) ∈ t.out) ∧
  ∀ (k : HRingIx) (len : Nat) (s : State), (k.val < 16 ∨ 32 ≤ k.val) → exec (.bufferWriteback k len) s = .next s


/-- A good frame of the present cycle lands its segments once, and a frame that fails a check is counted and
dropped. At an unused port a frame changes nothing. A frame that fails the frame check is counted in FP_FCS_CNT
and FP_DROP_CNT, one of another EtherType or of a length outside 64 to 1,518 bytes in FP_DROP_CNT; nothing else
but FP_STAT changes. An own frame of the present cycle with one segment of a used station: with WKC 0x81, before
the cut-off and as the first copy, its input words, ISTAT and sample times are taken; after the cut-off it is
counted late; with another WKC that is not 0 it counts as an error and no input is taken. A partner's whole
frame is forwarded unchanged on a PAIR ring, and one with ROLE 1 of the holder's unit that lands is noted as a
sign of life by a unit that is neither holder nor in SEEK. Memory stays. -/
def Obligations.CyclicFramesLand : Prop :=
  (∀ (p : PortIx) (off : Nat) (home looped : Bool) (f : RxFrame) (s : State),
    s.bit (R.FP_CFG p) F.FP_CFG_USED = false → exec (.cyclicFrameReceive p off home looped f) s = .next s) ∧
  (∀ (p : PortIx) (off : Nat) (home looped : Bool) (f : RxFrame) (s : State),
    s.bit (R.FP_CFG p) F.FP_CFG_USED = true →
    (f.fcsOk = false → Does (.cyclicFrameReceive p off home looped f) s fun t =>
      t.rd (R.FP_FCS_CNT p) = s.rd (R.FP_FCS_CNT p) + 1 ∧ t.rd (R.FP_DROP_CNT p) = s.rd (R.FP_DROP_CNT p) + 1 ∧
      t.bit (R.FP_STAT p) F.FP_STAT_FCS_ERR = true ∧ SameMemory s t ∧
      SameRegsBut [R.FP_FCS_CNT p, R.FP_DROP_CNT p, R.FP_STAT p] s t) ∧
    (f.fcsOk = true → s.frameWhole p f = false → Does (.cyclicFrameReceive p off home looped f) s fun t =>
      t.rd (R.FP_DROP_CNT p) = s.rd (R.FP_DROP_CNT p) + 1 ∧ t.bit (R.FP_STAT p) F.FP_STAT_DROPPED = true ∧
      SameMemory s t ∧ SameRegsBut [R.FP_DROP_CNT p, R.FP_STAT p] s t)) ∧
  (∀ (p : PortIx) (off k base n : Nat) (looped : Bool) (f : RxFrame) (g : Seg) (s : State),
    s.bit (R.FP_CFG p) F.FP_CFG_USED = true → f.fcsOk = true → s.frameWhole p f = true → f.seq = s.seq → f.segs = [g] →
    g.stn < 126 → k = 126 * (p.val / 2) + g.stn → s.stnUsed k = true → (s.stnX k).got = none →
    base = s.fld (R.FP_S_MAP k) F.FP_S_MAP_IN_BASE → n = s.fld (R.FP_S_LEN k) F.FP_S_LEN_ILEN / 4 →
    (g.wkc = 0x81 → s.cyc.cut = false → Does (.cyclicFrameReceive p off true looped f) s fun t =>
      (∀ i < n, t.rd (R.IN_WORD (base + i)) = g.input.getD i 0 ∧
        Smap.get (fun _ => (0 : Word)) t.sampleT (base + i) = g.stime) ∧
      t.rd (R.FP_S_ISTAT k) = g.istat ∧ (t.stnX k).got = some (g.istat, g.stime, g.input) ∧
      t.rd (R.FP_RX_CNT p) = s.rd (R.FP_RX_CNT p) + 1 ∧ SameMemory s t) ∧
    (g.wkc = 0x81 → s.cyc.cut = true → Does (.cyclicFrameReceive p off true looped f) s fun t =>
      t.rd R.TM_LATE_LAND_CNT = s.rd R.TM_LATE_LAND_CNT + 1 ∧ t.sampleT = s.sampleT ∧ t.stns = s.stns ∧
      SameMemory s t ∧ SameRegsBut [R.FP_RX_CNT p, R.FP_STAT p, R.TM_LATE_LAND_CNT, R.TM_CYC_STAT] s t) ∧
    (g.wkc ≠ 0x81 → g.wkc ≠ 0 → Does (.cyclicFrameReceive p off true looped f) s fun t =>
      t.rd (R.FP_S_WKC_ERR_CNT k) = s.rd (R.FP_S_WKC_ERR_CNT k) + 1 ∧ t.sampleT = s.sampleT ∧ t.stns = s.stns ∧
      SameMemory s t ∧ SameRegsBut [R.FP_RX_CNT p, R.FP_STAT p, R.FP_S_WKC_ERR_CNT k] s t)) ∧
  (∀ (p : PortIx) (off : Nat) (looped : Bool) (f : RxFrame) (s : State),
    s.bit (R.FP_CFG p) F.FP_CFG_USED = true → f.fcsOk = true → s.frameWhole p f = true →
    s.bit (R.FP_RING_CFG (p.val / 2)) F.FP_RING_CFG_PAIR = true →
    Does (.cyclicFrameReceive p off false looped f) s fun t => Out.forward (p.val ^^^ 1) f ∈ t.out) ∧
  ∀ (p : PortIx) (off : Nat) (looped : Bool) (f : RxFrame) (s : State),
    s.frameLands p false f = true → f.role = 1 → s.paired = true → s.role ≠ 1 → s.pairState ≠ 1 →
    f.unit = s.bit R.XL_STATE F.XL_STATE_HOLDER_ID →
    Does (.cyclicFrameReceive p off false looped f) s fun t => t.xl.ringT = s.now off


/-- Station commands, discovery, admission, the tail window and the link of a port act as the station's state
allows. A station command in PROGRAM or REMOTE (FALLOW in every mode) for a used station that is at least
ADMITTED shows cause 0 and sets APPLY and FALLOW of its segment as the command says; READMIT takes the next
session; otherwise only the cause is shown: 1 denied mode, 3 unused, 2 not admitted. A tail frame that comes
back to a unit that acts counts in FP_RX_CNT of its port. A DISCOVER entry of a station in any state with the
right type and CRC makes it await admission, and shows cause 1 or 2 for a wrong type or CRC; of an unknown
station it is shown as UNKNOWN. A confirmed ADMIT entry is logged, the 16th failure shows cause 3. A unit that
does not act forwards both on a PAIR ring and changes nothing. The tail window sends its TIME frame, when none
waits before it, if it fits, and keeps it with TAIL_FULL if not. LINK_LOST and FIELD_LINK_UP show the link of
their port. -/
def Obligations.StationsAreCommandedAndAdmitted : Prop :=
  (∀ (k : StnIx) (c : Instr) (code a : Nat) (s : State), (c, code) ∈ [(Instr.stnHold k, 1), (.stnFallow k, 2),
      (.stnResume k, 3), (.readmit k, 4)] → a = R.FP_STN_CMD_STAT (k.val / 126) →
    ((code = 2 ∨ s.mode = 1 ∨ s.mode = 2) → s.stnUsed k = true → 2 ≤ s.stnState k → Does c s fun t =>
      t.fld a F.FP_STN_CMD_STAT_CAUSE = 0 ∧ t.bit a F.FP_STN_CMD_STAT_BUSY = false ∧
      (t.stnX k).apply = (if code = 1 then false else if code = 3 then true else (s.stnX k).apply) ∧
      (t.stnX k).fallow = (if code = 2 then true else if code = 3 then false else (s.stnX k).fallow) ∧
      t.fld (R.FP_S_STAT k) F.FP_S_STAT_SESSION =
        (if code = 4 then s.nextSession k else s.fld (R.FP_S_STAT k) F.FP_S_STAT_SESSION) ∧
      SameMemory s t ∧ SameRegsBut (if code = 4 then [a, R.FP_S_STAT k] else [a]) s t) ∧
    (¬ ((code = 2 ∨ s.mode = 1 ∨ s.mode = 2) ∧ s.stnUsed k = true ∧ 2 ≤ s.stnState k) → Does c s fun t =>
      t.fld a F.FP_STN_CMD_STAT_CAUSE = (if code ≠ 2 ∧ s.mode ≠ 1 ∧ s.mode ≠ 2 then 1
        else if s.stnUsed k = false then 3 else 2) ∧ t.stns = s.stns ∧ SameMemory s t ∧ SameRegsBut [a] s t)) ∧
  (∀ (r : FRingIx) (k : StnIx) (off : Nat) (es : List DiscEntry) (acked : Bool) (s : State), s.acts = false →
    exec (.discoverReturn r es) s = .next (if s.bit (R.FP_RING_CFG r) F.FP_RING_CFG_PAIR
      then s.emit (.forwardTail (2 * r.val + 1) 1) else s) ∧
    exec (.admitReturn k off acked) s = .next (if s.bit (R.FP_RING_CFG (k.val / 126)) F.FP_RING_CFG_PAIR
      then s.emit (.forwardTail (2 * (k.val / 126) + 1) 2) else s)) ∧
  (∀ (r : FRingIx) (s : State), s.acts = true →
    exec (.discoverReturn r []) s = .next (s.incr (R.FP_RX_CNT (s.tailPort r)))) ∧
  (∀ (r : FRingIx) (e : DiscEntry) (s : State), s.acts = true →
    (s.ringStns r).find? (fun k => s.rd64 (R.FP_S_EUI_LO k) = e.eui) = none →
    Does (.discoverReturn r [e]) s fun t => t.bit (R.FP_RING_STAT r) F.FP_RING_STAT_UNKNOWN = true ∧
      t.rd64 (R.FP_UNKNOWN_EUI_LO r) = e.eui % 2 ^ 64 ∧ t.stns = s.stns ∧ SameMemory s t ∧
      SameRegsBut [R.FP_RX_CNT (s.tailPort r), R.FP_RING_STAT r, R.FP_UNKNOWN_EUI_LO r, R.FP_UNKNOWN_EUI_LO r + 4] s t) ∧
  (∀ (r : FRingIx) (e : DiscEntry) (k : Nat) (s : State), s.acts = true →
    (s.ringStns r).find? (fun k => s.rd64 (R.FP_S_EUI_LO k) = e.eui) = some k →
    (s.rd (R.FP_S_TYPE k) = e.stype → s.rd (R.FP_S_CRC k) = e.crc →
      Does (.discoverReturn r [e]) s fun t => (t.stnX k).adm = true ∧ (t.stnX k).disc = true ∧
        t.fld (R.FP_S_STAT k) F.FP_S_STAT_CAUSE = 0 ∧ SameMemory s t ∧
        SameRegsBut [R.FP_RX_CNT (s.tailPort r), R.FP_S_STAT k] s t) ∧
    ((s.rd (R.FP_S_TYPE k) ≠ e.stype ∨ s.rd (R.FP_S_CRC k) ≠ e.crc) →
      Does (.discoverReturn r [e]) s fun t => (t.stnX k).adm = false ∧
        t.fld (R.FP_S_STAT k) F.FP_S_STAT_CAUSE = (if s.rd (R.FP_S_TYPE k) ≠ e.stype then 1 else 2) ∧
        SameMemory s t)) ∧
  (∀ (k : StnIx) (off : Nat) (acked : Bool) (cnt : Nat) (s : State), s.acts = true →
    cnt = R.FP_RX_CNT (s.tailPort (k.val / 126)) →
    ((s.stnX k).adm = false → exec (.admitReturn k off acked) s = .next (s.incr cnt)) ∧
    ((s.stnX k).adm = true → Does (.admitReturn k off true) s fun t => (t.stnX k).adm = false ∧
      t.log = s.log ++ [⟨s.assignCyc, s.lseq, false, s.tag off, .station k⟩] ∧ SameMemory s t ∧ SameRegsBut [cnt] s t) ∧
    ((s.stnX k).adm = true → (s.stnX k).tries + 1 < 16 → Does (.admitReturn k off false) s fun t =>
      (t.stnX k).tries = (s.stnX k).tries + 1 ∧ (t.stnX k).adm = true ∧ SameMemory s t ∧ SameRegsBut [cnt] s t) ∧
    ((s.stnX k).adm = true → 16 ≤ (s.stnX k).tries + 1 → Does (.admitReturn k off false) s fun t =>
      (t.stnX k).adm = false ∧ t.fld (R.FP_S_STAT k) F.FP_S_STAT_CAUSE = 3 ∧ SameMemory s t ∧
      SameRegsBut [cnt, R.FP_S_STAT k] s t)) ∧
  (∀ (r : FRingIx) (off : Nat) (s : State), s.ringUsed r = true → s.acts = true → (s.ringX r).times = [] →
    Does (.tailWindow r off) s fun t => t.log = s.log ∧ t.stns = s.stns ∧ SameMemory s t ∧
      SameRegsBut [R.FP_TX_CNT (2 * r.val), R.FP_RX_CNT (s.tailPort r), R.FP_RING_STAT r] s t ∧
      (78 ≤ s.tailRoom r (s.fld (R.FP_TAIL_START r) F.FP_TAIL_START_OFFSET) → (t.ringX r).times = [] ∧
        ∃ data, Out.frame (2 * r.val) data ∈ t.out ∧ data[14]? = some 0x41) ∧
      (s.tailRoom r (s.fld (R.FP_TAIL_START r) F.FP_TAIL_START_OFFSET) < 78 → (t.ringX r).times.length = 1 ∧
        t.bit (R.FP_RING_STAT r) F.FP_RING_STAT_TAIL_FULL = true)) ∧
  (∀ (r : FRingIx) (off : Nat) (s : State), (s.ringUsed r = false ∨ s.acts = false) →
    exec (.tailWindow r off) s = .next s) ∧
  ∀ (p : PortIx) (s : State),
    (s.bit (R.FP_STAT p) F.FP_STAT_LINK = true → Does (.linkLost p) s fun t =>
      t.bit (R.FP_STAT p) F.FP_STAT_LINK = false ∧ t.bit (R.FP_STAT p) F.FP_STAT_LINK_LOST = true ∧ SameMemory s t ∧
      SameRegsBut [R.FP_STAT p] s t) ∧
    (s.bit (R.FP_STAT p) F.FP_STAT_LINK = false → exec (.linkLost p) s = .next s) ∧
    Does (.fieldLinkUp p) s fun t => t.bit (R.FP_STAT p) F.FP_STAT_LINK = true ∧ SameMemory s t ∧
      SameRegsBut [R.FP_STAT p] s t


/-- A request for an ACTIVE station waits for the tail window; its answer or its silence completes the oldest sent
one. MAILBOX of 1 to 1,024 bytes at an aligned address for a used ACTIVE station adds the request to those that
wait and changes nothing else; for another station, or with another length or address, nothing waits, and a
completion with status 8 or 5 fills the next slot of the ring, if one is posted and served. MAILBOX_ANSWER and
NO_ANSWER complete the oldest request that has been sent to the station: it no longer waits, a read that is
answered writes the data to host memory while the link is up, and a posted slot takes the completion, with ERR
for silence. Without such a request nothing but FP_RX_CNT of the port at which the answer came changes. A unit
that does not act forwards the answer of its partner's station on a PAIR ring. -/
def Obligations.MailboxRequestsComplete : Prop :=
  (∀ (k : StnIx) (wr : Bool) (paddr len : Nat) (data : List Byte) (m : CmdMember) (s : State),
    (paddr % 4 = 0 → 1 ≤ len → len ≤ 1024 → s.stnUsed k = true → s.stnState k = 3 →
      exec (.mailbox k wr paddr len data m) s =
        .next { s with mails := s.mails ++ [⟨k, wr, paddr, len, data, m, s.seq, s.rd R.XL_LOG_POS, false⟩] }) ∧
    (∀ (d : Desc) (rest : List Desc) (st : Nat),
      (((paddr % 4 ≠ 0 ∨ len < 1 ∨ 1024 < len) ∧ st = 5) ∨
        (paddr % 4 = 0 ∧ 1 ≤ len ∧ len ≤ 1024 ∧ (s.stnUsed k = false ∨ s.stnState k ≠ 3) ∧ st = 8)) →
      (s.hringX (8 + m.ring)).posted = d :: rest → s.ringServed (8 + m.ring) = true → m.ring < 8 →
      Does (.mailbox k wr paddr len data m) s fun t => t.mails = s.mails ∧ (t.hringX (8 + m.ring)).posted = rest ∧
        SameMemory s t ∧ ∃ slot ws, Out.ring (8 + m.ring) slot 1 m.desc.tag true ws ∈ t.out)) ∧
  (∀ (k : StnIx) (data : List Byte) (istat : Word) (s : State), s.acts = false →
    exec (.mailboxAnswer k data istat) s = .next (if s.bit (R.FP_RING_CFG (k.val / 126)) F.FP_RING_CFG_PAIR
      then s.emit (.forwardTail (2 * (k.val / 126) + 1) 3) else s)) ∧
  (∀ (k : StnIx) (data : List Byte) (istat : Word) (s : State), s.acts = true →
    s.mails.find? (fun m => m.stn = k.val && m.sent) = none →
    exec (.mailboxAnswer k data istat) s = .next (s.incr (R.FP_RX_CNT (s.tailPort (k.val / 126)))) ∧
    exec (.noAnswer k) s = .next s) ∧
  ∀ (k : StnIx) (data : List Byte) (istat : Word) (m : MailX) (d : Desc) (rest : List Desc) (s : State),
    s.mails.find? (fun m => m.stn = k.val && m.sent) = some m → m.member.ring < 8 →
    (s.hringX (8 + m.member.ring)).posted = d :: rest → s.ringServed (8 + m.member.ring) = true →
    (s.acts = true → Does (.mailboxAnswer k data istat) s fun t => t.mails = s.mails.erase m ∧ SameMemory s t ∧
      (t.hringX (8 + m.member.ring)).posted = rest ∧
      (m.wr = false → s.hostDown = false → Out.hostMem m.member.desc.addr (data.take m.len) ∈ t.out) ∧
      ∃ slot ws, Out.ring (8 + m.member.ring) slot 1 m.member.desc.tag false ws ∈ t.out) ∧
    Does (.noAnswer k) s fun t => t.mails = s.mails.erase m ∧ SameMemory s t ∧
      (t.hringX (8 + m.member.ring)).posted = rest ∧
      ∃ slot ws, Out.ring (8 + m.member.ring) slot 1 m.member.desc.tag true ws ∈ t.out


/-- An offset steers or steps the time base and moves its state; silence puts it into HOLDOVER. PTP_OFFSET changes
nothing while the management core is in reset or for a domain above 127; otherwise it completes and shows in
TM_SRV_OFS the offset that its messages' times give with the PHY's latencies (log 266). In a time base that is
not LOCKED, an offset of at least the step threshold makes it LOCKING, clears the integral and the run of good
offsets, and asks for a step of the opposite amount; in a LOCKED one it makes it LOCKING and asks for none. A
smaller one sets ADDEND by the proportional and integral part and asks for no step; it makes an unlocked time
base LOCKING, or LOCKED once LOCK_N offsets in a row have been within LOCK_THR, and copies the UTC offset while
LOCKED. HOLDOVER completes and takes LOCKING or LOCKED to HOLDOVER, and leaves ADDEND and the integral; in other
states it changes nothing. Memory stays. -/
def Obligations.ServoAndHoldover : Prop :=
  (∀ (m : PtpMeas) (utc : BitVec 18) (s : State), (s.mg.down = true ∨ 127 < m.domain) →
    exec (.ptpOffset m utc) s = .next s) ∧
  (∀ (m : PtpMeas) (o : Int) (utc : BitVec 18) (s : State), s.mg.down = false → m.domain ≤ 127 → s.ptpOfs m = o →
    Does (.ptpOffset m utc) s fun t => t.rd R.TM_SRV_OFS = Word.ofI o ∧ SameMemory s t ∧
    SameRegsButEvents [R.TM_SRV_OFS, R.TM_STATE, R.TM_ADDEND, R.TM_SRV_FREQ, R.TM_RTC_UTC] s t ∧
    (o.natAbs ≥ (s.rd R.TM_SRV_STEP_THR).toNat → t.tmState = 2 ∧ t.tm.good = 0 ∧ t.rd R.TM_ADDEND = s.rd R.TM_ADDEND ∧
      (s.tmState ≠ 3 → t.tm.integ = Dy.zero ∧ t.tbStep = some (s.tbStep.getD 0 - o)) ∧
      (s.tmState = 3 → t.tbStep = s.tbStep)) ∧
    (o.natAbs < (s.rd R.TM_SRV_STEP_THR).toNat → t.tbStep = s.tbStep ∧
      t.tm.good = (if o.natAbs < s.fld R.TM_SRV_LOCK F.TM_SRV_LOCK_LOCK_THR then s.tm.good + 1 else 0) ∧
      t.tm.integ = s.tm.integ.add ((F32.toDy (s.rd R.TM_SRV_KI)).mul (Dy.ofInt o)) ∧
      (s.tmState ≠ 3 → t.tmState = (if s.fld R.TM_SRV_LOCK F.TM_SRV_LOCK_LOCK_N ≤ t.tm.good then 3 else 2)) ∧
      (s.tmState = 3 → t.tmState = 3) ∧
      (t.tmState = 3 → t.rd R.TM_RTC_UTC = Word.ofN utc.toNat))) ∧
  (∀ s : State, (s.tmState = 2 ∨ s.tmState = 3) → Does .holdover s fun t => t.tmState = 4 ∧ t.tm.good = 0 ∧
    t.tm.integ = s.tm.integ ∧ SameMemory s t ∧ SameRegsButEvents [R.TM_STATE] s t) ∧
  ∀ s : State, s.tmState ≠ 2 → s.tmState ≠ 3 → exec .holdover s = .next s


/-- A commanded step waits for t0, is refused while locked or awaits two parties above 1 s; a reading latches the
seconds. TM_SET and TM_OFFSET show LOCKED (1) while LOCKING or LOCKED, BAD_VALUE (3) for nanoseconds above
999,999,999 of a SET, and TWO_PARTY (2) for a step above 1 s, and then ask for no step; otherwise cause 0, and
the step waits for the next t0 with its code shown. Nothing but TM_SET_CMD changes. TM_NOW_READ latches
nanoseconds and seconds of the instant and changes nothing else. -/
def Obligations.TimeBaseStepsAndReadings : Prop :=
  (∀ (set : Bool) (c : Instr) (v : Int) (s : State),
    ((set = true ∧ c = .tmSet ∧ v = s.tmSetTime) ∨ (set = false ∧ c = .tmOffset ∧ v = (s.rd R.TM_SET_NS).toInt)) →
    ((s.tmState = 2 ∨ s.tmState = 3) → Does c s fun t => t.fld R.TM_SET_CMD F.TM_SET_CMD_CAUSE = 1 ∧ t.tm = s.tm ∧
      SameMemory s t ∧ SameRegsBut [R.TM_SET_CMD] s t) ∧
    (s.tmState ≠ 2 → s.tmState ≠ 3 → set = true → 999999999 < (s.rd R.TM_SET_NS).toNat →
      Does c s fun t => t.fld R.TM_SET_CMD F.TM_SET_CMD_CAUSE = 3 ∧ t.tm = s.tm ∧ SameMemory s t ∧
        SameRegsBut [R.TM_SET_CMD] s t) ∧
    (s.tmState ≠ 2 → s.tmState ≠ 3 → (set = false ∨ (s.rd R.TM_SET_NS).toNat ≤ 999999999) →
      (1000000000 < (s.tmDelta set v).natAbs → Does c s fun t => t.fld R.TM_SET_CMD F.TM_SET_CMD_CAUSE = 2 ∧
        t.tm = s.tm ∧ SameMemory s t ∧ SameRegsBut [R.TM_SET_CMD] s t) ∧
      ((s.tmDelta set v).natAbs ≤ 1000000000 → Does c s fun t => t.fld R.TM_SET_CMD F.TM_SET_CMD_CAUSE = 0 ∧
        t.fld R.TM_SET_CMD F.TM_SET_CMD_CODE = (if set then 1 else 2) ∧ t.tm = { s.tm with set := some (set, v) } ∧
        SameMemory s t ∧ SameRegsBut [R.TM_SET_CMD] s t))) ∧
  ∀ (off : Nat) (s : State), Does (.tmNowRead off) s fun t =>
    t.rd R.TM_NOW_NS = Word.ofN (s.now off % 1000000000) ∧ t.rd R.TM_NOW_SEC_LO = Word.ofN (s.now off / 1000000000) ∧
    t.rd R.TM_NOW_SEC_HI = Word.ofN (s.now off / 1000000000 / 2 ^ 32 % 65536) ∧ SameMemory s t ∧
    SameRegsBut [R.TM_NOW_NS, R.TM_NOW_SEC_LO, R.TM_NOW_SEC_HI] s t


/-- The calendar clock takes the time base, software's second or its trim, and an edge input counts, stamps and
reports. RTC_UPDATE in HOST or LOCKED, while the management core runs, sets the RTC to the time base and
RTC_VALID, and else changes nothing. RTC_SEC_WRITE within 1 s sets the seconds and keeps the sub-second count;
beyond it changes nothing. RTC_TRIM_WINDOW adds TRIM counts. None of them changes memory or another register.
EDGE_CAPTURE gives the hedgerow the level at the pin. A transition of a used input that has been stable for FILT
takes the level; in a counted direction it counts, stamps unless it is within 8 ns of the last counted one, and
sends a flow item if FLOW_EN says so; with IMAGE, an entry of the log carries its words once a cycle. Of an
unused input, a level that is not new or not yet stable nothing but the pin changes. -/
def Obligations.CalendarClockAndEdges : Prop :=
  (∀ (off : Nat) (s : State),
    (s.mg.down = false → (s.tmState = 1 ∨ s.tmState = 3) → Does (.rtcUpdate off) s fun t =>
      t.tm.rtc = s.now off * 32768 / 1000000000 * 1000000000 ∧ t.bit R.TM_RTC_STAT F.TM_RTC_STAT_RTC_VALID = true ∧
      SameMemory s t ∧ SameRegsBut [R.TM_RTC_SEC_LO, R.TM_RTC_SEC_HI, R.TM_RTC_SUB, R.TM_RTC_STAT] s t) ∧
    ((s.mg.down = true ∨ (s.tmState ≠ 1 ∧ s.tmState ≠ 3)) → exec (.rtcUpdate off) s = .next s)) ∧
  (∀ (v : Word) (sec : Nat) (s : State), sec = s.tm.rtcLo.toNat + v.toNat % 65536 * 2 ^ 32 →
    (((sec : Int) - (s.rtcSec : Int)).natAbs ≤ 1 → Does (.rtcSecWrite v) s fun t =>
      t.tm.rtc = (sec * 32768 + s.tm.rtc / 1000000000 % 32768) * 1000000000 ∧ t.rtcSec = sec ∧ SameMemory s t ∧
      SameRegsBut [R.TM_RTC_SEC_LO, R.TM_RTC_SEC_HI, R.TM_RTC_SUB] s t) ∧
    (1 < ((sec : Int) - (s.rtcSec : Int)).natAbs → exec (.rtcSecWrite v) s = .next s)) ∧
  (∀ s : State, Does .rtcTrimWindow s fun t =>
    t.tm.rtc = ((s.tm.rtc : Int) + s.fldI R.TM_RTC_TRIM F.TM_RTC_TRIM_TRIM * 1000000000).toNat ∧ SameMemory s t ∧
    SameRegsBut [R.TM_RTC_SEC_LO, R.TM_RTC_SEC_HI, R.TM_RTC_SUB] s t) ∧
  (∀ (e : Fin 64) (off n : Nat) (level : Bool) (s : State), (s.bit (R.TM_EDGE_CFG e) F.TM_EDGE_CFG_USED = false ∨
      (s.edgeX e).level = level ∨ n < s.fld (R.TM_EDGE_CFG e) F.TM_EDGE_CFG_FILT) →
    exec (.edgeCapture e off level n) s =
      .next ((s.setEdgeX e { s.edgeX e with pin := level }).hgEval (s.now off))) ∧
  ∀ (e : Fin 64) (off n : Nat) (level near counts : Bool) (s u : State),
    s.bit (R.TM_EDGE_CFG e) F.TM_EDGE_CFG_USED = true → (s.edgeX e).level = !level →
    s.fld (R.TM_EDGE_CFG e) F.TM_EDGE_CFG_FILT ≤ n → near = (s.edgeX e).near (s.now off) →
    u = (s.setEdgeX e { s.edgeX e with pin := level }).hgEval (s.now off) →
    counts = (s.fld (R.TM_EDGE_CFG e) F.TM_EDGE_CFG_EDGE = 2 || (s.fld (R.TM_EDGE_CFG e) F.TM_EDGE_CFG_EDGE = 0 && level) ||
      (s.fld (R.TM_EDGE_CFG e) F.TM_EDGE_CFG_EDGE = 1 && !level)) →
    Does (.edgeCapture e off level n) s fun t => t.io = u.io ∧ SameMemory u t ∧
      (t.edgeX e).level = level ∧ (t.edgeX e).pin = level ∧
      (t.edgeX e).count = (s.edgeX e).count + (if counts then 1 else 0) ∧
      (t.edgeX e).last = (if counts then some (s.now off) else (s.edgeX e).last) ∧
      (t.edgeX e).rise = (if counts && level && !near then s.tag off else (s.edgeX e).rise) ∧
      (t.edgeX e).fall = (if counts && !level && !near then s.tag off else (s.edgeX e).fall) ∧
      (s.role ≠ 2 → counts = true → near = false → s.bit (R.TM_EDGE_CFG e) F.TM_EDGE_CFG_FLOW_EN = true →
        ∃ x ∈ t.log, x.cyc = s.assignCyc ∧ x.kind = .edgeItem e (s.tag off) level) ∧
      (s.role ≠ 2 → s.bit (R.TM_EDGE_CFG e) F.TM_EDGE_CFG_IMAGE = true → (s.edgeX e).entry ≠ some s.seq →
        ∃ x ∈ t.log, x.cyc = s.assignCyc ∧
          x.kind = .edgeImage e (t.edgeX e).rise (t.edgeX e).fall (t.edgeX e).count (if level then 1 else 0))


/-- A received frame goes where its map entry says, a standby buffers it, ABD judges it, and modes follow request,
role and clock. A frame at a port that is OFF, not integrated or bus-off changes nothing. In LISTEN or NORMAL it
is counted; a standby buffers it; otherwise one whose entry is IMAGE or FLOW is logged, one for HOST (a remote
one for IMAGE or FLOW too, and without an entry, if DEFAULT is set) waits for a receive slot if an entry is free
and is counted lost if none is, and another goes nowhere. In ABD a frame with BRS changes nothing, the first
good one is noted, the second sets the candidate's timing, ABD_DONE and the request LISTEN. Requests, ABD
restarts, window expiries and the return of the clock set the effective mode as R402 says; ABD goes to the next
used candidate, and without one it fails and the port is OFF. -/
def Obligations.CanReceptionsAndModes : Prop :=
  (∀ (p : CanIx) (off : Nat) (f : CanFrame) (s : State), (s.canEff p = 0 ∨ (s.canX p).integ = false ∨
    s.canBusOff p = true) → exec (.canFrameReceive p off f) s = .next s) ∧
  (∀ (p : CanIx) (off : Nat) (f : CanFrame) (s : State), (s.canEff p = 1 ∨ s.canEff p = 2) → (s.canX p).integ = true →
    s.canBusOff p = false → Does (.canFrameReceive p off f) s fun t => t.rd (R.CF_RX_CNT p) = s.rd (R.CF_RX_CNT p) + 1 ∧ SameMemory s t ∧
      (t.canX p).busy = false ∧ (s.role = 2 → t.log = s.log ∧ (f, false) ∈ (t.canX p).buf) ∧
      (∀ i w x, s.role ≠ 2 → f.rtr = false → s.canMatch p f = some (i, x) → (x = .image w ∨ ∃ g, x = .flow g) →
        t.log = s.log ++ [⟨s.assignCyc, s.lseq, false, s.tag off, .canRx p i f⟩]) ∧
      (s.role ≠ 2 → ((s.canMatch p f).map (fun m => m.2) = some .drop ∨
        (s.canMatch p f = none ∧ s.bit (R.CF_CFG p) F.CF_CFG_DEFAULT = false)) →
        t.log = s.log ∧ (t.canX p).rxQ = (s.canX p).rxQ) ∧
      (s.role ≠ 2 → ((∃ m ∈ s.canMatch p f, m.2 = .host ∨ (f.rtr = true ∧ m.2 ≠ .drop)) ∨
        (s.canMatch p f = none ∧ s.bit (R.CF_CFG p) F.CF_CFG_DEFAULT = true)) → t.log = s.log ∧
        ((s.hringX (33 + 2 * p.val)).posted = [] →
          (∃ e < 256, e ∉ (s.canX p).rxOwn ∧ ∀ q ∈ (s.canX p).rxQ, q.1 ≠ e) →
          ∃ e, (t.canX p).rxQ = (s.canX p).rxQ ++ [(e, f, s.tag off)]) ∧
        ((∀ e < 256, e ∈ (s.canX p).rxOwn ∨ ∃ q ∈ (s.canX p).rxQ, q.1 = e) →
          t.rd (R.CF_RX_LOST_CNT p) = s.rd (R.CF_RX_LOST_CNT p) + 1 ∧
          t.bit (R.CF_STAT p) F.CF_STAT_RX_OVF = true))) ∧
  (∀ (p : CanIx) (off : Nat) (f : CanFrame) (s : State), s.canEff p = 3 → (s.canX p).integ = true →
    s.canBusOff p = false →
    (f.brs = true → exec (.canFrameReceive p off f) s = .next s) ∧
    (f.brs = false → (s.canX p).abdN = 0 → Does (.canFrameReceive p off f) s fun t => (t.canX p).abdN = 1 ∧
      t.io = s.io ∧ SameMemory s t) ∧
    (f.brs = false → (s.canX p).abdN ≠ 0 → (s.canX p).abd < 8 → Does (.canFrameReceive p off f) s fun t =>
      t.rd (R.CF_NBT p) = s.rd (R.CF_ABD_RATE p (s.canX p).abd) ∧
      t.fld (R.CF_ABD p) F.CF_ABD_RESULT = (s.canX p).abd ∧ t.bit (R.CF_STAT p) F.CF_STAT_ABD_DONE = true ∧
      t.fld (R.CF_MODE p) F.CF_MODE_REQ = 2 ∧ SameMemory s t)) ∧
  (∀ (p : CanIx) (req : BitVec 2) (s : State), Does (.canModeRequest p req) s fun t => SameMemory s t ∧
    (req ≠ 3 → t.fld (R.CF_MODE p) F.CF_MODE_REQ = req.toNat ∧ t.canEff p =
      (if s.canBad = true ∨ s.bit (R.CF_CFG p) F.CF_CFG_USED = false then 0
        else if s.role = 2 ∧ req = 1 then 2 else req.toNat)) ∧
    (∀ j, req = 3 → s.canBad = false → s.bit (R.CF_CFG p) F.CF_CFG_USED = true → s.canEff p ≠ 3 →
      s.abdFrom p 0 = some j → t.canEff p = 3 ∧ (t.canX p).abd = j)) ∧
  (∀ s : State, Does .canClockGood s fun t => t.canBad = false ∧ SameMemory s t ∧
    ∀ p : CanIx, s.fld (R.CF_MODE p) F.CF_MODE_REQ ≠ 3 → t.canEff p =
      (if s.bit (R.CF_CFG p) F.CF_CFG_USED = false then 0
        else if s.role = 2 ∧ s.fld (R.CF_MODE p) F.CF_MODE_REQ = 1 then 2 else s.fld (R.CF_MODE p) F.CF_MODE_REQ)) ∧
  (∀ (p : CanIx) (c : Instr) (i : Nat) (s : State), s.canEff p = 3 →
    ((c = .abdRestart p ∧ i = 0) ∨ (c = .abdWindowExpiry p ∧ i = (s.canX p).abd + 1)) →
    (∀ j, s.abdFrom p i = some j → Does c s fun t => (t.canX p).abd = j ∧ (t.canX p).abdN = 0 ∧
      (t.canX p).integ = false ∧ t.io = s.io ∧ SameMemory s t) ∧
    (s.abdFrom p i = none → Does c s fun t => t.bit (R.CF_STAT p) F.CF_STAT_ABD_FAIL = true ∧ t.canEff p = 0 ∧
      t.fld (R.CF_MODE p) F.CF_MODE_REQ = 0 ∧ SameMemory s t)) ∧
  (∀ (p : CanIx) (s : State), s.canEff p ≠ 3 → exec (.abdWindowExpiry p) s = .next s) ∧
  ∀ (p : CanIx) (j : Nat) (s : State), s.canEff p ≠ 3 → s.canBad = false →
    s.bit (R.CF_CFG p) F.CF_CFG_USED = true → s.abdFrom p 0 = some j →
    Does (.abdRestart p) s fun t => t.canEff p = 3 ∧ (t.canX p).abd = j ∧ SameMemory s t


/-- A frame on the bus completes, is cancelled or is offered again, and the error counters move the port to bus-off
and back. CAN_TX_COMPLETE counts the frame on the bus, or that the port next puts there on the free bus; an
IMAGE entry without a waiting trigger of a unit that is not a holder is free with its status, a holder logs the
completion. ARBITRATION_LOST counts, makes the frame pending again, or ends a cancelled one with status 1, and
leaves the bus busy. Without a frame the bus is free and the next one is offered; in a standby neither changes
anything. CANCEL ends a pending entry with status 1 (an IMAGE entry is free or takes its waiting frame, a HOST
entry is software's; a holder logs it), marks one on the bus or in a standby, and changes no other. CAN_ERROR of
a port that is not OFF or bus-off counts and shows the kind; a receive error (and any in a standby) adds to the
receive count and can make the port error-passive, a transmit error to the transmit count, which above 255 makes
it bus-off; it ends a cancelled frame with status 3 if that had won arbitration and with 1 if not. RECOVER and
then BUS_OFF_RECOVERY make it error-active with both counters 0. BUS_INTEGRATION integrates a port that is not
OFF. RECLAIM takes back the receive entries of its ports. -/
def Obligations.CanTransmissionAndErrors : Prop :=
  (∀ (p : CanIx) (off tdc e : Nat) (s : State), s.role ≠ 2 → (s.canFree p).canCurrent p = some e →
    Does (.canTxComplete p off tdc) s fun t => t.rd (R.CF_TX_CNT p) = s.rd (R.CF_TX_CNT p) + 1 ∧ SameMemory s t ∧
      (s.role ≠ 1 → (s.txX p e).desc = none → (s.txX p e).wait = none →
        s.bit (R.CF_TXE p e) F.CF_TXE_KIND = false → t.txState p e = 0 ∧
        t.fld (R.CF_TXE p e) F.CF_TXE_STATUS = (if (s.txX p e).cancel then 2 else 0) ∧ t.log = s.log) ∧
      (s.role = 1 → t.log = s.log ++
        [⟨s.assignCyc, s.lseq, false, s.tag off, .canDone p e (if (s.txX p e).cancel then 2 else 0)⟩])) ∧
  (∀ (p : CanIx) (off tdc : Nat) (s : State),
    (s.role ≠ 2 → (s.canFree p).canCurrent p = none → exec (.canTxComplete p off tdc) s = .next (s.canFree p) ∧
      exec (.arbitrationLost p) s = .next (s.canFree p)) ∧
    (s.role = 2 → exec (.canTxComplete p off tdc) s = .next s ∧ exec (.arbitrationLost p) s = .next s)) ∧
  (∀ (p : CanIx) (e : Nat) (s : State), s.role ≠ 2 → (s.canFree p).canCurrent p = some e →
    ((s.txX p e).cancel = false → Does (.arbitrationLost p) s fun t => t.txState p e = 1 ∧ (t.canX p).busy = true ∧
      t.rd (R.CF_ARB_LOST_CNT p) = s.rd (R.CF_ARB_LOST_CNT p) + 1 ∧ SameMemory s t ∧
      SameRegsBut [R.CF_ARB_LOST_CNT p, R.CF_TXE p e] s t) ∧
    ((s.txX p e).cancel = true → s.role ≠ 1 → Does (.arbitrationLost p) s fun t =>
      t.fld (R.CF_TXE p e) F.CF_TXE_STATUS = 1 ∧ t.rd (R.CF_ARB_LOST_CNT p) = s.rd (R.CF_ARB_LOST_CNT p) + 1 ∧
      SameMemory s t)) ∧
  (∀ (p : CanIx) (e : Fin 64) (s : State),
    (s.txState p e = 1 → s.role ≠ 1 → s.role ≠ 2 → (s.txX p e).sent = false →
      ((s.txX p e).desc = none → s.bit (R.CF_TXE p e) F.CF_TXE_KIND = false → Does (.cancel p e) s fun t =>
        t.txState p e = (if (s.txX p e).wait.isSome then 1 else 0) ∧ t.fld (R.CF_TXE p e) F.CF_TXE_STATUS = 1 ∧
        (∀ g ∈ (s.txX p e).wait, (t.txX p e).frame = g) ∧ SameMemory s t) ∧
      ((s.txX p e).desc.isSome = true → Does (.cancel p e) s fun t => t.txState p e = 3 ∧
        t.fld (R.CF_TXE p e) F.CF_TXE_STATUS = 1 ∧ SameMemory s t)) ∧
    (s.txState p e = 1 → s.role = 1 → (s.txX p e).sent = false → Does (.cancel p e) s fun t =>
      (t.txX p e).sent = true ∧ t.log = s.log ++ [⟨s.assignCyc, s.lseq, false, s.tag 0, .canDone p e 1⟩] ∧
      SameMemory s t) ∧
    (s.txState p e = 1 → s.role ≠ 2 → (s.txX p e).sent = true → exec (.cancel p e) s = .next s) ∧
    (s.txState p e = 1 → s.role = 2 → Does (.cancel p e) s fun t => (t.txX p e).cancel = true ∧ t.io = s.io ∧
      SameMemory s t) ∧
    (s.txState p e = 2 → Does (.cancel p e) s fun t => (t.txX p e).cancel = true ∧ t.io = s.io ∧ SameMemory s t) ∧
    (s.txState p e ≠ 1 → s.txState p e ≠ 2 → exec (.cancel p e) s = .next s)) ∧
  (∀ (p : CanIx) (k : CanErr) (side : CanSide) (step : Nat) (s : State), (s.canEff p = 0 ∨ s.canBusOff p = true) →
    exec (.canError p k side step) s = .next s) ∧
  (∀ (p : CanIx) (k : CanErr) (side : CanSide) (step : Nat) (s : State), s.canEff p ≠ 0 → s.canBusOff p = false →
    Does (.canError p k side step) s fun t => t.rd (R.CF_ERR_CNT p) = s.rd (R.CF_ERR_CNT p) + 1 ∧
      t.fld (R.CF_STAT p) F.CF_STAT_LEC = lecCode k ∧ SameMemory s t ∧
      (s.canEff p ≠ 3 → (side = .receiver ∨ s.role = 2) → (t.canX p).recN = (s.canX p).recN + step ∧
        (t.fld (R.CF_STAT p) F.CF_STAT_STATE =
          (if 128 ≤ s.fld (R.CF_ERRCNT p) F.CF_ERRCNT_TEC ∨ 128 ≤ (s.canX p).recN + step then
            (if s.fld (R.CF_STAT p) F.CF_STAT_STATE = 0 then 1 else s.fld (R.CF_STAT p) F.CF_STAT_STATE) else 0))) ∧
      (s.canEff p ≠ 3 → s.role ≠ 2 → side ≠ .receiver → t.fld (R.CF_ERRCNT p) F.CF_ERRCNT_TEC =
        min 255 (s.fld (R.CF_ERRCNT p) F.CF_ERRCNT_TEC + step)) ∧
      (s.canEff p ≠ 3 → s.role ≠ 2 → side ≠ .receiver → 255 < s.fld (R.CF_ERRCNT p) F.CF_ERRCNT_TEC + step →
        t.canBusOff p = true ∧ t.rd (R.CF_BUSOFF_CNT p) = s.rd (R.CF_BUSOFF_CNT p) + 1) ∧
      (∀ e, s.canEff p ≠ 3 → s.role = 0 → side ≠ .receiver → (s.canFree p).canCurrent p = some e → (s.txX p e).cancel = true →
        t.fld (R.CF_TXE p e) F.CF_TXE_STATUS = if side = .sender then 3 else 1)) ∧
  (∀ (p : CanIx) (s : State),
    (s.canBusOff p = true → Does (.recover p) s fun t => (t.canX p).recov = true ∧ t.io = s.io ∧ SameMemory s t) ∧
    (s.canBusOff p = false → exec (.recover p) s = .next s) ∧
    (s.canBusOff p = true → (s.canX p).recov = true → Does (.busOffRecovery p) s fun t =>
      t.fld (R.CF_STAT p) F.CF_STAT_STATE = 0 ∧ t.fld (R.CF_ERRCNT p) F.CF_ERRCNT_TEC = 0 ∧
      t.fld (R.CF_ERRCNT p) F.CF_ERRCNT_REC = 0 ∧ (t.canX p).recN = 0 ∧ SameMemory s t) ∧
    ((s.canBusOff p = false ∨ (s.canX p).recov = false) → exec (.busOffRecovery p) s = .next s) ∧
    (s.canEff p = 0 → exec (.busIntegration p) s = .next s) ∧
    (s.canEff p ≠ 0 → Does (.busIntegration p) s fun t => (t.canX p).integ = true ∧ SameMemory s t)) ∧
  ∀ (mask : BitVec 16) (s : State), s.mgBar false = 0 → s.mgSession.2 = true → Does (.reclaim mask) s fun t =>
    Out.mbox 0 [] ∈ t.out ∧ SameMemory s t ∧ ∀ p : CanIx, mask.getLsbD p.val = true → (t.canX p).rxOwn = [] ∧
      t.rd (R.CF_RX_LOST_CNT p) = s.rd (R.CF_RX_LOST_CNT p) + Word.ofN (s.canX p).rxOwn.length


/-- Bit timing is written in PROGRAM or REMOTE while the port or group is OFF and within the limits, or else
refused. With the key in PROGRAM or REMOTE, a write of CF_NBT or CF_DBT of a port that is OFF, or of CF_PRESC of
a group all of whose ports are OFF, whose resulting timing keeps the limits of R398 and R399 (for CF_PRESC, on
every used port of the group), sets the register's fields (CF_PRESC shows them on every port of the group) and
changes nothing else. A register that holds 0 has no timing to keep (the model's reading, log 267). If it breaks
the limits, or the port, or a port of the group, is not OFF, it sets CFG_REJ of the port and changes no other
register. A write of CF_PRESC of a port that is not the first of its group is refused as read-only, and counted.
In STOP and RUN the write is refused and counted, and no CAN register changes. -/
def Obligations.CanTimingOnlyWhileOffAndWithinLimits : Prop :=
  (∀ (p : CanIx) (reg : Fin 3) (v : Word) (s : State), s.mode ≠ 1 → s.mode ≠ 2 →
    Does (.canTimingWrite p reg v) s fun t => t.rd R.HI_WERR_CNT = s.rd R.HI_WERR_CNT + 1 ∧ SameMemory s t ∧
      SameRegsButEvents [R.HI_WERR_CNT, R.HI_WERR_STAT, R.HI_WERR_ADDR] s t) ∧
  (∀ (p : CanIx) (v : Word) (s : State), (s.mode = 1 ∨ s.mode = 2) →
    ((s.canEff p = 0 ∧ canNbtOk (s.canBrp p) (v &&& 0x3FFFFF) = true ∧
        s.canTimed p (s.canBrp p) (v &&& 0x3FFFFF) (s.rd (R.CF_DBT p)) = true) →
      Does (.canTimingWrite p 0 v) s fun t => t.rd (R.CF_NBT p) = v &&& 0x3FFFFF ∧ SameMemory s t ∧
        SameRegsBut [R.CF_NBT p] s t) ∧
    (¬ (s.canEff p = 0 ∧ canNbtOk (s.canBrp p) (v &&& 0x3FFFFF) = true ∧
        s.canTimed p (s.canBrp p) (v &&& 0x3FFFFF) (s.rd (R.CF_DBT p)) = true) →
      Does (.canTimingWrite p 0 v) s fun t => t.bit (R.CF_STAT p) F.CF_STAT_CFG_REJ = true ∧ SameMemory s t ∧
        SameRegsBut [R.CF_STAT p] s t) ∧
    ((s.canEff p = 0 ∧ canDbtOk (s.canBrp p) (v &&& 0x1FFFFF) = true ∧
        s.canTimed p (s.canBrp p) (s.rd (R.CF_NBT p)) (v &&& 0x1FFFFF) = true) →
      Does (.canTimingWrite p 1 v) s fun t => t.rd (R.CF_DBT p) = v &&& 0x1FFFFF ∧ SameMemory s t ∧
        SameRegsBut [R.CF_DBT p] s t) ∧
    (¬ (s.canEff p = 0 ∧ canDbtOk (s.canBrp p) (v &&& 0x1FFFFF) = true ∧
        s.canTimed p (s.canBrp p) (s.rd (R.CF_NBT p)) (v &&& 0x1FFFFF) = true) →
      Does (.canTimingWrite p 1 v) s fun t => t.bit (R.CF_STAT p) F.CF_STAT_CFG_REJ = true ∧ SameMemory s t ∧
        SameRegsBut [R.CF_STAT p] s t)) ∧
  (∀ (p : CanIx) (v : Word) (s : State), (s.mode = 1 ∨ s.mode = 2) → p.val % 4 ≠ 0 →
    Does (.canTimingWrite p 2 v) s fun t => t.rd R.HI_WERR_CNT = s.rd R.HI_WERR_CNT + 1 ∧
      (s.fld R.HI_WERR_STAT F.HI_WERR_STAT_STATUS = 0 → t.fld R.HI_WERR_STAT F.HI_WERR_STAT_STATUS = 3) ∧
      SameMemory s t ∧ SameRegsButEvents werrRegs s t) ∧
  ∀ (g : Fin 4) (p : CanIx) (v : Word) (s : State) (good : Prop), (s.mode = 1 ∨ s.mode = 2) → p.val = 4 * g.val →
    (good ↔ ∀ i < 4, s.canEff (p.val + i) = 0 ∧ (s.bit (R.CF_CFG (p.val + i)) F.CF_CFG_USED = true →
      s.canTimed (p.val + i) ((v &&& 0x1F).toNat + 1) (s.rd (R.CF_NBT (p.val + i))) (s.rd (R.CF_DBT (p.val + i))) = true)) →
    (good → Does (.canTimingWrite p 2 v) s fun t => (∀ i < 4, t.rd (R.CF_PRESC (p.val + i)) = v &&& 0x1F) ∧
      SameMemory s t ∧ SameRegsBut ((List.range 4).map (fun i => R.CF_PRESC (p.val + i))) s t) ∧
    (¬ good → Does (.canTimingWrite p 2 v) s fun t => t.bit (R.CF_STAT p) F.CF_STAT_CFG_REJ = true ∧ SameMemory s t ∧
      SameRegsBut [R.CF_STAT p] s t)


/-- A holder that meets a second holder compares lease epochs, and exactly one of the two mutes, unit 1 on a tie.
When a holder of a running pair receives a heartbeat on a link that it uses, or lands a frame of its partner
with ROLE 1 (a whole frame of the running cycle at a used port, before the cut-off), it compares its lease epoch
with the partner's. If its own is lower, or both are equal and it is unit 1, it is MUTED at once, DUAL_HOLDER is
set, and a FAULT (0x7003) is recorded if the staging ring has room for it. Otherwise it stays HOLDER, its status
register is as it was, and no stop begins. -/
def Obligations.TheLowerLeaseEpochMutes : Prop :=
  ∀ (c : Instr) (off epoch n : Nat) (p : PortIx) (looped : Bool) (f : RxFrame) (s : State),
    ((c = .heartbeatReceive off epoch ∧ s.xl.unused = false ∧ n = 0) ∨
      (c = .cyclicFrameReceive p off false looped f ∧ f.epoch = epoch ∧ f.role = 1 ∧
        s.frameLands p false f = true ∧ n = f.segs.length)) →
    s.paired = true → s.role = 1 →
    (((s.rd R.XL_EPOCH).toNat < epoch ∨ ((s.rd R.XL_EPOCH).toNat = epoch ∧ s.unit = 1)) →
      Does c s fun t => t.pairState = 4 ∧ t.bit R.XL_STAT F.XL_STAT_DUAL_HOLDER = true ∧
        (s.evStage.length + n + 2 ≤ 8192 →
          (s.evStage.filter (fun r => r.code = 0x7003 && r.cls = 2)).length <
            (t.evStage.filter (fun r => r.code = 0x7003 && r.cls = 2)).length)) ∧
    (¬ ((s.rd R.XL_EPOCH).toNat < epoch ∨ ((s.rd R.XL_EPOCH).toNat = epoch ∧ s.unit = 1)) →
      Does c s fun t => t.pairState = 2 ∧ t.rd R.XL_STAT = s.rd R.XL_STAT ∧ t.stopped = s.stopped ∧ t.log = s.log)


/-- Hellos, heartbeats and the link show the partner, move a unit out of SEEK and keep the epoch, as R420 to R423
say. HELLO_SEND and HEARTBEAT_SEND send their message from a running paired unit with the link and no conflict
of IDs, or from a holder whose link is used, and otherwise do nothing. HEARTBEAT_RECEIVE in a unit of a running
pair that is not holder takes the epoch and the time, and a new epoch ends every proposal; without a pair, or on
a link not used, it does nothing. HELLO of the own unit ID shows ID_CONFLICT, of another image INCOMPAT, and
either leaves no partner and takes the link out of use; else the partner is shown, and a unit in SEEK resyncs to
a HOLDER or STANDBY, and with a partner in SEEK becomes HOLDER with epoch 1 if it goes first and resyncs if not.
Link loss and return and a degraded lane of a unit of a pair, and the end of SEEK without a partner or a
holder's frame, show in their bits and states. -/
def Obligations.HellosHeartbeatsAndTheLink : Prop :=
  (∀ s : State, s.paired = true → s.bit R.XL_STATE F.XL_STATE_LINK = true → s.xl.conflict = false →
    exec .helloSend s = .next (s.emit (.hello s.ownHello))) ∧
  (∀ s : State, (s.paired = false ∨ s.bit R.XL_STATE F.XL_STATE_LINK = false ∨ s.xl.conflict = true) →
    exec .helloSend s = .next s) ∧
  (∀ s : State, exec .heartbeatSend s =
    .next (if s.role = 1 ∧ s.xl.unused = false then s.emit (.heartbeat (s.rd R.XL_EPOCH).toNat) else s)) ∧
  (∀ (off epoch : Nat) (s : State),
    ((s.paired = false ∨ s.xl.unused = true) → exec (.heartbeatReceive off epoch) s = .next s) ∧
    (s.paired = true → s.xl.unused = false → s.role ≠ 1 → Does (.heartbeatReceive off epoch) s fun t =>
      t.rd R.XL_EPOCH = Word.ofN epoch ∧ t.rd R.XL_LAST_HB_T = s.tag off ∧ t.xl.hbT = s.now off ∧
      t.mg.props = (if s.rd R.XL_EPOCH = Word.ofN epoch then s.mg.props else []) ∧ SameMemory s t ∧
      (s.rd R.XL_EPOCH = Word.ofN epoch → SameRegsBut [R.XL_LAST_HB_T] s t) ∧
      SameRegsBut ([R.XL_EPOCH, R.XL_LAST_HB_T, R.HG_PATCH_STAT] ++ (s.mg.props.map (fun e =>
        (List.range 4).map (fun i => R.LF_PROP e.1 + 4 * i))).flatten) s t)) ∧
  (∀ (h : Hello) (s : State),
    (s.pairEn = false → exec (.hello h) s = .next s) ∧
    (s.pairEn = true → s.boot.up = false → Does (.hello h) s fun t => t.xl.partner = some h ∧ t.io = s.io ∧
      SameMemory s t) ∧
    (s.paired = true → (if h.unit then 1 else 0) = s.unit → Does (.hello h) s fun t =>
      t.bit R.XL_STAT F.XL_STAT_ID_CONFLICT = true ∧ t.bit R.XL_STATE F.XL_STATE_PEER = false ∧
      t.xl = { s.xl with partner := none, unused := true, conflict := true } ∧ t.pairState = s.pairState ∧ SameMemory s t) ∧
    (s.paired = true → (if h.unit then 1 else 0) ≠ s.unit → h.imgId ≠ s.rd R.HI_IMG → Does (.hello h) s fun t =>
      t.bit R.XL_STAT F.XL_STAT_INCOMPAT = true ∧ t.bit R.XL_STATE F.XL_STATE_PEER = false ∧ t.xl.partner = none ∧
      t.xl.unused = true ∧ (s.pairState ≠ 5 → s.pairState ≠ 6 → t.pairState = s.pairState ∧ SameMemory s t)) ∧
    (s.paired = true → (if h.unit then 1 else 0) ≠ s.unit → h.imgId = s.rd R.HI_IMG → Does (.hello h) s fun t =>
      t.bit R.XL_STATE F.XL_STATE_PEER = true ∧ t.xl.partner = some h ∧
      (s.pairState ≠ 1 → t.pairState = s.pairState ∧ SameMemory s t) ∧
      (s.pairState = 1 → (h.state = 2 ∨ h.state = 3) → t.pairState = 5) ∧
      (s.pairState = 1 → h.state = 1 → s.seekFirst h = true → t.pairState = 2 ∧ t.rd R.XL_EPOCH = 1) ∧
      (s.pairState = 1 → h.state = 1 → s.seekFirst h = false → t.pairState = 5))) ∧
  (∀ s : State, s.pairEn = true → s.bit R.XL_STATE F.XL_STATE_LINK = true → Does .olfoazLinkDown s fun t =>
    t.bit R.XL_STATE F.XL_STATE_LINK = false ∧ t.bit R.XL_STATE F.XL_STATE_PEER = false ∧
    t.bit R.XL_STAT F.XL_STAT_LINK_LOST = true ∧ t.xl.partner = none ∧
    ((s.pairState = 5 ∨ s.pairState = 6) → t.pairState = 4 ∧ t.fld R.XL_STAT F.XL_STAT_RS_CAUSE = 1) ∧
    (s.pairState ≠ 5 → s.pairState ≠ 6 → t.pairState = s.pairState ∧ SameMemory s t)) ∧
  (∀ s : State, (s.pairEn = false ∨ s.bit R.XL_STATE F.XL_STATE_LINK = false) →
    exec .olfoazLinkDown s = .next s) ∧
  (∀ s : State, s.pairEn = false → exec .olfoazLinkUp s = .next s ∧ exec .laneDeg s = .next s) ∧
  (∀ s : State, s.pairEn = true → Does .olfoazLinkUp s fun t => t.bit R.XL_STATE F.XL_STATE_LINK = true ∧
    t.bit R.XL_STATE F.XL_STATE_LANE_DEG = false ∧ t.pairState = s.pairState ∧ SameMemory s t ∧
    SameRegsBut [R.XL_STATE] s t) ∧
  (∀ s : State, s.pairEn = true → Does .laneDeg s fun t => t.bit R.XL_STATE F.XL_STATE_LANE_DEG = true ∧ t.pairState = s.pairState ∧
    SameMemory s t ∧ SameRegsButEvents [R.XL_STATE] s t) ∧
  ∀ (seen : Bool) (s : State),
    (s.paired = true → s.pairState = 1 → seen = false → s.xl.heard = false → Does (.seekTimeout seen) s fun t => t.pairState = 2 ∧
      t.rd R.XL_EPOCH = 1) ∧
    ((s.paired = false ∨ s.pairState ≠ 1 ∨ seen = true ∨ s.xl.heard = true) → exec (.seekTimeout seen) s = .next s)


/-- A takeover, a hand-over and a TAKE give the lease the next epoch where their conditions hold, and change nothing
where not. TAKEOVER in a STANDBY of a running pair to which both paths have been silent for LEASE_US makes it
HOLDER with the next epoch, counts, sets TAKEOVER, and logs every input that it has itself seen for the next
cycle; otherwise it changes nothing. HANDOVER lets a holder with a matched STANDBY partner send the lease, with
the next epoch, and become STANDBY; a STANDBY whose last 64 cycles have matched becomes HOLDER with the next
epoch; a holder without such a partner, and a STANDBY with fewer matching cycles, show cause 4 and keep their
state. TAKE makes a STANDBY of a running pair HOLDER. RESYNC and MUTE that the pair state permits wait with BUSY
for the next cycle boundary. Any other case shows cause 1 and changes no other register. -/
def Obligations.TheLeaseMovesOnlyAsItMay : Prop :=
  (∀ s : State, s.paired = true → s.pairState = 3 → s.holderSilent = true → Does .takeover s fun t =>
    t.pairState = 2 ∧ t.rd R.XL_EPOCH = s.rd R.XL_EPOCH + 1 ∧ t.rd R.XL_TKO_CNT = s.rd R.XL_TKO_CNT + 1 ∧
    t.bit R.XL_STAT F.XL_STAT_TAKEOVER = true ∧ t.mails = [] ∧
    ∀ e ∈ s.xl.seen, ∃ x ∈ t.log, x.kind = e.2 ∧ x.cyc = s.seq + 1) ∧
  (∀ s : State, (s.paired = false ∨ s.pairState ≠ 3 ∨ s.holderSilent = false) → exec .takeover s = .next s) ∧
  (∀ s : State, s.paired = true →
    (s.role = 1 → s.partnerFit = true → Does .handover s fun t => t.pairState = 3 ∧
      t.rd R.XL_EPOCH = s.rd R.XL_EPOCH + 1 ∧ t.fld R.XL_STATE F.XL_STATE_HOLDER_ID = (1 - s.unit) % 2 ∧
      t.fld R.XL_CMD_STAT F.XL_CMD_STAT_CAUSE = 0 ∧ Out.lease ((s.rd R.XL_EPOCH).toNat + 1) s.seq ∈ t.out) ∧
    (s.role = 1 → s.partnerFit = false → Does .handover s fun t => t.fld R.XL_CMD_STAT F.XL_CMD_STAT_CAUSE = 4 ∧
      SameMemory s t ∧ SameRegsBut [R.XL_CMD_STAT] s t) ∧
    (s.pairState = 3 → 64 ≤ s.xl.matched → Does .handover s fun t =>
      t.pairState = 2 ∧ t.rd R.XL_EPOCH = s.rd R.XL_EPOCH + 1) ∧
    (s.pairState = 3 → s.xl.matched < 64 → Does .handover s fun t => t.pairState = 3 ∧
      t.fld R.XL_CMD_STAT F.XL_CMD_STAT_CAUSE = 4 ∧ SameMemory s t ∧ SameRegsBut [R.XL_CMD_STAT] s t) ∧
    (s.pairState = 3 → Does .take s fun t => t.pairState = 2 ∧ t.rd R.XL_EPOCH = s.rd R.XL_EPOCH + 1 ∧
      t.fld R.XL_CMD_STAT F.XL_CMD_STAT_CAUSE = 0)) ∧
  (∀ s : State, (s.paired = false ∨ (s.role ≠ 1 ∧ s.pairState ≠ 3)) → Does .handover s fun t =>
    t.fld R.XL_CMD_STAT F.XL_CMD_STAT_CAUSE = 1 ∧ SameMemory s t ∧ SameRegsBut [R.XL_CMD_STAT] s t) ∧
  (∀ s : State, (s.paired = false ∨ s.pairState ≠ 3) → Does .take s fun t =>
    t.fld R.XL_CMD_STAT F.XL_CMD_STAT_CAUSE = 1 ∧ SameMemory s t ∧ SameRegsBut [R.XL_CMD_STAT] s t) ∧
  ∀ (c : Instr) (ok : Prop) (w : Nat) (s : State),
    ((c = .resync ∧ w = 1 ∧ (ok ↔ s.paired = true ∧ (s.pairState = 3 ∨
        (s.pairState = 4 ∧ s.fld R.XL_STAT F.XL_STAT_RS_CAUSE ≠ 4)))) ∨
      (c = .mute ∧ w = 2 ∧ (ok ↔ s.paired = true ∧ (s.pairState = 3 ∨ s.pairState = 5 ∨ s.pairState = 6)))) →
    (ok → Does c s fun t => t.xl = { s.xl with want := w } ∧ t.bit R.XL_CMD_STAT F.XL_CMD_STAT_BUSY = true ∧
      t.fld R.XL_CMD_STAT F.XL_CMD_STAT_CAUSE = 0 ∧ SameMemory s t ∧ SameRegsBut [R.XL_CMD, R.XL_CMD_STAT] s t) ∧
    (¬ ok → Does c s fun t => t.xl = s.xl ∧ t.fld R.XL_CMD_STAT F.XL_CMD_STAT_CAUSE = 1 ∧ SameMemory s t ∧
      SameRegsBut [R.XL_CMD_STAT] s t)


/-- Digests are compared per cycle, the log travels between the units, and a resync moves through its phases. A
digest of the partner that equals this unit's of the cycle counts a matching cycle; a different one makes a
STANDBY count it, show DIVERGED and mute (and resync with AUTO_RESYNC), fails the resync of a SHADOW with cause
3 and counts it, and in other computing states counts it; where this unit has no digest of the cycle, no
register changes. On a link not used nothing is taken. DIG_WAIT_EXPIRY counts the cycle once, begins the run of
matching cycles anew and sends the held frames. A holder logs what its standby has sent, marked as such and with
the time of its arrival, any other unit of the pair keeps the holder's entry, the words of its copy, or the
count of its CLOSE; CLOSE_ENTRY_SEND sends the number of entries. BULK_DONE, CATCH_UP_DONE, SHADOW_DONE (after
64 matching cycles and 100 ms) and RESYNC_RETRY take a resync to its next phase, and otherwise change nothing. -/
def Obligations.DigestsLogAndResync : Prop :=
  (∀ (c d own : Word) (s : State), s.paired = true → s.computes = true → s.xl.unused = false →
    digestFor s.xl.digs c = some own →
    (own = d → Does (.digestReceive c d) s fun t => t.xl.matched = s.xl.matched + 1 ∧ t.pairState = s.pairState ∧
      t.rd R.XL_STAT = s.rd R.XL_STAT ∧ (s.pairState = 6 → t.xl.shadow = s.xl.shadow + 1) ∧
      (s.pairState = 3 → c = s.seq → t.xl.held = false)) ∧
    (own ≠ d → s.pairState = 3 → Does (.digestReceive c d) s fun t =>
      t.bit R.XL_STAT F.XL_STAT_DIVERGED = true ∧ t.rd R.XL_DIG_MIS_CNT = s.rd R.XL_DIG_MIS_CNT + 1 ∧
      t.pairState = (if s.bit R.XL_CFG F.XL_CFG_AUTO_RESYNC then 5 else 4)) ∧
    (own ≠ d → s.pairState = 6 → Does (.digestReceive c d) s fun t => t.pairState = 4 ∧
      t.bit R.XL_STAT F.XL_STAT_RESYNC_FAIL = true ∧ t.fld R.XL_STAT F.XL_STAT_RS_CAUSE = 3 ∧
      t.rd R.XL_DIG_MIS_CNT = s.rd R.XL_DIG_MIS_CNT + 1) ∧
    (own ≠ d → s.pairState ≠ 3 → s.pairState ≠ 6 → Does (.digestReceive c d) s fun t => t.xl.matched = 0 ∧
      t.rd R.XL_DIG_MIS_CNT = s.rd R.XL_DIG_MIS_CNT + 1 ∧ SameMemory s t ∧ SameRegsBut [R.XL_DIG_MIS_CNT] s t)) ∧
  (∀ (c d : Word) (s : State),
    (s.paired = true → s.computes = true → s.xl.unused = false → digestFor s.xl.digs c = none → Does (.digestReceive c d) s fun t =>
      digestFor t.xl.peers c = some d ∧ t.io = s.io ∧ SameMemory s t) ∧
    ((s.paired = false ∨ s.computes = false ∨ s.xl.unused = true) → exec (.digestReceive c d) s = .next s)) ∧
  (∀ s : State, s.xl.held = true → Does .digWaitExpiry s fun t => t.xl.held = false ∧ t.xl.matched = 0 ∧
    t.rd R.XL_DIG_MISS_CNT = s.rd R.XL_DIG_MISS_CNT + (if s.cyc.missed then 0 else 1) ∧ t.cyc.missed = true ∧
    t.xl.shadow = 0) ∧
  (∀ s : State, s.xl.held = false → exec .digWaitExpiry s = .next s) ∧
  (∀ (e : LogEntry) (s : State), s.xl.unused = true → exec (.logEntryReceive e) s = .next s) ∧
  (∀ (e : LogEntry) (s : State), s.xl.unused = false →
    (s.paired = true → s.role = 1 → e.fromStandby = true → Does (.logEntryReceive e) s fun t =>
      t.log = s.log ++ [⟨s.assignCyc, s.lseq, true, s.tag 0, e.kind⟩] ∧ t.io = s.io ∧ SameMemory s t) ∧
    (s.paired = true → s.role ≠ 1 → (∀ n last, e.kind ≠ .close n last) → (∀ st ws, e.kind ≠ .copied st ws) →
      Does (.logEntryReceive e) s fun t =>
      t.log = s.log ++ [e] ∧ t.io = s.io ∧ SameMemory s t) ∧
    (∀ n last, s.paired = true → s.role ≠ 1 → e.kind = .close n last → Does (.logEntryReceive e) s fun t =>
      t.xl.closes = s.xl.closes ++ [(e.cyc, n, last)] ∧ t.log = s.log ∧ t.io = s.io ∧ SameMemory s t) ∧
    (∀ st ws, s.paired = true → s.role ≠ 1 → e.kind = .copied st ws → Does (.logEntryReceive e) s fun t =>
      t.xl.bulk = s.xl.bulk ++ [(e.lseq, st, ws)] ∧ t.log = s.log ∧ t.io = s.io ∧ SameMemory s t) ∧
    ((s.paired = false ∨ (s.role = 1 ∧ e.fromStandby = false)) → exec (.logEntryReceive e) s = .next s)) ∧
  (∀ (c : Word) (s : State),
    (s.role = 1 → s.xl.unused = false → ∃ last, exec (.closeEntrySend c) s = .next (({ s with lseq := s.lseq + 1 } : State).emit (.logEntry
      ⟨c, s.lseq, false, s.tag 0, .close (s.log.filter (fun e : LogEntry => e.cyc = c)).length last⟩))) ∧
    (s.role ≠ 1 → exec (.closeEntrySend c) s = .next s)) ∧
  (∀ (j : Nat) (b : Bulk) (s : State), s.pairState = 5 → s.xl.unused = false →
    (s.xl.phase = 1 → j ≤ 134217728 → Does (.bulkDone j b) s fun t => t.xl.phase = 2 ∧ Out.resync 2 ∈ t.out ∧
      t.lawMem = Smap.setAll (fun _ => (0 : Word)) s.lawMem b.law) ∧
    (s.xl.phase = 1 → 134217728 < j → Does (.bulkDone j b) s fun t => t.pairState = 4 ∧
      t.fld R.XL_STAT F.XL_STAT_RS_CAUSE = 2) ∧
    (s.xl.phase = 2 → Does (.catchUpDone b) s fun t => t.pairState = 6 ∧ t.xl.phase = 3 ∧ t.xl.shadow = 0 ∧
      t.fld R.BT_STAT F.BT_STAT_PHASE = 7)) ∧
  (∀ (j : Nat) (b : Bulk) (s : State), (s.pairState ≠ 5 ∨ s.xl.unused = true) → exec (.bulkDone j b) s = .next s ∧
    exec (.catchUpDone b) s = .next s) ∧
  (∀ (ms : Nat) (s : State), s.pairState = 6 → 64 ≤ s.xl.shadow → s.xl.shadowT + 100000000 ≤ s.t0 →
    ms < 65536 → Does (.shadowDone ms) s fun t =>
    t.pairState = 3 ∧ t.fld R.XL_RESYNC_MS F.XL_RESYNC_MS_MS = ms ∧ t.xl.matched = s.xl.shadow) ∧
  (∀ (ms : Nat) (s : State), (s.pairState ≠ 6 ∨ s.xl.shadow < 64 ∨ s.t0 < s.xl.shadowT + 100000000) → exec (.shadowDone ms) s = .next s) ∧
  ∀ (ok : Prop) (s : State), (ok ↔ s.paired = true ∧ s.pairState = 4 ∧ s.fld R.XL_STAT F.XL_STAT_RS_CAUSE ≠ 0 ∧
      s.fld R.XL_STAT F.XL_STAT_RS_CAUSE ≠ 4) →
    (ok → Does .resyncRetry s fun t => t.pairState = 5 ∧ t.xl.phase = 1 ∧
      (s.xl.unused = false → Out.resync 1 ∈ t.out)) ∧
    (¬ ok → exec .resyncRetry s = .next s)


/-- A finished copy becomes the active checkpoint, a warm restart is decided where it may be, and a restore goes on
at its cycle. CHECKPOINT_DONE makes the copy the buffer that was inactive, which becomes the active one with its
length and CRC-32C in its header, and shows its epoch; without a copy it changes nothing. WARM and WARM_NOCKPT
in PROGRAM, REMOTE or a FATAL stop stop the cycles and decide a warm restart; else they show cause 1; while a
restart is decided or the unit is not up they change nothing. A decided WARM_RESTART ends in a phase of start-up
or in HALT, a barred device in HALT, and a restore has its buffer. RESTORE_DONE waits for the end of SEEK; then
it goes on in phase 5 with cycle epoch + 2^24 × RESTORES, or, with a partner that is HOLDER or STANDBY, drops
the checkpoint with NOCKPT PARTNER. POWER_LOSS keeps RTC, records, buffers and forces and loses DRAM and law
memory; VBAT_LOSS loses the buffers and RTC_VALID. -/
def Obligations.CheckpointsAndRestarts : Prop :=
  (∀ s : State, s.boot.copying = none → exec .checkpointDone s = .next s) ∧
  (∀ (c : Ckpt) (s : State), s.boot.copying = some c → Does .checkpointDone s fun t => t.boot.copying = none ∧
    t.bit R.KA_CKPT_STAT F.KA_CKPT_STAT_ACTIVE = (!s.bit R.KA_CKPT_STAT F.KA_CKPT_STAT_ACTIVE) ∧
    (if s.bit R.KA_CKPT_STAT F.KA_CKPT_STAT_ACTIVE then t.boot.bufA else t.boot.bufB) = some c.seal ∧
    t.rd R.KA_CKPT_EPOCH = c.epoch ∧ SameMemory s t ∧ SameRegsBut [R.KA_CKPT_STAT, R.KA_CKPT_EPOCH] s t) ∧
  (∀ (c : Instr) (n : Bool) (s : State), ((c = .warm ∧ n = false) ∨ (c = .warmNockpt ∧ n = true)) →
    ((s.boot.up = false ∨ s.bit R.KA_CMD_STAT F.KA_CMD_STAT_BUSY = true) → exec c s = .next s) ∧
    (s.boot.up = true → s.bit R.KA_CMD_STAT F.KA_CMD_STAT_BUSY = false →
      (s.mode = 1 ∨ s.mode = 2 ∨ (s.stopped = true ∧ (s.fld R.TK_CTL F.TK_CTL_CAUSE).testBit 2 = true)) →
      Does c s fun t => t.boot = { s.boot with restart := some (2, n), up := false } ∧ Out.reset 1 ∈ t.out ∧
        t.bit R.KA_CMD_STAT F.KA_CMD_STAT_BUSY = true ∧ SameMemory s t ∧ SameRegsBut [R.KA_CMD, R.KA_CMD_STAT] s t) ∧
    (s.boot.up = true → s.bit R.KA_CMD_STAT F.KA_CMD_STAT_BUSY = false →
      ¬ (s.mode = 1 ∨ s.mode = 2 ∨ (s.stopped = true ∧ (s.fld R.TK_CTL F.TK_CTL_CAUSE).testBit 2 = true)) →
      Does c s fun t => t.fld R.KA_CMD_STAT F.KA_CMD_STAT_CAUSE = 1 ∧ t.boot = s.boot ∧ SameMemory s t ∧
        SameRegsBut [R.KA_CMD_STAT] s t)) ∧
  (∀ (img : Image) (s : State), s.boot.restart = none → exec (.warmRestart img) s = .next s) ∧
  (∀ (img : Image) (r : Nat × Bool) (s : State), s.boot.restart = some r → Does (.warmRestart img) s fun t =>
    t.pending = s.pending ∧ t.phase ∈ [2, 4, 6, 15] ∧
    (s.mg.barred = true → t.phase = 15 ∧ t.dram = s.dram ∧ t.lawMem = []) ∧
    (t.phase = 6 → ∃ b, t.boot.use = some b ∧
      (ckptOk (if b then s.boot.bufB else s.boot.bufA)).isSome = true)) ∧
  (∀ s : State, (s.phase ≠ 6 ∨ s.boot.use = none ∨ (s.pairEn = true ∧ s.pairState = 1)) →
    exec .restoreDone s = .next s) ∧
  (∀ (b : Bool) (c : Ckpt) (s : State), s.phase = 6 → s.boot.use = some b →
    ckptOk (if b then s.boot.bufB else s.boot.bufA) = some c →
    (s.pairEn = false ∨ (s.pairState ≠ 1 ∧ s.partnerThere = false)) → Does .restoreDone s fun t => t.phase = 5 ∧
      t.boot.use = none ∧ t.boot.loops = true ∧ t.boot.quiet = true ∧
      t.boot.first = 2 ^ 32 * c.wraps + c.epoch.toNat + 2 ^ 24 * (c.restores + 1)) ∧
  (∀ (b : Bool) (s : State), s.phase = 6 → s.boot.use = some b → s.pairEn = true → s.pairState ≠ 1 →
    s.partnerThere = true → Does .restoreDone s fun t => t.phase = 4 ∧ t.boot.use = none ∧ t.outMaster = s.outMaster ∧
      t.fld R.KA_RESTART F.KA_RESTART_NOCKPT = 5 ∧ SameMemory s t ∧ SameRegsBut [R.KA_RESTART, R.BT_STAT] s t) ∧
  (∀ s : State, s.Canonical → Does .powerLoss s fun t => t.hostDown = true ∧ t.tm.rtc = s.tm.rtc ∧
    t.evStage = s.evStage ∧ t.evNvm = s.evNvm ∧ t.boot.bufA = s.boot.bufA ∧ t.boot.bufB = s.boot.bufB ∧
    t.dram = [] ∧ t.lawMem = [] ∧ t.pending = s.pending ∧ ∀ i : Fin 4096, t.rd (R.FORCE i) = s.rd (R.FORCE i)) ∧
  ∀ s : State, Does .vbatLoss s fun t => t.boot.bufA = none ∧ t.boot.bufB = none ∧
    t.bit R.TM_RTC_STAT F.TM_RTC_STAT_RTC_VALID = false ∧ t.bit R.KA_CKPT_STAT F.KA_CKPT_STAT_VALID_A = false ∧
    t.bit R.KA_CKPT_STAT F.KA_CKPT_STAT_VALID_B = false ∧ SameMemory s t ∧
    SameRegsBut [R.TM_RTC_STAT, R.KA_CKPT_STAT] s t


/-- Start-up chooses a bank whose header passes, checks its sections, waits for the rings and halts with its cause.
COLD_RESET clears DRAM and law memory, shows the straps, and either awaits the sections of a bank whose header
passes or halts; an unknown density halts with cause 11. DRAM_TRAINED in phase 2 notes the training or halts
with cause 10. SECTIONS_CHECKED in phase 2 with trained DRAM: if every section passes and the image keeps the
image rules, the units are up in phase 4; a failing section, or an image that breaks a rule (cause 9), halts
with its cause where the straps name the bank. RING_WAIT_EXPIRY in phase 4 outside a standby goes on to phase 5.
DRAM_INIT_DONE enables the image's streams. POWER_UP counts the power cycle, advances the RTC by the outage, and
is a cold start for an image without CKPT_RETAIN. Elsewhere each changes nothing. -/
def Obligations.StartUpRunsItsSteps : Prop :=
  (∀ (sel : BitVec 2) (u : Bool) (n : Nat) (d0 d1 : DirCopy) (ha hb : Header) (s : State),
    Does (.coldReset sel u n d0 d1 ha hb) s fun t => t.pending = s.pending ∧ t.dram = [] ∧ t.lawMem = [] ∧
      t.bootsel = sel.toNat ∧ t.unit = (if u then 1 else 0) ∧ t.phase ∈ [2, 15] ∧
      (t.phase = 2 → t.headerCause t.bootBank = 0) ∧
      (n ≠ 64 → n ≠ 128 → n ≠ 256 → t.phase = 15 ∧ t.fld R.BT_STAT F.BT_STAT_CAUSE = 11)) ∧
  (∀ (ok : Bool) (s : State),
    (s.phase ≠ 2 → exec (.dramTrained ok) s = .next s) ∧
    (s.phase = 2 → ok = true → Does (.dramTrained ok) s fun t => t.boot = { s.boot with trained := true } ∧
      t.io = s.io ∧ SameMemory s t) ∧
    (s.phase = 2 → ok = false → Does (.dramTrained ok) s fun t => t.phase = 15 ∧ t.boot.up = false ∧
      t.fld R.BT_STAT F.BT_STAT_CAUSE = 10 ∧ SameMemory s t)) ∧
  (∀ (secs : List SecCheck) (img : Image) (active : BitVec 4) (ms : Nat) (s : State),
    ((s.phase ≠ 2 ∨ s.boot.trained = false) → exec (.sectionsChecked secs img active ms) s = .next s) ∧
    (s.phase = 2 → s.boot.trained = true → secFail 0 secs = none → ((s.secRetries secs).imagePut img).imageOk img = true →
      Does (.sectionsChecked secs img active ms) s fun t => t.phase = 4 ∧ t.boot.up = true ∧ t.img = imgDecl img) ∧
    (∀ i c, s.phase = 2 → s.boot.trained = true → secFail 0 secs = some (i, c) → s.bootsel ≠ 0 →
      Does (.sectionsChecked secs img active ms) s fun t => t.phase = 15 ∧ t.boot.up = false ∧
        t.fld R.BT_STAT F.BT_STAT_CAUSE = c ∧ SameMemory s t) ∧
    (s.phase = 2 → s.boot.trained = true → secFail 0 secs = none →
      ((s.secRetries secs).imagePut img).imageOk img = false → s.bootsel ≠ 0 →
      Does (.sectionsChecked secs img active ms) s fun t => t.phase = 15 ∧ t.boot.up = false ∧
        t.fld R.BT_STAT F.BT_STAT_CAUSE = 9)) ∧
  (∀ s : State, s.phase = 4 → s.role ≠ 2 → Does .ringWaitExpiry s fun t => t.phase = 5 ∧ SameMemory s t ∧
    SameRegsButEvents [R.BT_STAT] s t) ∧
  (∀ s : State, (s.phase ≠ 4 ∨ s.role = 2) → exec .ringWaitExpiry s = .next s) ∧
  (∀ s : State, s.boot.dram = true → exec .dramInitDone s = .next s) ∧
  (∀ s : State, s.boot.dram = false → Does .dramInitDone s fun t => t.boot.dram = true ∧ SameMemory s t ∧
    (s.boot.up = true → ∀ n : Fin 8, t.streamOn n = s.boot.streams.testBit n)) ∧
  ∀ (ms n : Nat) (sel : BitVec 2) (u : Bool) (d0 d1 : DirCopy) (ha hb : Header) (img : Image) (s : State),
    Does (.powerUp ms sel u n d0 d1 ha hb img) s fun t => t.pending = s.pending ∧ t.pcyc = s.pcyc + 1 ∧
      t.tm.rtc = (s.tm.rtc + ms * 1000000 * 32768) % (2 ^ 48 * 32768 * 1000000000) ∧ t.phase ∈ [2, 4, 6, 15] ∧
      (F.KA_CFG_CKPT_RETAIN.get (Smap.get (fun _ => (0 : Word)) img.io R.KA_CFG) = 0 →
        t.phase ∈ [2, 15] ∧ t.dram = [] ∧ t.lawMem = [])


/-- A host write sets RW bits, clears W1C bits, becomes a log entry, or is refused with its status, as its register
says. With the link up: a 4-byte BAR0 write to a global register below 0x8000 (but HI_WERR_STAT) that is not
refused sets its RW bits, clears the W1C bits written as 1 and changes nothing else. A write that its offset
refuses, or of a length that BAR0 does not take, is counted in HI_WERR_CNT; the first one since the status was
cleared leaves status and offset. A write of a host input word adds one HOST_WRITE entry for the assigned cycle
to the log of a running unit that is not the standby; a standby refuses it with status 6. A BAR2 byte of the
data pool that no VALID recipe protects is stored; a protected one is refused. A command that stands for a write
in the window of a region that an LZ-2048 lacks changes nothing but the refusal with status 4. With the link
down a write changes nothing. -/
def Obligations.HostWritesFollowTheirAccess : Prop :=
  (∀ (b2 : Bool) (a : Nat) (bs : List Byte) (off : Nat) (i : Fin 2048) (v : Word) (s : State), s.hostDown = true →
    exec (.registerWrite b2 a bs off) s = .next s ∧ exec (.hostInputWrite i v) s = .next s) ∧
  (∀ (a off : Nat) (v : Word) (r : RegRow) (s : State), s.hostDown = false → s.busWhy a = 0 → Reg.row a = some r →
    a < 0x8000 → a ≠ R.HI_WERR_STAT → Does (.registerWrite false a (Word.bytes v) off) s fun t =>
      t.rd a = ((s.rd a &&& ~~~ Word.ofN r.rw) ||| (v &&& Word.ofN r.rw)) &&& ~~~ (v &&& Word.ofN r.w1c) ∧
      SameMemory s t ∧ SameRegsBut [a] s t) ∧
  (∀ (a off w : Nat) (bs : List Byte) (s : State), s.hostDown = false →
    ((bs.length = 4 ∧ a % 4 = 0 ∧ w = s.busWhy a ∧ w ≠ 0) ∨ (bs.length ≠ 4 ∧ bs.length ≠ 8 ∧ w = 11)) →
    Does (.registerWrite false a bs off) s fun t => t.rd R.HI_WERR_CNT = s.rd R.HI_WERR_CNT + 1 ∧
      (s.fld R.HI_WERR_STAT F.HI_WERR_STAT_STATUS = 0 → t.fld R.HI_WERR_STAT F.HI_WERR_STAT_STATUS = w ∧
        t.rd R.HI_WERR_ADDR = Word.ofN a) ∧
      (s.fld R.HI_WERR_STAT F.HI_WERR_STAT_STATUS ≠ 0 → t.rd R.HI_WERR_ADDR = s.rd R.HI_WERR_ADDR ∧
        t.bit R.HI_WERR_STAT F.HI_WERR_STAT_OVER = true) ∧
      SameMemory s t ∧ SameRegsButEvents [R.HI_WERR_CNT, R.HI_WERR_STAT, R.HI_WERR_ADDR] s t) ∧
  (∀ (i : Fin 2048) (v : Word) (s : State), s.hostDown = false → s.boot.up = true →
    (s.role ≠ 2 → Does (.hostInputWrite i v) s fun t => t.io = s.io ∧ SameMemory s t ∧
      t.log = s.log ++ [⟨s.assignCyc, s.lseq, false, s.tag 0, .hostWrite (0x43C000 + 4 * i.val) v 0xFFFFFFFF⟩]) ∧
    (s.role = 2 → Does (.hostInputWrite i v) s fun t => t.log = s.log ∧
      t.rd R.HI_WERR_CNT = s.rd R.HI_WERR_CNT + 1 ∧
      (s.fld R.HI_WERR_STAT F.HI_WERR_STAT_STATUS = 0 → t.fld R.HI_WERR_STAT F.HI_WERR_STAT_STATUS = 6) ∧
      SameMemory s t ∧ SameRegsButEvents [R.HI_WERR_CNT, R.HI_WERR_STAT, R.HI_WERR_ADDR] s t)) ∧
  (∀ (k : SlotIx) (x : AxisIx) (p : PairIx) (g : ClusterIx) (q : RegionIx) (code : BitVec 3) (n : Fin 8) (v : Word)
      (w : Fin 4096) (j : Fin 32) (arg : BitVec 64) (m : BitVec 12) (off r a : Nat) (c : Instr) (s : State),
    (c, r, a) ∈ [(Instr.modeRequest k code, k.val / 256, R.LE_MODE k), (.tpWrite k n v, k.val / 256, R.LE_TP k n),
      (.clrFault k, k.val / 256, R.LE_CMD k), (.clrMax k, k.val / 256, R.LE_CMD k),
      (.reengage k, k.val / 256, R.LE_SUP_CMD k), (.lawAddrWrite g v, g.val / 8, R.LC_LAW_ADDR g),
      (.lawDataWrite g w v, g.val / 8, R.LC_LAW_DATA g), (.swatchStart g j, g.val / 8, R.LC_SW_CTRL g),
      (.swatchAbort g, g.val / 8, R.LC_SW_CTRL g), (.senClear g, g.val / 8, R.LC_SEN_CMD g),
      (.axisStop x, x.val / 8, R.AX_CMD x), (.axisResume x, x.val / 8, R.AX_CMD x),
      (.axisReplan x, x.val / 8, R.AX_CMD x), (.axisClrFault x, x.val / 8, R.AX_CMD x),
      (.setPos x arg, x.val / 8, R.AX_CMD x), (.pwmCommit p, p.val / 12, R.PW_COMMIT p),
      (.pwGcommit q m, q.val, R.PW_GCOMMIT q), (.ceArm q off, q.val, R.CE_CTRL q),
      (.ceDisarm q off, q.val, R.CE_CTRL q), (.ceForce q off, q.val, R.CE_CTRL q)] →
    s.lacks r = true → Does c s fun t => SameMemory s t ∧ t.rd R.HI_WERR_CNT = s.rd R.HI_WERR_CNT + 1 ∧
      (s.fld R.HI_WERR_STAT F.HI_WERR_STAT_STATUS = 0 → t.fld R.HI_WERR_STAT F.HI_WERR_STAT_STATUS = 4 ∧
        t.rd R.HI_WERR_ADDR = Word.ofN a) ∧
      SameRegsButEvents [R.HI_WERR_CNT, R.HI_WERR_STAT, R.HI_WERR_ADDR] s t) ∧
  ∀ (a off : Nat) (b : Byte) (s : State), s.hostDown = false → s.boot.up = true → 0x10000 ≤ a → a < 0x4000000 →
    (s.rcpProtects a = false → Does (.registerWrite true a [b] off) s fun t => t.dbyte a = b ∧ t.io = s.io ∧
      t.lawMem = s.lawMem ∧ ∀ x, x ≠ a → t.dbyte x = s.dbyte x) ∧
    (s.rcpProtects a = true → Does (.registerWrite true a [b] off) s fun t => SameMemory s t ∧
      t.rd R.HI_WERR_CNT = s.rd R.HI_WERR_CNT + 1)


/-- Rings take posted slots and commands in order, are reset and signal, and the loss of the link leaves control
untouched. A re-read of an enabled ring in a running unit with the link posts on rings 8 to 31 and the CAN
receive rings the slots up to the first that software owns (where no command or frame waits for one); on a
command ring of a unit that is not the standby one command with a free completion slot becomes a HOST_CMD entry
of the log, HEAD advances and the ring counts it, and without a free slot STALL is set and it waits; on a CAN
transmit ring one descriptor becomes a log entry. RING_DOORBELL writes TAIL and re-reads. RING_RESET of a
disabled ring clears HEAD and the counters. RING_IRQ_TIMER signals what waits. HOST_LINK_LOSS empties every
ring, ends the HOST session and keeps mode, log and memory; HOST_LINK_RETURN counts it. Elsewhere each changes
nothing. -/
def Obligations.RingsAndTheHostLink : Prop :=
  (∀ (k : HRingIx) (ds : List Desc) (s : State), (s.hostDown = true ∨ s.boot.up = false ∨
    s.bit (R.HI_RING_CTRL k) F.HI_RING_CTRL_EN = false ∨ (ringHeld k = true ∧ s.role = 2)) →
    exec (.ringReread k ds) s = .next s) ∧
  (∀ (k : HRingIx) (tail : Word) (ds : List Desc) (s : State), s.hostDown = false → s.boot.up = true →
    exec (.ringDoorbell k tail ds) s = exec (.ringReread k ds) (s.regWrite (R.HI_RING_TAIL k) tail 0xFFFFFFFF)) ∧
  (∀ (c : Instr) (k : HRingIx) (tail : Word) (ds : List Desc) (s : State),
    c ∈ [Instr.ringReread k ds, .ringDoorbell k tail ds] → s.hostDown = false → s.boot.up = true →
    s.bit (R.HI_RING_CTRL k) F.HI_RING_CTRL_EN = true →
    ((16 ≤ k.val ∧ k.val < 32) ∨ (8 ≤ k.val ∧ k.val < 16 ∧ (s.hringX (k.val - 8)).wait = [] ∧ s.role ≠ 2)) → Does c s fun t =>
      (t.hringX k).posted = ds.takeWhile (fun d => d.own) ∧ t.log = s.log ∧ SameMemory s t ∧
      (c = .ringDoorbell k tail ds → t.fld (R.HI_RING_TAIL k) F.HI_RING_TAIL_INDEX = tail.toNat % 65536) ∧
      SameRegsBut [R.HI_RING_TAIL k] s t) ∧
  (∀ (k : HRingIx) (d : Desc) (s : State), s.hostDown = false → s.boot.up = true → s.role ≠ 2 → k.val < 8 →
    s.bit (R.HI_RING_CTRL k) F.HI_RING_CTRL_EN = true → d.own = true → d.chain = false →
    (d.opc ≠ 1 → d.opc ≠ 2 → s.ringServed (8 + k.val) = true → (s.hringX (8 + k.val)).resv < (s.hringX (8 + k.val)).posted.length →
      Does (.ringReread k [d]) s fun t => t.log = s.log ++ [⟨s.assignCyc, s.lseq, false, s.tag 0, .hostCmd
          [⟨k, s.fld (R.HI_RING_HEAD k) F.HI_RING_HEAD_INDEX % 2 ^ s.fld (R.HI_RING_CFG k) F.HI_RING_CFG_LOG2, d,
            s.bit R.TK_OLC_STAT F.TK_OLC_STAT_BUSY⟩]⟩] ∧
        t.rd (R.HI_RING_CNT k) = s.rd (R.HI_RING_CNT k) + 1 ∧
        (t.hringX (8 + k.val)).resv = (s.hringX (8 + k.val)).resv + 1 ∧ SameMemory s t ∧
        SameRegsBut [R.HI_RING_HEAD k, R.HI_RING_CNT k, R.HI_RING_STAT k] s t) ∧
    (s.ringServed (8 + k.val) = true → (s.hringX (8 + k.val)).resv < (s.hringX (8 + k.val)).posted.length →
      Does (.ringReread k [d]) s fun t => t.log.length = s.log.length + 1 ∧
        t.rd (R.HI_RING_CNT k) = s.rd (R.HI_RING_CNT k) + 1 ∧
        (t.hringX (8 + k.val)).resv = (s.hringX (8 + k.val)).resv + 1 ∧ SameMemory s t) ∧
    ((s.hringX (8 + k.val)).posted.length ≤ (s.hringX (8 + k.val)).resv → Does (.ringReread k [d]) s fun t =>
      t.bit (R.HI_RING_STAT k) F.HI_RING_STAT_STALL = true ∧ (t.hringX k).wait = [d] ∧ t.log = s.log ∧
      SameMemory s t ∧ SameRegsBut [R.HI_RING_STAT k] s t)) ∧
  (∀ (k : HRingIx) (p : CanIx) (ds : List Desc) (s : State), s.hostDown = false → s.boot.up = true → s.role ≠ 2 →
    k.val = 33 + 2 * p.val → s.bit (R.HI_RING_CTRL k) F.HI_RING_CTRL_EN = true → (s.canX p).rxQ = [] →
    Does (.ringReread k ds) s fun t => (t.hringX k).posted = ds.takeWhile (fun d => d.own) ∧ t.log = s.log ∧
      SameMemory s t) ∧
  (∀ (k : HRingIx) (p : CanIx) (d : Desc) (s : State), s.hostDown = false → s.boot.up = true → s.role ≠ 2 →
    k.val = 32 + 2 * p.val → s.bit (R.HI_RING_CTRL k) F.HI_RING_CTRL_EN = true → d.own = true →
    Does (.ringReread k [d]) s fun t => SameMemory s t ∧ t.log = s.log ++ [⟨s.assignCyc, s.lseq, false, s.tag 0,
      .canTx p (s.fld (R.HI_RING_HEAD k) F.HI_RING_HEAD_INDEX) d⟩]) ∧
  (∀ (k : HRingIx) (s : State),
    (s.bit (R.HI_RING_CTRL k) F.HI_RING_CTRL_EN = true → exec (.ringReset k) s = .next s) ∧
    (s.bit (R.HI_RING_CTRL k) F.HI_RING_CTRL_EN = false → Does (.ringReset k) s fun t => t.rd (R.HI_RING_HEAD k) = 0 ∧
      t.rd (R.HI_RING_CNT k) = 0 ∧ t.rd (R.HI_RING_LOST k) = 0 ∧ (t.hringX k).posted = [] ∧ SameMemory s t ∧
      SameRegsBut [R.HI_RING_HEAD k, R.HI_RING_CNT k, R.HI_RING_LOST k] s t)) ∧
  (∀ (k : HRingIx) (v : Nat) (s : State), v = s.fld (R.HI_RING_CFG k) F.HI_RING_CFG_VEC →
    (((s.hringX k).irqs = 0 ∨ s.fld (R.HI_RING_IRQ k) F.HI_RING_IRQ_TIME_US = 0) →
      exec (.ringIrqTimer k) s = .next s) ∧
    ((s.hringX k).irqs ≠ 0 → s.fld (R.HI_RING_IRQ k) F.HI_RING_IRQ_TIME_US ≠ 0 → Does (.ringIrqTimer k) s fun t =>
      (t.hringX k).irqs = 0 ∧ SameMemory s t ∧
      (s.hostDown = false → s.bit (0x8000 + 16 * v + 12) ⟨0, 1⟩ = false → Out.msix v ∈ t.out) ∧
      (s.hostDown = false → s.bit (0x8000 + 16 * v + 12) ⟨0, 1⟩ = true →
        t.bit (0x9000 + 4 * (v / 32)) ⟨v % 32, 1⟩ = true))) ∧
  (∀ s : State, s.hostDown = true → exec .hostLinkLoss s = .next s) ∧
  (∀ s : State, s.hostDown = false → Does .hostLinkLoss s fun t => t.hostDown = true ∧
    (∀ k : HRingIx, (t.hringX k).posted = []) ∧ t.mgOpen 0 = false ∧ t.mode = s.mode ∧ t.stopped = s.stopped ∧
    t.log = s.log ∧ SameMemory s t) ∧
  (∀ s : State, s.hostDown = false → exec .hostLinkReturn s = .next s) ∧
  ∀ s : State, s.hostDown = true → Does .hostLinkReturn s fun t => t.hostDown = false ∧
    t.fld R.HI_LINK F.HI_LINK_DOWN_CNT = (s.fld R.HI_LINK F.HI_LINK_DOWN_CNT + 1) % 65536 ∧
    t.bit R.HI_IRQ0_STAT F.HI_IRQ0_STAT_LINK = true ∧ t.mode = s.mode ∧ t.log = s.log ∧ SameMemory s t


/-- Writes, blocks, reads, items and markers take their effect on the words they name and complete with their
status. For a running unit and host input words. WRITE in PROGRAM or REMOTE sets the masked bits of the word; in
STOP and RUN it sets none and completes with ERR. WRITE_BLOCK writes its words in order. READ_BLOCK in a unit
that acts sends the words to host memory while the link is up. A command with a misaligned address sets DESC_ERR
and completes with ERR. MARKER only completes. ITEM for an unused flow, or with more than 64 bytes, completes
with ERR; for a flow with an enabled task that is within HOLD_MAX, it joins the flow's queue in SERVICE if the
hub queue has room, and is else dispatched. A completion takes the next posted slot of the served completion
ring. Nothing changes but the named words and what completing writes. -/
def Obligations.HostCommandsTakeEffectAndComplete : Prop :=
  (∀ (i : Fin 2048) (a : Nat) (v m : Word) (err : Bool) (s : State), a = 0x43C000 + 4 * i.val → s.boot.up = true →
    (err = true ↔ s.mode ≠ 1 ∧ s.mode ≠ 2) → Does (.write a v m) s fun t =>
      t.rd a = (if err then s.rd a else (s.rd a &&& ~~~ m) ||| (v &&& m)) ∧ t.log = s.log ∧ SameMemory s t ∧
      SameRegsButEvents [a] s t ∧ (s.ringServed 8 = true → ∀ d rest, (s.hringX 8).posted = d :: rest →
        (t.hringX 8).posted = rest ∧ ∃ slot ws, Out.ring 8 slot 1 0 err ws ∈ t.out)) ∧
  (∀ (i : Fin 2048) (a : Nat) (vs : List Word) (s : State), a = 0x43C000 + 4 * i.val → i.val + vs.length ≤ 2048 →
    1 ≤ vs.length → vs.length ≤ 256 → s.boot.up = true → (s.mode = 1 ∨ s.mode = 2) → Does (.writeBlock a vs) s fun t =>
      (∀ j < vs.length, t.rd (a + 4 * j) = vs.getD j 0) ∧ t.log = s.log ∧ SameMemory s t ∧
      SameRegsButEvents ((List.range vs.length).map (fun j => a + 4 * j)) s t) ∧
  (∀ (i : Fin 2048) (a n : Nat) (s : State), a = 0x43C000 + 4 * i.val → i.val + n ≤ 2048 → 1 ≤ n → n ≤ 1024 →
    s.boot.up = true → s.acts = true → Does (.readBlock a n) s fun t =>
      (s.hostDown = false → Out.hostMem 0 (Word.bytesAll (s.rdAll a n)) ∈ t.out) ∧
      (s.hostDown = true → s.ringServed 8 = false → t.out = s.out) ∧ SameMemory s t ∧ SameRegsButEvents [] s t) ∧
  (∀ (a : Nat) (v m : Word) (vs : List Word) (n : Nat) (c : Instr) (s : State),
    c ∈ [Instr.write a v m, .writeBlock a vs, .readBlock a n] → a < 2 ^ 32 → a % 4 ≠ 0 → Does c s fun t =>
      t.bit (R.HI_RING_STAT 0) F.HI_RING_STAT_DESC_ERR = true ∧ SameMemory s t ∧
      SameRegsButEvents [R.HI_RING_STAT 0] s t ∧ (s.ringServed 8 = true → (s.hringX 8).posted ≠ [] →
        ∃ slot ws, Out.ring 8 slot 1 0 true ws ∈ t.out)) ∧
  (∀ s : State, Does .marker s fun t => SameMemory s t ∧ t.log = s.log ∧ SameRegsButEvents [] s t ∧
    (s.ringServed 8 = true → ∀ d rest, (s.hringX 8).posted = d :: rest → (t.hringX 8).posted = rest ∧
      ∃ slot ws, Out.ring 8 slot 1 0 false ws ∈ t.out)) ∧
  (∀ (f : FlowIx) (src : Nat) (tag : Word) (data : List Byte) (s : State),
    (s.bit (R.FL_CFG f) F.FL_CFG_USED = false ∨ 64 < data.length) → Does (.item f src tag data) s fun t =>
      t.flows = s.flows ∧ SameMemory s t ∧ SameRegsButEvents [R.HI_RING_STAT (src % 8)] s t ∧
      (s.ringServed (8 + src % 8) = true → (s.hringX (8 + src % 8)).posted ≠ [] →
        ∃ slot ws, Out.ring (8 + src % 8) slot 1 0 true ws ∈ t.out)) ∧
  ∀ (f : FlowIx) (src n : Nat) (tag : Word) (data : List Byte) (s : State), s.bit (R.FL_CFG f) F.FL_CFG_USED = true →
    data.length ≤ 64 → s.flowTask f = some n → s.taskState (s.flowRegion f) n ≠ 0 → s.stopped = false →
    (∀ l, s.cyc.items = some l → Does (.item f src tag data) s fun t =>
      t.cyc.items = some (l ++ [((f : Nat), (⟨2, src, tag, data⟩ : ItemX), tag)]) ∧ t.flows = s.flows ∧ SameMemory s t) ∧
    (s.cyc.items = none → s.flowState f = 1 → s.flowOver f = false → s.fld R.TK_HUB_STAT F.TK_HUB_STAT_QLEN < 4096 →
      Does (.item f src tag data) s fun t =>
        (t.flowX f).queue = (s.flowX f).queue ++ [⟨2, src, tag, data⟩] ∧ SameMemory s t) ∧
    (s.cyc.items = none → s.flowState f ≠ 1 → s.flowOver f = false → s.dieState (s.flowRegion f / 4) = 0 →
      Does (.item f src tag data) s fun t => t.flowState f = 1 ∧
        (t.flowX f).count = ((s.flowX f).count + 1) % 256 ∧ t.fld (R.FL_STAT f) F.FL_STAT_HOLDER = n % 256 ∧
        t.rd (R.LOCAL (s.flowRegion f) (s.fld (R.FL_CFG f) F.FL_CFG_MBOX + 1)) = tag)


/-- Every memory error is counted and has the outcome of its place, and the running checks hold a cluster or stop
the controller. Reports of a die that does not run change nothing. A corrected error is counted and changes no
other register but those of the recorder. An uncorrectable word is counted and its address held; in node store,
region state, hub control memory or backup SRAM it stops the controller with cause FATAL, in the tables of an
ACTIVE die it fences the die, in a checkpoint buffer it loses the buffer, in a slot's words it sets RES_FAULT. A
scrubber's pass is counted. A passing sentinel run is counted; a failing one that passes its rerun sets RETRY;
one that fails again sets FAIL and HELD. SEN_CLEAR ends HELD after 100 passes and else changes nothing. In a
running die with a loaded image, the area after the last is checked: one that fails and then passes its re-read
is counted; one that fails both, or whose contents do not have its CRC, stops the controller. -/
def Obligations.MemoryErrorsAndRunningChecks : Prop :=
  (∀ (m : Fin 7) (off : Nat) (loc : MemLoc) (w : Word) (a b : Bool) (s : State),
    (m.val < 4 → s.dieRuns m = false → exec (.correctableError m off) s = .next s ∧ exec (.scrubRead m a b) s = .next s) ∧
    ((memOf loc).1 < 4 → s.dieRuns (memOf loc).1 = false → exec (.uncorrectableError loc w) s = .next s)) ∧
  (∀ (m : Fin 7) (off : Nat) (s : State), (4 ≤ m.val ∨ s.dieRuns m = true) → Does (.correctableError m off) s fun t =>
    t.rd (if m.val = 6 then R.CV_DRAM_CE_CNT else R.CV_SRAM_CE_CNT) =
      s.rd (if m.val = 6 then R.CV_DRAM_CE_CNT else R.CV_SRAM_CE_CNT) + 1 ∧ SameMemory s t ∧
    SameRegsButEvents [if m.val = 6 then R.CV_DRAM_CE_CNT else R.CV_SRAM_CE_CNT] s t ∧
    (∀ n last, s.integ.mems.find? (fun e => e.1 = m.val) = some (m.val, n, some last) →
      s.opNs + off < last + 1000000000 → t.evStage = s.evStage)) ∧
  (∀ (loc : MemLoc) (w : Word) (s : State), (4 ≤ (memOf loc).1 ∨ s.dieRuns (memOf loc).1 = true) →
    Does (.uncorrectableError loc w) s fun t =>
    t.rd (if (memOf loc).1 = 6 then R.CV_DRAM_UE_CNT else R.CV_SRAM_UE_CNT) =
      s.rd (if (memOf loc).1 = 6 then R.CV_DRAM_UE_CNT else R.CV_SRAM_UE_CNT) + 1 ∧ t.rd R.CV_LAST_ADDR = w ∧
    t.fld R.CV_LAST_ERR F.CV_LAST_ERR_MEM = (memOf loc).1 ∧
    (memClass loc = 4 → (t.fld R.TK_CTL F.TK_CTL_CAUSE).testBit 2 = true) ∧
    (∀ d, loc = .dieTables d → s.dieState d = 0 → t.dieState d = 1) ∧
    (∀ b, loc = .ckpt b → (if b then t.boot.bufB else t.boot.bufA) = none) ∧
    (∀ k, loc = .slot k → t.bit (R.LE_STAT k) F.LE_STAT_RES_FAULT = true)) ∧
  (∀ (m : Fin 7) (s : State), (4 ≤ m.val ∨ s.dieRuns m = true) → exec (.scrubRead m false false) s = .next s ∧
    Does (.scrubRead m false true) s fun t => SameMemory s t ∧ SameRegsBut [R.CV_SCRUB] s t ∧
      t.fld R.CV_SCRUB (if m.val = 6 then F.CV_SCRUB_DRAM else F.CV_SCRUB_SRAM) =
        (s.fld R.CV_SCRUB (if m.val = 6 then F.CV_SCRUB_DRAM else F.CV_SCRUB_SRAM) + 1) % 65536) ∧
  (∀ (c : ClusterIx) (off : Nat) (pass rerun late : Bool) (s : State),
    ((s.regionHeld (c.val / 8) = true ∨ s.dieState (c.val / 32) ≠ 0) →
      exec (.sentinelRun c off pass rerun late) s = .next s) ∧
    (s.regionHeld (c.val / 8) = false → s.dieState (c.val / 32) = 0 →
      Does (.sentinelRun c off pass rerun late) s fun t => t.rd (R.LC_SEN_LAST_T c) = s.tag off ∧
        (pass = true → t.rd (R.LC_SEN_CNT c) = s.rd (R.LC_SEN_CNT c) + 1 ∧ t.senPasses c = s.senPasses c + 1 ∧
          SameMemory s t ∧ SameRegsBut [R.LC_SEN_LAST_T c, R.LC_SEN_CNT c, R.LC_SEN_STAT c] s t) ∧
        (pass = false → rerun = true → t.bit (R.LC_SEN_STAT c) F.LC_SEN_STAT_RETRY = true ∧ t.senPasses c = 1 ∧
          t.rd (R.LC_SEN_FAIL_CNT c) = s.rd (R.LC_SEN_FAIL_CNT c) + 1 ∧ SameMemory s t) ∧
        (pass = false → rerun = false → t.bit (R.LC_SEN_STAT c) F.LC_SEN_STAT_FAIL = true ∧
          t.bit (R.LC_SEN_STAT c) F.LC_SEN_STAT_HELD = true ∧ t.senPasses c = 0 ∧
          t.rd (R.LC_SEN_FAIL_CNT c) = s.rd (R.LC_SEN_FAIL_CNT c) + 2))) ∧
  (∀ (c : ClusterIx) (s : State),
    (100 ≤ s.senPasses c → Does (.senClear c) s fun t => t.bit (R.LC_SEN_STAT c) F.LC_SEN_STAT_HELD = false ∧
      SameMemory s t ∧ SameRegsBut [R.LC_SEN_STAT c] s t) ∧
    (s.senPasses c < 100 → exec (.senClear c) s = .next s)) ∧
  (∀ (r : RegionIx) (ok re : Bool) (s : State),
    (s.dieRuns (r.val / 4) = false ∨ s.img.loaded = false ∨ s.regionHeld r = true) →
    exec (.areaCheck r ok re) s = .next s) ∧
  ∀ (r : RegionIx) (n : Nat) (ok re : Bool) (s : State), s.dieRuns (r.val / 4) = true → s.img.loaded = true →
    s.regionHeld r = false → n = (if (s.fld (R.NE_CHK_POS r) F.NE_CHK_POS_PASSES = 0 ∧
      s.integ.checked.contains r.val = false) ∨ 64 ≤ s.fld (R.NE_CHK_POS r) F.NE_CHK_POS_AREA then 0
      else s.fld (R.NE_CHK_POS r) F.NE_CHK_POS_AREA + 1) →
    (s.areaGood r n = true → ok = true → Does (.areaCheck r ok re) s fun t =>
      t.fld (R.NE_CHK_POS r) F.NE_CHK_POS_AREA = n ∧ SameMemory s t ∧ SameRegsBut [R.NE_CHK_POS r] s t) ∧
    (s.areaGood r n = true → ok = false → re = true → Does (.areaCheck r ok re) s fun t =>
      t.fld (R.NE_CHK_POS r) F.NE_CHK_POS_AREA = n ∧ t.rd (R.NE_CHK_RETRY_CNT r) = s.rd (R.NE_CHK_RETRY_CNT r) + 1 ∧
      SameMemory s t ∧ SameRegsBut [R.NE_CHK_POS r, R.NE_CHK_RETRY_CNT r] s t) ∧
    (((ok = false ∧ re = false) ∨ s.areaGood r n = false) → Does (.areaCheck r ok re) s fun t =>
      t.fld (R.NE_CHK_POS r) F.NE_CHK_POS_AREA = n ∧ (t.fld R.TK_CTL F.TK_CTL_CAUSE).testBit 2 = true ∧
      SameMemory s t ∧ SameRegsButEvents [R.NE_CHK_POS r, R.TK_CTL] s t)


/-- The check-value unit feeds its register and compares its channels, and a BIST starts and ends only as the mode
allows. CV_INIT loads the initial value; CV_DATA and CV_DATA_B feed four bytes or one unless a DMA runs, which
refuses them; CV_DMA_GO starts a DMA unless one runs, with GO until CV_DMA_DONE feeds the bytes of the recipe
store or the reserved partition. TEST in STOP or PROGRAM selects CHANNELS and is refused elsewhere; SERVICE
leaves it; a channel is started in CHANNELS only, with GO until its end, which shows DONE, and its value over
such bytes with MISMATCH against the expected one. BIST_GO in REMOTE and RUN shows every region refused with
cause 1; in STOP and PROGRAM an active region is refused with cause 2, and another begins its test. BIST_DONE
ends it with PASS or FAIL. Elsewhere each changes nothing. -/
def Obligations.CheckValuesAndSelfTest : Prop :=
  (∀ (v : Word) (b : Byte) (c : Instr) (x a : Nat) (s : State),
    ((c = .cvInit ∧ x = s.cvPoly.init) ∨
      (c = .cvData v ∧ s.cvBusy = false ∧ x = Crc.run s.cvPoly s.cvValue (Word.bytes v)) ∨
      (c = .cvDataB b ∧ s.cvBusy = false ∧ x = Crc.run s.cvPoly s.cvValue [b])) →
    a = R.CV_VALUE_LO → Does c s fun t => t.cvValue = x % 2 ^ s.cvPoly.width ∧
      t.rd64 R.CV_RESULT_LO = Crc.final s.cvPoly x % 2 ^ 64 ∧ SameMemory s t ∧
      SameRegsBut [a, a + 4, R.CV_RESULT_LO, R.CV_RESULT_LO + 4] s t) ∧
  (∀ (v : Word) (b : Byte) (c : Instr) (s : State), c ∈ [Instr.cvData v, .cvDataB b] → s.cvBusy = true →
    Does c s fun t => t.cvValue = s.cvValue ∧ t.rd R.HI_WERR_CNT = s.rd R.HI_WERR_CNT + 1 ∧ SameMemory s t) ∧
  (∀ s : State, s.cvBusy = true → exec .cvDmaGo s = .next s) ∧
  (∀ s : State, s.cvBusy = false → Does .cvDmaGo s fun t => t.cvBusy = true ∧
    t.bit R.CV_DMA_CMD F.CV_DMA_CMD_GO = true ∧ SameMemory s t ∧ SameRegsBut [R.CV_CTL, R.CV_DMA_CMD] s t) ∧
  (∀ s : State, s.cvBusy = false → exec .cvDmaDone s = .next s) ∧
  (∀ (a n : Nat) (s : State), s.cvBusy = true → a = 8 * s.fld R.CV_DMA_ADDR F.CV_DMA_ADDR_ADDR →
    n = s.fld R.CV_DMA_LEN F.CV_DMA_LEN_BYTES → Does .cvDmaDone s fun t => t.cvBusy = false ∧
      t.bit R.CV_DMA_CMD F.CV_DMA_CMD_GO = false ∧ SameMemory s t ∧
      (cvHeld a n = true → t.cvValue = Crc.run s.cvPoly s.cvValue (s.dbytes a n) % 2 ^ s.cvPoly.width)) ∧
  (∀ s : State,
    ((s.mode = 0 ∨ s.mode = 1) → Does .test s fun t => t.bit R.CV_CTL F.CV_CTL_MODE = true ∧ SameMemory s t ∧
      SameRegsBut [R.CV_CTL] s t) ∧
    (s.mode ≠ 0 → s.mode ≠ 1 → Does .test s fun t => t.rd R.CV_CTL = s.rd R.CV_CTL ∧
      t.rd R.HI_WERR_CNT = s.rd R.HI_WERR_CNT + 1 ∧ SameMemory s t) ∧
    Does .service s fun t => t.bit R.CV_CTL F.CV_CTL_MODE = false ∧ SameMemory s t ∧ SameRegsBut [R.CV_CTL] s t) ∧
  (∀ (c : Fin 8) (s : State),
    (s.bit R.CV_CTL F.CV_CTL_MODE = true → Does (.cvChGo c) s fun t =>
      t.bit (R.CV_CH_STAT c) F.CV_CH_STAT_BUSY = true ∧ t.bit (R.CV_CH_CFG c) F.CV_CH_CFG_GO = true ∧
      SameMemory s t ∧ SameRegsBut [R.CV_CH_STAT c, R.CV_CH_CFG c] s t) ∧
    (s.bit R.CV_CTL F.CV_CTL_MODE = false → exec (.cvChGo c) s = .next s) ∧
    (s.bit (R.CV_CH_STAT c) F.CV_CH_STAT_BUSY = false → exec (.cvChDone c) s = .next s)) ∧
  (∀ (c : Fin 8) (a n v : Nat) (s : State), s.bit (R.CV_CH_STAT c) F.CV_CH_STAT_BUSY = true →
    a = 8 * (s.rd (R.CV_CH_ADDR c)).toNat →
    n = s.fld (R.CV_CH_LEN c) F.CV_CH_LEN_BYTES →
    v = Crc.of (s.fld (R.CV_CH_CFG c) F.CV_CH_CFG_POLY) (s.dbytes a n) → Does (.cvChDone c) s fun t =>
      t.bit (R.CV_CH_STAT c) F.CV_CH_STAT_BUSY = false ∧ t.bit (R.CV_CH_STAT c) F.CV_CH_STAT_DONE = true ∧
      t.bit (R.CV_CH_CFG c) F.CV_CH_CFG_GO = false ∧ SameMemory s t ∧
      (s.bit (R.CV_CH_CFG c) F.CV_CH_CFG_SRC = false → cvHeld a n = true → t.rd64 (R.CV_CH_RES_LO c) = v % 2 ^ 64 ∧
        t.bit (R.CV_CH_STAT c) F.CV_CH_STAT_MISMATCH =
          (s.bit (R.CV_CH_STAT c) F.CV_CH_STAT_MISMATCH || decide (v ≠ s.rd64 (R.CV_CH_EXP_LO c))))) ∧
  (∀ (m : BitVec 16) (s : State), s.mode ≠ 0 → s.mode ≠ 1 → Does (.bistGo m) s fun t => t.integ = s.integ ∧
    SameMemory s t ∧ SameRegsBut [R.CV_BIST_REJ] s t ∧ ∀ r : RegionIx, m.getLsbD r.val = true →
      t.bit R.CV_BIST_REJ ⟨r.val, 1⟩ = true ∧ t.fld R.CV_BIST_REJ F.CV_BIST_REJ_CAUSE = 1) ∧
  (∀ (r : RegionIx) (s : State), (s.mode = 0 ∨ s.mode = 1) → s.integ.bist.contains r.val = false →
    s.dieState (r.val / 4) = 0 →
    (s.bistActive r = true → Does (.bistGo (BitVec.ofNat 16 (2 ^ r.val))) s fun t => t.integ = s.integ ∧
      t.bit R.CV_BIST_REJ ⟨r.val, 1⟩ = true ∧ t.fld R.CV_BIST_REJ F.CV_BIST_REJ_CAUSE = 2 ∧ SameMemory s t) ∧
    (s.bistActive r = false → Does (.bistGo (BitVec.ofNat 16 (2 ^ r.val))) s fun t =>
      t.integ.bist.contains r.val = true ∧ t.fld R.CV_BIST_REJ F.CV_BIST_REJ_CAUSE = 0)) ∧
  ∀ (r : RegionIx) (pass : Bool) (s : State),
    ((s.integ.bist.contains r.val = false ∨ s.dieRuns (r.val / 4) = false) → exec (.bistDone r pass) s = .next s) ∧
    (s.integ.bist.contains r.val = true → s.dieRuns (r.val / 4) = true → Does (.bistDone r pass) s fun t => t.integ.bist.contains r.val = false ∧
      t.bit R.CV_BIST_STAT ⟨r.val, 1⟩ = pass ∧ t.bit R.CV_BIST_STAT ⟨16 + r.val, 1⟩ = !pass)


/-- Sessions open on a signed nonce only, and a proposal is held, confirmed by another class, withdrawn or lapses.
While the core is down AUTH_NONCE, AUTH and CONFIRM answer its status. AUTH_NONCE gives a class its nonce; KEY
and PARTNER have none. AUTH uses the nonce up: a signature of a credential slot opens the session, any other
answers AUTH, and the fifth failure of a minute locks AUTH until the lockout ends. LOGOUT, a time-out and a
console disconnect close it. PROPOSE answers the status of its conditions, or 3 for an item and target already
held, and changes nothing, or takes the first free slot with its digest. CONFIRM by the proposer's class is
refused; with another digest it ends the proposal; else it stands for the next t0, or is logged if pair-wide.
The proposer withdraws it, and it lapses unconfirmed. -/
def Obligations.SessionsAndProposals : Prop :=
  (∀ (p : Principal) (sig : List Byte) (k : PropIx) (d : BitVec 384) (c : Instr) (s : State),
    c ∈ [Instr.authNonce p, .auth p sig, .confirm p k d] → s.mgBar true ≠ 0 →
    Does c s fun t => Out.mbox (s.mgBar true) [] ∈ t.out ∧ t.mg = s.mg ∧ SameMemory s t) ∧
  (∀ (p : Principal) (s : State), s.mgBar true = 0 → classOf p ≤ 1 → Does (.authNonce p) s fun t =>
    Out.mbox 0 (words384 (Config.nonce s.mg.nonceN)) ∈ t.out ∧ t.mg.nonceN = s.mg.nonceN + 1 ∧
    (classOf p, Config.nonce s.mg.nonceN, s.opNs) ∈ t.mg.nonces ∧ t.mg.sess = s.mg.sess ∧ SameMemory s t) ∧
  (∀ (p : Principal) (sig : List Byte) (c : Instr) (s : State), c ∈ [Instr.authNonce p, .auth p sig] →
    s.mgBar true = 0 → 1 < classOf p → Does c s fun t => Out.mbox 4 [] ∈ t.out ∧ t.mg = s.mg ∧ SameMemory s t) ∧
  (∀ (p : Principal) (sig : List Byte) (s : State), s.mgBar true = 0 → classOf p ≤ 1 →
    (s.mg.locked = true → Does (.auth p sig) s fun t => Out.mbox 2 [] ∈ t.out ∧ t.mg = s.mg ∧ SameMemory s t) ∧
    (∀ i, s.mg.locked = false → s.authSlot (classOf p) sig = some i → Does (.auth p sig) s fun t =>
      t.mgOpen (classOf p) = true ∧ Out.mbox 0 [Word.ofN (1 + 2 * i)] ∈ t.out ∧
      (∀ e ∈ t.mg.nonces, e.1 ≠ classOf p) ∧ t.mg.fails = s.mg.fails ∧ SameMemory s t) ∧
    (s.mg.locked = false → s.authSlot (classOf p) sig = none → Does (.auth p sig) s fun t =>
      Out.mbox 2 [] ∈ t.out ∧ t.mg.sess = s.mg.sess ∧ (∀ e ∈ t.mg.nonces, e.1 ≠ classOf p) ∧
      t.mg.locked = decide (4 ≤ (s.mg.fails.filter (fun x => s.opNs < x + 60000000000)).length) ∧ SameMemory s t)) ∧
  (∀ s : State, Does .authLockoutEnd s fun t => t.mg.locked = false ∧ t.mg.fails = [] ∧
    t.mg.sess = s.mg.sess ∧ t.io = s.io ∧ SameMemory s t) ∧
  (∀ (p : Principal) (s : State), s.mgBar false = 0 → Does (.logout p) s fun t => t.mgOpen (classOf p) = false ∧
    (∀ c, c ≠ classOf p → t.mgOpen c = s.mgOpen c) ∧ Out.mbox 0 [] ∈ t.out ∧ SameMemory s t) ∧
  (∀ (p : Principal) (c : Instr) (s : State), (c = .sessionTimeout p ∨ (c = .consoleDisconnect ∧ p = .console)) →
    Does c s fun t => t.mgOpen (classOf p) = false ∧ (∀ x, x ≠ classOf p → t.mgOpen x = s.mgOpen x) ∧
      (classOf p = 0 → t.rd R.MG_SESSION = 0) ∧ SameMemory s t ∧ SameRegsBut [R.MG_SESSION] s t) ∧
  (∀ (p : Principal) (i : Item) (b : List Byte) (s : State), s.mgBar (itemCode i = 1) = 0 → classOf p ≤ 1 →
    (s.mgOpen (classOf p) = false → Does (.propose p i b) s fun t => Out.mbox 2 [] ∈ t.out ∧ t.mg = s.mg) ∧
    (s.mgOpen (classOf p) = true → s.itemStatus i ≠ 0 → Does (.propose p i b) s fun t =>
      Out.mbox (s.itemStatus i) [] ∈ t.out ∧ t.mg = s.mg ∧ SameMemory s t) ∧
    (∀ k, s.mgOpen (classOf p) = true → s.itemStatus i = 0 → (∀ e ∈ s.mg.props, itemCode e.2.item = itemCode i → itemTarget e.2.item ≠ itemTarget i) →
      k < 8 → (∀ j < k, Smap.find s.mg.props j ≠ none) → Smap.find s.mg.props k = none →
      Does (.propose p i b) s fun t => Out.mbox 0 (Word.ofN k :: words384 (Config.sha384 b)) ∈ t.out ∧
        Smap.find t.mg.props k = some ⟨i, p, Config.sha384 b, s.rd R.XL_EPOCH, s.opNs, none⟩ ∧ SameMemory s t) ∧
    (s.mgOpen (classOf p) = true → s.itemStatus i = 0 →
      (∃ e ∈ s.mg.props, itemCode e.2.item = itemCode i ∧ itemTarget e.2.item = itemTarget i) →
      Does (.propose p i b) s fun t => Out.mbox 3 [] ∈ t.out ∧ t.mg = s.mg ∧ SameMemory s t)) ∧
  (∀ (p : Principal) (k : PropIx) (d : BitVec 384) (x : PropX) (s : State), s.mgBar true = 0 → s.confirmer p = 0 →
    Smap.find s.mg.props k = some x → x.conf = none → s.opNs < x.at_ + 120000000000 →
    (classOf x.by_ = classOf p → Does (.confirm p k d) s fun t => Out.mbox 8 [] ∈ t.out ∧ t.mg = s.mg) ∧
    (classOf x.by_ ≠ classOf p → d ≠ x.digest → Does (.confirm p k d) s fun t =>
      Out.mbox 5 [] ∈ t.out ∧ Smap.find t.mg.props k = none ∧ SameMemory s t) ∧
    (classOf x.by_ ≠ classOf p → d = x.digest → s.itemStatus x.item = 0 → s.phase ≠ 15 →
      (itemPair x.item = false → Does (.confirm p k d) s fun t => Out.mbox 0 [s.seq + 1] ∈ t.out ∧
        Smap.find t.mg.props k = some { x with conf := some p } ∧ t.log = s.log ∧ SameMemory s t) ∧
      (itemPair x.item = true → Does (.confirm p k d) s fun t => Out.mbox 0 [s.assignCyc] ∈ t.out ∧
        Smap.find t.mg.props k = some { x with conf := some p } ∧
        (∃ e ∈ t.log, e.kind = .twoParty k x.item x.by_ p ∧ e.cyc = s.assignCyc) ∧ SameMemory s t))) ∧
  (∀ (p : Principal) (k : PropIx) (x : PropX) (s : State), s.mgBar false = 0 → s.mgOpen (classOf p) = true →
    Smap.find s.mg.props k = some x → x.conf = none →
    (classOf x.by_ = classOf p → Does (.withdraw p k) s fun t =>
      Out.mbox 0 [] ∈ t.out ∧ Smap.find t.mg.props k = none ∧ SameMemory s t) ∧
    (classOf x.by_ ≠ classOf p → Does (.withdraw p k) s fun t => Out.mbox 2 [] ∈ t.out ∧ t.mg = s.mg)) ∧
  ∀ (k : PropIx) (s : State),
    (∀ x, Smap.find s.mg.props k = some x → x.conf = none → Does (.proposalLapse k) s fun t =>
      Smap.find t.mg.props k = none ∧ t.out = s.out ∧ SameMemory s t) ∧
    (∀ x, Smap.find s.mg.props k = some x → x.conf ≠ none → exec (.proposalLapse k) s = .next s) ∧
    (Smap.find s.mg.props k = none → exec (.proposalLapse k) s = .next s)


/-- A bank passes from writing to active only through its checks, and rollback, trace and erase follow the life
cycle. Each command answers 13 while the core is down, and AUTH without its session. UPDATE_BEGIN takes a bank
that is not ACTIVE to WRITING; UPDATE_WRITE writes up to 1 MiB of a bank in WRITING; UPDATE_END makes it
WRITTEN, or EMPTY when its CRC, a signature or its SVN fails. ACTIVATE waits for an ACCEPTED bank's second in
PROGRAM and REMOTE; when due, the bank is ACTIVE on trial and a warm restart with cause UPDATE is decided; a
dropped one answers DENIED_MODE. SVN_COMMIT after 60 s in RUN raises the counter to the ACTIVE bank's SVN and
never lowers it. TRACE goes on in FIELD with its confirmation only. A finished erase sets the life cycle or
ERASE_FAIL. -/
def Obligations.ImageBanksAndLifeCycle : Prop :=
  (∀ (b : Bank) (off len svn sec n : Nat) (c1 c2 on cf : Bool) (w : Word) (c : Instr) (rom : Bool) (s : State),
    (c, rom) ∈ [(Instr.updateBegin b, true), (.updateWrite b off len, true), (.updateEnd b c1 c2 svn w, true),
      (.activate b sec, false), (.svnCommit n, false), (.trace on cf, false)] →
    (s.mgBar rom ≠ 0 → Does c s fun t => Out.mbox (s.mgBar rom) [] ∈ t.out ∧ t.mg = s.mg ∧ t.boot = s.boot) ∧
    (s.mgBar rom = 0 → s.mgSession.2 = false → Does c s fun t =>
      Out.mbox 2 [] ∈ t.out ∧ t.mg = s.mg ∧ t.boot = s.boot ∧ SameMemory s t)) ∧
  (∀ (b : Bank) (s : State), s.mgBar true = 0 → s.mgSession.2 = true →
    (s.bankState b ≠ 4 → Does (.updateBegin b) s fun t => t.bankState b = 1 ∧
      t.bankState (otherBank b) = s.bankState (otherBank b) ∧ Out.mbox 0 [] ∈ t.out ∧ SameMemory s t) ∧
    (s.bankState b = 4 → Does (.updateBegin b) s fun t => Out.mbox 11 [] ∈ t.out ∧ t.boot = s.boot)) ∧
  (∀ (b : Bank) (off len : Nat) (s : State), s.mgBar true = 0 → s.mgSession.2 = true →
    Does (.updateWrite b off len) s fun t => t.boot = s.boot ∧ SameMemory s t ∧
      (s.bankState b = 1 → len ≤ 1048576 → Out.bootWrite 3 b off len ∈ t.out ∧ Out.mbox 0 [Word.ofN len] ∈ t.out) ∧
      (s.bankState b = 1 → 1048576 < len → Out.mbox 4 [] ∈ t.out) ∧
      (s.bankState b ≠ 1 → Out.mbox 11 [] ∈ t.out)) ∧
  (∀ (b : Bank) (c1 c2 : Bool) (svn : Nat) (w : Word) (s : State), s.mgBar true = 0 → s.mgSession.2 = true →
    Does (.updateEnd b c1 c2 svn w) s fun t => SameMemory s t ∧
      (s.bankState b ≠ 1 → Out.mbox 11 [] ∈ t.out ∧ t.boot = s.boot) ∧
      (s.bankState b = 1 → (c1 && c2) = false → Out.mbox 9 [] ∈ t.out ∧ t.bankState b = 0) ∧
      (s.bankState b = 1 → (c1 && c2) = true → svn < s.fld R.LF_SVN F.LF_SVN_COUNTER →
        Out.mbox 10 [] ∈ t.out ∧ t.bankState b = 0) ∧
      (s.bankState b = 1 → (c1 && c2) = true → s.fld R.LF_SVN F.LF_SVN_COUNTER ≤ svn →
        Out.mbox 0 [w, Word.ofN svn] ∈ t.out ∧ t.bankState b = 2 ∧ (t.bankHdr b).svn = svn)) ∧
  (∀ (b : Bank) (sec : Nat) (s : State), s.mgBar false = 0 → s.mgSession.2 = true →
    Does (.activate b sec) s fun t => t.boot = s.boot ∧ SameMemory s t ∧
      (s.mode ≠ 1 → s.mode ≠ 2 → Out.mbox 1 [] ∈ t.out ∧ t.mg = s.mg) ∧
      (s.mode = 1 ∨ s.mode = 2 → s.bankState b ≠ 3 → Out.mbox 11 [] ∈ t.out ∧ t.mg = s.mg) ∧
      (s.mode = 1 ∨ s.mode = 2 → s.bankState b = 3 → s.mg.act ≠ none → Out.mbox 3 [] ∈ t.out ∧ t.mg = s.mg) ∧
      (s.mode = 1 ∨ s.mode = 2 → s.bankState b = 3 → s.mg.act = none → t.mg.act = some (b, sec, s.opNs) ∧
        Out.mbox 0 [s.seq + Word.ofN (s.cyclesTo sec)] ∈ t.out)) ∧
  (∀ s : State,
    (s.mg.act = none → exec .activateDue s = .next s ∧ exec .activateDrop s = .next s) ∧
    ∀ b sec at_, s.mg.act = some (b, sec, at_) →
      (s.t0 < sec * 1000000000 ∨ (s.mode ≠ 1 ∧ s.mode ≠ 2) → exec .activateDue s = .next s) ∧
      (sec * 1000000000 ≤ s.t0 → (s.mode = 1 ∨ s.mode = 2) → s.boot.up = true → Does .activateDue s fun t =>
        t.bankState b = 4 ∧ t.dirGet dirTrial = 1 ∧ t.dirGet dirTries = 0 ∧ t.boot.restart = some (3, false) ∧
        (s.bankState (otherBank b) = 4 → t.bankState (otherBank b) = 3) ∧ t.mg.act = none ∧ SameMemory s t) ∧
      Does .activateDrop s fun t => t.mg.act = none ∧ Out.mbox 1 [] ∈ t.out ∧ t.io = s.io ∧ t.boot = s.boot) ∧
  (∀ (n : Nat) (s : State), s.mgBar false = 0 → s.mgSession.2 = true → Does (.svnCommit n) s fun t =>
    SameMemory s t ∧
    (s.mode ≠ 1 → s.mode ≠ 2 → Out.mbox 1 [] ∈ t.out ∧ t.rd R.LF_SVN = s.rd R.LF_SVN) ∧
    (s.mode = 1 ∨ s.mode = 2 → n < 60 ∨ s.phase ≠ 7 → Out.mbox 11 [] ∈ t.out ∧ t.rd R.LF_SVN = s.rd R.LF_SVN) ∧
    (s.mode = 1 ∨ s.mode = 2 → 60 ≤ n → s.phase = 7 → t.fld R.LF_SVN F.LF_SVN_COUNTER =
      min 64 (max (s.fld R.LF_SVN F.LF_SVN_COUNTER) (s.bankHdr (bankOf (s.dirGet dirActive))).svn))) ∧
  (∀ (on cf : Bool) (s : State), s.mgBar false = 0 → s.mgSession.2 = true → Does (.trace on cf) s fun t =>
    SameMemory s t ∧
    (on = true → s.life ≠ 2 → Out.mbox 11 [] ∈ t.out ∧ t.rd R.LF_STATE = s.rd R.LF_STATE) ∧
    (on = true → s.life = 2 → cf = false → Out.mbox 2 [] ∈ t.out ∧ t.rd R.LF_STATE = s.rd R.LF_STATE) ∧
    (on = true → s.life = 2 → cf = true → t.bit R.LF_STATE F.LF_STATE_TRACE = true ∧ t.life = 2) ∧
    (on = false → t.bit R.LF_STATE F.LF_STATE_TRACE = false ∧ t.life = s.life)) ∧
  ∀ (ok : Bool) (s : State),
    (s.mg.erase = none → exec (.eraseDone ok) s = .next s) ∧
    ∀ x, s.mg.erase = some x → Does (.eraseDone ok) s fun t => t.mg.erase = none ∧ SameMemory s t ∧
      (ok = true → t.life = x % 8 ∧ SameRegsButEvents [R.LF_STATE] s t) ∧
      (ok = false → t.bit R.LF_STATE F.LF_STATE_ERASE_FAIL = true ∧ t.life = s.life ∧ SameRegsBut [R.LF_STATE] s t)


/-- Sensors, resets of the management core, the recorder's copy and the busy windows take their values. SENSORS
answers the register of every sensor. A sample, while the core runs, gives each temperature its value and its
state (over the limit above 125 °C, WARN from 105 °C), a supply outside 5 % its over-limit state, and VBAT its
value; below 2.0 V RTC_VALID is cleared. A lockstep mismatch is counted and takes the core down until it runs
again; the third in an hour stops the controller with cause FATAL, as a hardware limit of the hub does. A copy
releases 8 staged records, the last of which is then the newest of the ring; a failing one sets NVM_ERR and
releases none. A busy window gives each cluster and net engine its figure and raises its maximum, unless CLR has
been set, which clears it. -/
def Obligations.SensorsRecorderCopyAndBusyWindows : Prop :=
  (∀ s : State, Does .sensors s fun t => SameMemory s t ∧ t.mg = s.mg ∧
    (s.mgBar true = 0 → Out.mbox 0 s.sensorWords ∈ t.out) ∧
    (s.mgBar true ≠ 0 → Out.mbox (s.mgBar true) [] ∈ t.out)) ∧
  (∀ (ts vs : List Word) (vb : Word) (cl : BitVec 37) (lo : BitVec 16) (s : State),
    (s.mg.down = true → exec (.sensorSample ts vs vb cl lo) s = .next s) ∧
    (s.mg.down = false → Does (.sensorSample ts vs vb cl lo) s fun t => SameMemory s t ∧
      t.rd R.MG_VBAT = Word.ofN (vb.toNat % 65536) ∧
      (vb.toNat % 65536 < 512 → t.bit R.TM_RTC_STAT F.TM_RTC_STAT_RTC_VALID = false) ∧
      (512 ≤ vb.toNat % 65536 → t.rd R.TM_RTC_STAT = s.rd R.TM_RTC_STAT) ∧
      (∀ i v, i < 9 → vs[i]? = some v → railOut i v = true → t.fld (R.MG_VOLT i) F.MG_VOLT_STATE = 2) ∧
      ∀ i v, i < 20 → ts[i]? = some v → t.fld (R.MG_TEMP i) F.MG_TEMP_VALUE = v.toNat % 65536 ∧
        (125 * 256 < (BitVec.ofNat 16 v.toNat).toInt → t.fld (R.MG_TEMP i) F.MG_TEMP_STATE = 2) ∧
        (105 * 256 ≤ (BitVec.ofNat 16 v.toNat).toInt → (BitVec.ofNat 16 v.toNat).toInt ≤ 125 * 256 →
          t.fld (R.MG_TEMP i) F.MG_TEMP_STATE = 1))) ∧
  (∀ s : State, Does .lockstepMismatch s fun t => t.mg.down = true ∧ t.rd R.MG_RESET_CNT = s.rd R.MG_RESET_CNT + 1 ∧
    Out.reset 3 ∈ t.out ∧ SameMemory s t ∧ t.mg.sess = s.mg.sess ∧ t.mg.props = s.mg.props ∧
    (2 ≤ (s.mg.resets.filter (fun x => s.opNs < x + 3600000000000)).length →
      (t.fld R.TK_CTL F.TK_CTL_CAUSE).testBit 2 = true) ∧
    ((s.mg.resets.filter (fun x => s.opNs < x + 3600000000000)).length < 2 → t.rd R.TK_CTL = s.rd R.TK_CTL)) ∧
  (∀ s : State, Does .mgmtReset s fun t => t.mg.down = false ∧ t.io = s.io ∧ t.mg.sess = s.mg.sess ∧
    t.mg.props = s.mg.props ∧ SameMemory s t) ∧
  (∀ s : State, Does .hubHardwareLimit s fun t => (t.fld R.TK_CTL F.TK_CTL_CAUSE).testBit 2 = true ∧
    t.boot.fatal = true ∧ SameMemory s t ∧ SameRegsButEvents [R.TK_CTL] s t) ∧
  (∀ (ok : Bool) (s : State),
    (s.nvmIdle = true ∨ s.evStage = [] → exec (.nvmCopy ok) s = .next s) ∧
    (s.nvmIdle = false → s.evStage ≠ [] → ok = false → Does (.nvmCopy ok) s fun t => t.evStage = s.evStage ∧
      t.evNvm = s.evNvm ∧ t.bit R.EV_STAT F.EV_STAT_NVM_ERR = true ∧ SameRegsBut [R.EV_STAT] s t) ∧
    (s.nvmIdle = false → s.evStage ≠ [] → ok = true → Does (.nvmCopy ok) s fun t => t.evStage = s.evStage.drop 8 ∧
      t.evNvm.getLast? = (s.evStage.take 8).getLast? ∧
      t.fld R.EV_STAGE_FILL F.EV_STAGE_FILL_RECORDS = (s.evStage.length - 8) % 2 ^ 14 ∧ SameMemory s t ∧
      SameRegsBut [R.EV_STAGE_FILL, R.EV_OLDEST_SEQ] s t)) ∧
  ∀ (cs ns : List Nat) (s : State), Does (.busyWindowEnd cs ns) s fun t => SameMemory s t ∧
    (∀ i n, i < 128 → cs[i]? = some n → t.fld (R.LC_BUSY i) F.LC_BUSY_CYCLES = min n 1048575 ∧
      (s.bit (R.LC_BUSY_MAX i) F.LC_BUSY_MAX_CLR = true → t.rd (R.LC_BUSY_MAX i) = 0) ∧
      (s.bit (R.LC_BUSY_MAX i) F.LC_BUSY_MAX_CLR = false → t.fld (R.LC_BUSY_MAX i) F.LC_BUSY_MAX_CYCLES =
        max (s.fld (R.LC_BUSY_MAX i) F.LC_BUSY_MAX_CYCLES) (min n 1048575))) ∧
    ∀ i n, i < 16 → ns[i]? = some n → t.fld (R.NE_BUSY i) F.NE_BUSY_CYCLES = min n 1048575 ∧
      (s.bit (R.NE_BUSY_MAX i) F.NE_BUSY_MAX_CLR = true → t.rd (R.NE_BUSY_MAX i) = 0) ∧
      (s.bit (R.NE_BUSY_MAX i) F.NE_BUSY_MAX_CLR = false → t.fld (R.NE_BUSY_MAX i) F.NE_BUSY_MAX_CYCLES =
        max (s.fld (R.NE_BUSY_MAX i) F.NE_BUSY_MAX_CYCLES) (min n 1048575))
end

