-- ==== Sys2Proof/Laws/Fields.lean ====
section
/-!
SUPPORT. Fields of a word: a field reads what was put into it, and putting into one leaves a disjoint one alone.
-/
namespace Sys2Proof.Machine

theorem Fld.get_testBit (f : Fld) (w : Word) (i : Nat) :
    (f.get w).testBit i = (decide (i < f.len) && w.getLsbD (f.lsb + i)) := by
  simp [Fld.get, Nat.testBit_mod_two_pow, Nat.testBit_shiftRight, BitVec.getLsbD]

theorem Fld.mask_getLsbD (f : Fld) (i : Nat) :
    f.mask.getLsbD i = (decide (i < 32) && (decide (f.lsb ≤ i) && decide (i < f.lsb + f.len))) := by
  simp only [Fld.mask, Word.ofN, BitVec.getLsbD_ofNat, Nat.testBit_shiftLeft, Nat.testBit_two_pow_sub_one]
  by_cases h : f.lsb ≤ i
  · have : (i - f.lsb < f.len) ↔ (i < f.lsb + f.len) := by omega
    simp [h, this]
  · simp [h]

theorem Fld.put_getLsbD (f : Fld) (w : Word) (n i : Nat) (hi : i < 32) :
    (f.put w n).getLsbD i =
      if f.lsb ≤ i ∧ i < f.lsb + f.len then n.testBit (i - f.lsb) else w.getLsbD i := by
  simp only [Fld.put, BitVec.getLsbD_or, BitVec.getLsbD_and, BitVec.getLsbD_not, Fld.mask_getLsbD, Word.ofN,
    BitVec.getLsbD_ofNat, Nat.testBit_shiftLeft, Nat.testBit_mod_two_pow, hi]
  by_cases h1 : f.lsb ≤ i
  · by_cases h2 : i < f.lsb + f.len
    · have : i - f.lsb < f.len := by omega
      simp [h1, h2, this]
    · have : ¬ i - f.lsb < f.len := by omega
      simp [h1, h2, this]
  · simp [h1]

/-- A field reads what was put into it. -/
theorem Fld.get_put_same (f : Fld) (w : Word) (n : Nat) (hf : f.lsb + f.len ≤ 32) :
    f.get (f.put w n) = n % 2 ^ f.len := by
  apply Nat.eq_of_testBit_eq
  intro i
  rw [Fld.get_testBit, Nat.testBit_mod_two_pow]
  by_cases h : i < f.len
  · rw [Fld.put_getLsbD f w n _ (by omega)]
    simp [h]
  · simp [h]

/-- Putting into a field leaves a disjoint field alone. -/
theorem Fld.get_put_other (f g : Fld) (w : Word) (n : Nat) (h : f.lsb + f.len ≤ g.lsb ∨ g.lsb + g.len ≤ f.lsb) :
    g.get (f.put w n) = g.get w := by
  apply Nat.eq_of_testBit_eq
  intro i
  rw [Fld.get_testBit, Fld.get_testBit]
  by_cases hi : i < g.len
  · by_cases hl : g.lsb + i < 32
    · rw [Fld.put_getLsbD f w n _ hl]
      have : ¬ (f.lsb ≤ g.lsb + i ∧ g.lsb + i < f.lsb + f.len) := by omega
      simp [this]
    · rw [BitVec.getLsbD_of_ge _ _ (by omega), BitVec.getLsbD_of_ge _ _ (by omega)]
  · simp [hi]

theorem Fld.get_lt (f : Fld) (w : Word) : f.get w < 2 ^ f.len := Nat.mod_lt _ (Nat.two_pow_pos _)

end Sys2Proof.Machine
end

