-- ==== Sys2Proof/Laws/Smap.lean ====
section
/-!
SUPPORT. Sparse maps: a read after a write gives the value written, a write leaves every other key alone, and every
operation keeps the canonical form.
-/
namespace Sys2Proof.Machine

variable {α : Type}

@[simp] theorem Smap.find_nil (k : Nat) : Smap.find ([] : List (Nat × α)) k = none := rfl

theorem Smap.find_cons (j : Nat) (v : α) (t : List (Nat × α)) (k : Nat) :
    Smap.find ((j, v) :: t) k = if j = k then some v else Smap.find t k := rfl

theorem Smap.find_put_same (m : List (Nat × α)) (k : Nat) (x : α) : Smap.find (Smap.put m k x) k = some x := by
  induction m with
  | nil => simp [Smap.put, Smap.find_cons]
  | cons e t ih =>
    obtain ⟨j, v⟩ := e
    simp only [Smap.put]
    split
    · have hne : j ≠ k := by omega
      simp [Smap.find_cons, hne, ih]
    · split <;> simp [Smap.find_cons]

theorem Smap.find_put_other (m : List (Nat × α)) {k j : Nat} (x : α) (h : j ≠ k) :
    Smap.find (Smap.put m k x) j = Smap.find m j := by
  induction m with
  | nil => simp [Smap.put, Smap.find_cons, Ne.symm h]
  | cons e t ih =>
    obtain ⟨i, v⟩ := e
    simp only [Smap.put]
    split
    · simp [Smap.find_cons, ih]
    · split
      · rename_i hik
        subst hik
        simp [Smap.find_cons, Ne.symm h]
      · simp [Smap.find_cons, Ne.symm h]

theorem Smap.find_erase_same (m : List (Nat × α)) (k : Nat) : Smap.find (Smap.erase m k) k = none := by
  induction m with
  | nil => rfl
  | cons e t ih =>
    obtain ⟨i, v⟩ := e
    simp only [Smap.erase]
    split
    · exact ih
    · rename_i h
      simp [Smap.find_cons, h, ih]

theorem Smap.find_erase_other (m : List (Nat × α)) {k j : Nat} (h : j ≠ k) :
    Smap.find (Smap.erase m k) j = Smap.find m j := by
  induction m with
  | nil => rfl
  | cons e t ih =>
    obtain ⟨i, v⟩ := e
    simp only [Smap.erase]
    split
    · rename_i hik
      subst hik
      simp [Smap.find_cons, Ne.symm h, ih]
    · simp [Smap.find_cons, ih]

@[simp] theorem Smap.get_set_same [DecidableEq α] (d : Nat → α) (m : List (Nat × α)) (k : Nat) (x : α) :
    Smap.get d (Smap.set d m k x) k = x := by
  unfold Smap.set
  split
  · rename_i h
    simp [Smap.get, Smap.find_erase_same, h]
  · simp [Smap.get, Smap.find_put_same]

theorem Smap.get_set_other [DecidableEq α] (d : Nat → α) (m : List (Nat × α)) {k j : Nat} (x : α) (h : j ≠ k) :
    Smap.get d (Smap.set d m k x) j = Smap.get d m j := by
  unfold Smap.set
  split
  · simp [Smap.get, Smap.find_erase_other m h]
  · simp [Smap.get, Smap.find_put_other m x h]

-- the canonical form

theorem Smap.mem_erase {m : List (Nat × α)} {k : Nat} {e : Nat × α} (h : e ∈ Smap.erase m k) : e ∈ m := by
  induction m with
  | nil => exact h
  | cons a t ih =>
    obtain ⟨i, v⟩ := a
    simp only [Smap.erase] at h
    split at h
    · exact List.mem_cons_of_mem _ (ih h)
    · rcases List.mem_cons.mp h with h | h
      · simp [h]
      · exact List.mem_cons_of_mem _ (ih h)

theorem Smap.mem_put {m : List (Nat × α)} {k : Nat} {x : α} {e : Nat × α} (h : e ∈ Smap.put m k x) :
    e = (k, x) ∨ e ∈ m := by
  induction m with
  | nil => simpa [Smap.put] using h
  | cons a t ih =>
    obtain ⟨i, v⟩ := a
    simp only [Smap.put] at h
    split at h
    · rcases List.mem_cons.mp h with h | h
      · simp [h]
      · rcases ih h with h | h
        · exact .inl h
        · exact .inr (List.mem_cons_of_mem _ h)
    · split at h
      · rcases List.mem_cons.mp h with h | h
        · exact .inl h
        · exact .inr (List.mem_cons_of_mem _ h)
      · rcases List.mem_cons.mp h with h | h
        · exact .inl h
        · exact .inr h

theorem Smap.sorted_erase {m : List (Nat × α)} (k : Nat) (h : Smap.sorted m) : Smap.sorted (Smap.erase m k) := by
  unfold Smap.sorted at *
  induction m with
  | nil => exact h
  | cons a t ih =>
    obtain ⟨i, v⟩ := a
    rw [List.pairwise_cons] at h
    simp only [Smap.erase]
    split
    · exact ih h.2
    · exact List.pairwise_cons.mpr ⟨fun e he => h.1 e (Smap.mem_erase he), ih h.2⟩

theorem Smap.sorted_put {m : List (Nat × α)} (k : Nat) (x : α) (h : Smap.sorted m) :
    Smap.sorted (Smap.put m k x) := by
  unfold Smap.sorted at *
  induction m with
  | nil => simp [Smap.put]
  | cons a t ih =>
    obtain ⟨i, v⟩ := a
    have hc := List.pairwise_cons.mp h
    simp only [Smap.put]
    split
    · rename_i hik
      refine List.pairwise_cons.mpr ⟨fun e he => ?_, ih hc.2⟩
      rcases Smap.mem_put he with rfl | he
      · exact hik
      · exact hc.1 e he
    · split
      · rename_i hik
        subst hik
        exact List.pairwise_cons.mpr ⟨hc.1, hc.2⟩
      · refine List.pairwise_cons.mpr ⟨fun e he => ?_, h⟩
        have hlt : k < i := by omega
        rcases List.mem_cons.mp he with rfl | he
        · exact hlt
        · exact Nat.lt_trans hlt (hc.1 e he)

/-- A write keeps the canonical form. -/
theorem Smap.wf_set [DecidableEq α] {d : Nat → α} {m : List (Nat × α)} (k : Nat) (x : α) (h : Smap.wf d m) :
    Smap.wf d (Smap.set d m k x) := by
  unfold Smap.set
  split
  · exact ⟨Smap.sorted_erase k h.1, fun e he => h.2 e (Smap.mem_erase he)⟩
  · rename_i hx
    refine ⟨Smap.sorted_put k x h.1, fun e he => ?_⟩
    rcases Smap.mem_put he with rfl | he
    · exact hx
    · exact h.2 e he

/-- So does writing every entry of a list. -/
theorem Smap.wf_setAll [DecidableEq α] {d : Nat → α} {m : List (Nat × α)} (l : List (Nat × α)) (h : Smap.wf d m) :
    Smap.wf d (Smap.setAll d m l) := by
  induction l generalizing m with
  | nil => exact h
  | cons e t ih => exact ih (Smap.wf_set e.1 e.2 h)

/-- And removing the entries that fail a test. -/
theorem Smap.wf_filter {d : Nat → α} {m : List (Nat × α)} (p : Nat × α → Bool) (h : Smap.wf d m) :
    Smap.wf d (m.filter p) :=
  ⟨h.1.filter p, fun e he => h.2 e (List.mem_filter.mp he).1⟩

end Sys2Proof.Machine
end

