-- ==== Sys2Proof/Laws/State.lean ====
section
/-!
SUPPORT. What the plain updates of State leave as it was, one lemma for each field and update.
-/
namespace Sys2Proof.Machine

variable (s : State)

-- wr
@[simp] theorem State.wr_pending (a : Nat) (v : Word) : (s.wr a v).pending = s.pending := rfl
@[simp] theorem State.wr_out (a : Nat) (v : Word) : (s.wr a v).out = s.out := rfl
@[simp] theorem State.wr_fresh (a : Nat) (v : Word) : (s.wr a v).fresh = s.fresh := rfl
@[simp] theorem State.wr_lz2048 (a : Nat) (v : Word) : (s.wr a v).lz2048 = s.lz2048 := rfl
@[simp] theorem State.wr_lawMem (a : Nat) (v : Word) : (s.wr a v).lawMem = s.lawMem := rfl
@[simp] theorem State.wr_dram (a : Nat) (v : Word) : (s.wr a v).dram = s.dram := rfl
@[simp] theorem State.wr_specs (a : Nat) (v : Word) : (s.wr a v).specs = s.specs := rfl
@[simp] theorem State.wr_img (a : Nat) (v : Word) : (s.wr a v).img = s.img := rfl
@[simp] theorem State.wr_outMaster (a : Nat) (v : Word) : (s.wr a v).outMaster = s.outMaster := rfl
@[simp] theorem State.wr_outCopy (a : Nat) (v : Word) : (s.wr a v).outCopy = s.outCopy := rfl
@[simp] theorem State.wr_snap (a : Nat) (v : Word) : (s.wr a v).snap = s.snap := rfl
@[simp] theorem State.wr_closeVal (a : Nat) (v : Word) : (s.wr a v).closeVal = s.closeVal := rfl
@[simp] theorem State.wr_closeFallow (a : Nat) (v : Word) : (s.wr a v).closeFallow = s.closeFallow := rfl
@[simp] theorem State.wr_closeRew (a : Nat) (v : Word) : (s.wr a v).closeRew = s.closeRew := rfl
@[simp] theorem State.wr_sampleT (a : Nat) (v : Word) : (s.wr a v).sampleT = s.sampleT := rfl
@[simp] theorem State.wr_wraps (a : Nat) (v : Word) : (s.wr a v).wraps = s.wraps := rfl
@[simp] theorem State.wr_t0 (a : Nat) (v : Word) : (s.wr a v).t0 = s.t0 := rfl
@[simp] theorem State.wr_tbStep (a : Nat) (v : Word) : (s.wr a v).tbStep = s.tbStep := rfl
@[simp] theorem State.wr_cyc (a : Nat) (v : Word) : (s.wr a v).cyc = s.cyc := rfl
@[simp] theorem State.wr_log (a : Nat) (v : Word) : (s.wr a v).log = s.log := rfl
@[simp] theorem State.wr_lseq (a : Nat) (v : Word) : (s.wr a v).lseq = s.lseq := rfl
@[simp] theorem State.wr_evStage (a : Nat) (v : Word) : (s.wr a v).evStage = s.evStage := rfl
@[simp] theorem State.wr_evNvm (a : Nat) (v : Word) : (s.wr a v).evNvm = s.evNvm := rfl
@[simp] theorem State.wr_evLost (a : Nat) (v : Word) : (s.wr a v).evLost = s.evLost := rfl
@[simp] theorem State.wr_opNs (a : Nat) (v : Word) : (s.wr a v).opNs = s.opNs := rfl
@[simp] theorem State.wr_pcyc (a : Nat) (v : Word) : (s.wr a v).pcyc = s.pcyc := rfl
@[simp] theorem State.wr_slots (a : Nat) (v : Word) : (s.wr a v).slots = s.slots := rfl
@[simp] theorem State.wr_clusters (a : Nat) (v : Word) : (s.wr a v).clusters = s.clusters := rfl
@[simp] theorem State.wr_hrings (a : Nat) (v : Word) : (s.wr a v).hrings = s.hrings := rfl
@[simp] theorem State.wr_lanes (a : Nat) (v : Word) : (s.wr a v).lanes = s.lanes := rfl
@[simp] theorem State.wr_validating (a : Nat) (v : Word) : (s.wr a v).validating = s.validating := rfl
@[simp] theorem State.wr_stns (a : Nat) (v : Word) : (s.wr a v).stns = s.stns := rfl
@[simp] theorem State.wr_pairs (a : Nat) (v : Word) : (s.wr a v).pairs = s.pairs := rfl
@[simp] theorem State.wr_sdis (a : Nat) (v : Word) : (s.wr a v).sdis = s.sdis := rfl
@[simp] theorem State.wr_dls (a : Nat) (v : Word) : (s.wr a v).dls = s.dls := rfl
@[simp] theorem State.wr_tripRuns (a : Nat) (v : Word) : (s.wr a v).tripRuns = s.tripRuns := rfl
@[simp] theorem State.wr_tbShared (a : Nat) (v : Word) : (s.wr a v).tbShared = s.tbShared := rfl
@[simp] theorem State.wr_axes (a : Nat) (v : Word) : (s.wr a v).axes = s.axes := rfl
@[simp] theorem State.wr_hg (a : Nat) (v : Word) : (s.wr a v).hg = s.hg := rfl
@[simp] theorem State.wr_edges (a : Nat) (v : Word) : (s.wr a v).edges = s.edges := rfl
@[simp] theorem State.wr_streams (a : Nat) (v : Word) : (s.wr a v).streams = s.streams := rfl
@[simp] theorem State.wr_opens (a : Nat) (v : Word) : (s.wr a v).opens = s.opens := rfl
@[simp] theorem State.wr_groups (a : Nat) (v : Word) : (s.wr a v).groups = s.groups := rfl
@[simp] theorem State.wr_recLast (a : Nat) (v : Word) : (s.wr a v).recLast = s.recLast := rfl
@[simp] theorem State.wr_specPend (a : Nat) (v : Word) : (s.wr a v).specPend = s.specPend := rfl
@[simp] theorem State.wr_recBytes (a : Nat) (v : Word) : (s.wr a v).recBytes = s.recBytes := rfl
@[simp] theorem State.wr_stageQ (a : Nat) (v : Word) : (s.wr a v).stageQ = s.stageQ := rfl
@[simp] theorem State.wr_stageAt (a : Nat) (v : Word) : (s.wr a v).stageAt = s.stageAt := rfl
@[simp] theorem State.wr_ces (a : Nat) (v : Word) : (s.wr a v).ces = s.ces := rfl
@[simp] theorem State.wr_pools (a : Nat) (v : Word) : (s.wr a v).pools = s.pools := rfl
@[simp] theorem State.wr_winq (a : Nat) (v : Word) : (s.wr a v).winq = s.winq := rfl
@[simp] theorem State.wr_winId (a : Nat) (v : Word) : (s.wr a v).winId = s.winId := rfl
@[simp] theorem State.wr_tbLast (a : Nat) (v : Word) : (s.wr a v).tbLast = s.tbLast := rfl
@[simp] theorem State.wr_cans (a : Nat) (v : Word) : (s.wr a v).cans = s.cans := rfl
@[simp] theorem State.wr_canBad (a : Nat) (v : Word) : (s.wr a v).canBad = s.canBad := rfl
@[simp] theorem State.wr_canAge (a : Nat) (v : Word) : (s.wr a v).canAge = s.canAge := rfl
@[simp] theorem State.wr_tasks (a : Nat) (v : Word) : (s.wr a v).tasks = s.tasks := rfl
@[simp] theorem State.wr_rss (a : Nat) (v : Word) : (s.wr a v).rss = s.rss := rfl
@[simp] theorem State.wr_flows (a : Nat) (v : Word) : (s.wr a v).flows = s.flows := rfl
@[simp] theorem State.wr_stopFallow (a : Nat) (v : Word) : (s.wr a v).stopFallow = s.stopFallow := rfl
@[simp] theorem State.wr_rings (a : Nat) (v : Word) : (s.wr a v).rings = s.rings := rfl
@[simp] theorem State.wr_mails (a : Nat) (v : Word) : (s.wr a v).mails = s.mails := rfl
@[simp] theorem State.wr_bootId (a : Nat) (v : Word) : (s.wr a v).bootId = s.bootId := rfl
@[simp] theorem State.wr_xl (a : Nat) (v : Word) : (s.wr a v).xl = s.xl := rfl
@[simp] theorem State.wr_tm (a : Nat) (v : Word) : (s.wr a v).tm = s.tm := rfl
@[simp] theorem State.wr_boot (a : Nat) (v : Word) : (s.wr a v).boot = s.boot := rfl
@[simp] theorem State.wr_integ (a : Nat) (v : Word) : (s.wr a v).integ = s.integ := rfl
@[simp] theorem State.wr_mg (a : Nat) (v : Word) : (s.wr a v).mg = s.mg := rfl
@[simp] theorem State.wr_worst (a : Nat) (v : Word) : (s.wr a v).worst = s.worst := rfl
@[simp] theorem State.wr_fences (a : Nat) (v : Word) : (s.wr a v).fences = s.fences := rfl
@[simp] theorem State.wr_hostDown (a : Nat) (v : Word) : (s.wr a v).hostDown = s.hostDown := rfl

-- emit
@[simp] theorem State.emit_pending (o : Out) : (s.emit o).pending = s.pending := rfl
@[simp] theorem State.emit_fresh (o : Out) : (s.emit o).fresh = s.fresh := rfl
@[simp] theorem State.emit_lz2048 (o : Out) : (s.emit o).lz2048 = s.lz2048 := rfl
@[simp] theorem State.emit_io (o : Out) : (s.emit o).io = s.io := rfl
@[simp] theorem State.emit_lawMem (o : Out) : (s.emit o).lawMem = s.lawMem := rfl
@[simp] theorem State.emit_dram (o : Out) : (s.emit o).dram = s.dram := rfl
@[simp] theorem State.emit_specs (o : Out) : (s.emit o).specs = s.specs := rfl
@[simp] theorem State.emit_img (o : Out) : (s.emit o).img = s.img := rfl
@[simp] theorem State.emit_outMaster (o : Out) : (s.emit o).outMaster = s.outMaster := rfl
@[simp] theorem State.emit_outCopy (o : Out) : (s.emit o).outCopy = s.outCopy := rfl
@[simp] theorem State.emit_snap (o : Out) : (s.emit o).snap = s.snap := rfl
@[simp] theorem State.emit_closeVal (o : Out) : (s.emit o).closeVal = s.closeVal := rfl
@[simp] theorem State.emit_closeFallow (o : Out) : (s.emit o).closeFallow = s.closeFallow := rfl
@[simp] theorem State.emit_closeRew (o : Out) : (s.emit o).closeRew = s.closeRew := rfl
@[simp] theorem State.emit_sampleT (o : Out) : (s.emit o).sampleT = s.sampleT := rfl
@[simp] theorem State.emit_wraps (o : Out) : (s.emit o).wraps = s.wraps := rfl
@[simp] theorem State.emit_t0 (o : Out) : (s.emit o).t0 = s.t0 := rfl
@[simp] theorem State.emit_tbStep (o : Out) : (s.emit o).tbStep = s.tbStep := rfl
@[simp] theorem State.emit_cyc (o : Out) : (s.emit o).cyc = s.cyc := rfl
@[simp] theorem State.emit_log (o : Out) : (s.emit o).log = s.log := rfl
@[simp] theorem State.emit_lseq (o : Out) : (s.emit o).lseq = s.lseq := rfl
@[simp] theorem State.emit_evStage (o : Out) : (s.emit o).evStage = s.evStage := rfl
@[simp] theorem State.emit_evNvm (o : Out) : (s.emit o).evNvm = s.evNvm := rfl
@[simp] theorem State.emit_evLost (o : Out) : (s.emit o).evLost = s.evLost := rfl
@[simp] theorem State.emit_opNs (o : Out) : (s.emit o).opNs = s.opNs := rfl
@[simp] theorem State.emit_pcyc (o : Out) : (s.emit o).pcyc = s.pcyc := rfl
@[simp] theorem State.emit_slots (o : Out) : (s.emit o).slots = s.slots := rfl
@[simp] theorem State.emit_clusters (o : Out) : (s.emit o).clusters = s.clusters := rfl
@[simp] theorem State.emit_hrings (o : Out) : (s.emit o).hrings = s.hrings := rfl
@[simp] theorem State.emit_lanes (o : Out) : (s.emit o).lanes = s.lanes := rfl
@[simp] theorem State.emit_validating (o : Out) : (s.emit o).validating = s.validating := rfl
@[simp] theorem State.emit_stns (o : Out) : (s.emit o).stns = s.stns := rfl
@[simp] theorem State.emit_pairs (o : Out) : (s.emit o).pairs = s.pairs := rfl
@[simp] theorem State.emit_sdis (o : Out) : (s.emit o).sdis = s.sdis := rfl
@[simp] theorem State.emit_dls (o : Out) : (s.emit o).dls = s.dls := rfl
@[simp] theorem State.emit_tripRuns (o : Out) : (s.emit o).tripRuns = s.tripRuns := rfl
@[simp] theorem State.emit_tbShared (o : Out) : (s.emit o).tbShared = s.tbShared := rfl
@[simp] theorem State.emit_axes (o : Out) : (s.emit o).axes = s.axes := rfl
@[simp] theorem State.emit_hg (o : Out) : (s.emit o).hg = s.hg := rfl
@[simp] theorem State.emit_edges (o : Out) : (s.emit o).edges = s.edges := rfl
@[simp] theorem State.emit_streams (o : Out) : (s.emit o).streams = s.streams := rfl
@[simp] theorem State.emit_opens (o : Out) : (s.emit o).opens = s.opens := rfl
@[simp] theorem State.emit_groups (o : Out) : (s.emit o).groups = s.groups := rfl
@[simp] theorem State.emit_recLast (o : Out) : (s.emit o).recLast = s.recLast := rfl
@[simp] theorem State.emit_specPend (o : Out) : (s.emit o).specPend = s.specPend := rfl
@[simp] theorem State.emit_recBytes (o : Out) : (s.emit o).recBytes = s.recBytes := rfl
@[simp] theorem State.emit_stageQ (o : Out) : (s.emit o).stageQ = s.stageQ := rfl
@[simp] theorem State.emit_stageAt (o : Out) : (s.emit o).stageAt = s.stageAt := rfl
@[simp] theorem State.emit_ces (o : Out) : (s.emit o).ces = s.ces := rfl
@[simp] theorem State.emit_pools (o : Out) : (s.emit o).pools = s.pools := rfl
@[simp] theorem State.emit_winq (o : Out) : (s.emit o).winq = s.winq := rfl
@[simp] theorem State.emit_winId (o : Out) : (s.emit o).winId = s.winId := rfl
@[simp] theorem State.emit_tbLast (o : Out) : (s.emit o).tbLast = s.tbLast := rfl
@[simp] theorem State.emit_cans (o : Out) : (s.emit o).cans = s.cans := rfl
@[simp] theorem State.emit_canBad (o : Out) : (s.emit o).canBad = s.canBad := rfl
@[simp] theorem State.emit_canAge (o : Out) : (s.emit o).canAge = s.canAge := rfl
@[simp] theorem State.emit_tasks (o : Out) : (s.emit o).tasks = s.tasks := rfl
@[simp] theorem State.emit_rss (o : Out) : (s.emit o).rss = s.rss := rfl
@[simp] theorem State.emit_flows (o : Out) : (s.emit o).flows = s.flows := rfl
@[simp] theorem State.emit_stopFallow (o : Out) : (s.emit o).stopFallow = s.stopFallow := rfl
@[simp] theorem State.emit_rings (o : Out) : (s.emit o).rings = s.rings := rfl
@[simp] theorem State.emit_mails (o : Out) : (s.emit o).mails = s.mails := rfl
@[simp] theorem State.emit_bootId (o : Out) : (s.emit o).bootId = s.bootId := rfl
@[simp] theorem State.emit_xl (o : Out) : (s.emit o).xl = s.xl := rfl
@[simp] theorem State.emit_tm (o : Out) : (s.emit o).tm = s.tm := rfl
@[simp] theorem State.emit_boot (o : Out) : (s.emit o).boot = s.boot := rfl
@[simp] theorem State.emit_integ (o : Out) : (s.emit o).integ = s.integ := rfl
@[simp] theorem State.emit_mg (o : Out) : (s.emit o).mg = s.mg := rfl
@[simp] theorem State.emit_worst (o : Out) : (s.emit o).worst = s.worst := rfl
@[simp] theorem State.emit_fences (o : Out) : (s.emit o).fences = s.fences := rfl
@[simp] theorem State.emit_hostDown (o : Out) : (s.emit o).hostDown = s.hostDown := rfl

-- setDbyte
@[simp] theorem State.setDbyte_pending (a : Nat) (b : Byte) : (s.setDbyte a b).pending = s.pending := rfl
@[simp] theorem State.setDbyte_out (a : Nat) (b : Byte) : (s.setDbyte a b).out = s.out := rfl
@[simp] theorem State.setDbyte_fresh (a : Nat) (b : Byte) : (s.setDbyte a b).fresh = s.fresh := rfl
@[simp] theorem State.setDbyte_lz2048 (a : Nat) (b : Byte) : (s.setDbyte a b).lz2048 = s.lz2048 := rfl
@[simp] theorem State.setDbyte_io (a : Nat) (b : Byte) : (s.setDbyte a b).io = s.io := rfl
@[simp] theorem State.setDbyte_lawMem (a : Nat) (b : Byte) : (s.setDbyte a b).lawMem = s.lawMem := rfl
@[simp] theorem State.setDbyte_specs (a : Nat) (b : Byte) : (s.setDbyte a b).specs = s.specs := rfl
@[simp] theorem State.setDbyte_img (a : Nat) (b : Byte) : (s.setDbyte a b).img = s.img := rfl
@[simp] theorem State.setDbyte_outMaster (a : Nat) (b : Byte) : (s.setDbyte a b).outMaster = s.outMaster := rfl
@[simp] theorem State.setDbyte_outCopy (a : Nat) (b : Byte) : (s.setDbyte a b).outCopy = s.outCopy := rfl
@[simp] theorem State.setDbyte_snap (a : Nat) (b : Byte) : (s.setDbyte a b).snap = s.snap := rfl
@[simp] theorem State.setDbyte_closeVal (a : Nat) (b : Byte) : (s.setDbyte a b).closeVal = s.closeVal := rfl
@[simp] theorem State.setDbyte_closeFallow (a : Nat) (b : Byte) : (s.setDbyte a b).closeFallow = s.closeFallow := rfl
@[simp] theorem State.setDbyte_closeRew (a : Nat) (b : Byte) : (s.setDbyte a b).closeRew = s.closeRew := rfl
@[simp] theorem State.setDbyte_sampleT (a : Nat) (b : Byte) : (s.setDbyte a b).sampleT = s.sampleT := rfl
@[simp] theorem State.setDbyte_wraps (a : Nat) (b : Byte) : (s.setDbyte a b).wraps = s.wraps := rfl
@[simp] theorem State.setDbyte_t0 (a : Nat) (b : Byte) : (s.setDbyte a b).t0 = s.t0 := rfl
@[simp] theorem State.setDbyte_tbStep (a : Nat) (b : Byte) : (s.setDbyte a b).tbStep = s.tbStep := rfl
@[simp] theorem State.setDbyte_cyc (a : Nat) (b : Byte) : (s.setDbyte a b).cyc = s.cyc := rfl
@[simp] theorem State.setDbyte_log (a : Nat) (b : Byte) : (s.setDbyte a b).log = s.log := rfl
@[simp] theorem State.setDbyte_lseq (a : Nat) (b : Byte) : (s.setDbyte a b).lseq = s.lseq := rfl
@[simp] theorem State.setDbyte_evStage (a : Nat) (b : Byte) : (s.setDbyte a b).evStage = s.evStage := rfl
@[simp] theorem State.setDbyte_evNvm (a : Nat) (b : Byte) : (s.setDbyte a b).evNvm = s.evNvm := rfl
@[simp] theorem State.setDbyte_evLost (a : Nat) (b : Byte) : (s.setDbyte a b).evLost = s.evLost := rfl
@[simp] theorem State.setDbyte_opNs (a : Nat) (b : Byte) : (s.setDbyte a b).opNs = s.opNs := rfl
@[simp] theorem State.setDbyte_pcyc (a : Nat) (b : Byte) : (s.setDbyte a b).pcyc = s.pcyc := rfl
@[simp] theorem State.setDbyte_slots (a : Nat) (b : Byte) : (s.setDbyte a b).slots = s.slots := rfl
@[simp] theorem State.setDbyte_clusters (a : Nat) (b : Byte) : (s.setDbyte a b).clusters = s.clusters := rfl
@[simp] theorem State.setDbyte_hrings (a : Nat) (b : Byte) : (s.setDbyte a b).hrings = s.hrings := rfl
@[simp] theorem State.setDbyte_lanes (a : Nat) (b : Byte) : (s.setDbyte a b).lanes = s.lanes := rfl
@[simp] theorem State.setDbyte_validating (a : Nat) (b : Byte) : (s.setDbyte a b).validating = s.validating := rfl
@[simp] theorem State.setDbyte_stns (a : Nat) (b : Byte) : (s.setDbyte a b).stns = s.stns := rfl
@[simp] theorem State.setDbyte_pairs (a : Nat) (b : Byte) : (s.setDbyte a b).pairs = s.pairs := rfl
@[simp] theorem State.setDbyte_sdis (a : Nat) (b : Byte) : (s.setDbyte a b).sdis = s.sdis := rfl
@[simp] theorem State.setDbyte_dls (a : Nat) (b : Byte) : (s.setDbyte a b).dls = s.dls := rfl
@[simp] theorem State.setDbyte_tripRuns (a : Nat) (b : Byte) : (s.setDbyte a b).tripRuns = s.tripRuns := rfl
@[simp] theorem State.setDbyte_tbShared (a : Nat) (b : Byte) : (s.setDbyte a b).tbShared = s.tbShared := rfl
@[simp] theorem State.setDbyte_axes (a : Nat) (b : Byte) : (s.setDbyte a b).axes = s.axes := rfl
@[simp] theorem State.setDbyte_hg (a : Nat) (b : Byte) : (s.setDbyte a b).hg = s.hg := rfl
@[simp] theorem State.setDbyte_edges (a : Nat) (b : Byte) : (s.setDbyte a b).edges = s.edges := rfl
@[simp] theorem State.setDbyte_streams (a : Nat) (b : Byte) : (s.setDbyte a b).streams = s.streams := rfl
@[simp] theorem State.setDbyte_opens (a : Nat) (b : Byte) : (s.setDbyte a b).opens = s.opens := rfl
@[simp] theorem State.setDbyte_groups (a : Nat) (b : Byte) : (s.setDbyte a b).groups = s.groups := rfl
@[simp] theorem State.setDbyte_recLast (a : Nat) (b : Byte) : (s.setDbyte a b).recLast = s.recLast := rfl
@[simp] theorem State.setDbyte_specPend (a : Nat) (b : Byte) : (s.setDbyte a b).specPend = s.specPend := rfl
@[simp] theorem State.setDbyte_recBytes (a : Nat) (b : Byte) : (s.setDbyte a b).recBytes = s.recBytes := rfl
@[simp] theorem State.setDbyte_stageQ (a : Nat) (b : Byte) : (s.setDbyte a b).stageQ = s.stageQ := rfl
@[simp] theorem State.setDbyte_stageAt (a : Nat) (b : Byte) : (s.setDbyte a b).stageAt = s.stageAt := rfl
@[simp] theorem State.setDbyte_ces (a : Nat) (b : Byte) : (s.setDbyte a b).ces = s.ces := rfl
@[simp] theorem State.setDbyte_pools (a : Nat) (b : Byte) : (s.setDbyte a b).pools = s.pools := rfl
@[simp] theorem State.setDbyte_winq (a : Nat) (b : Byte) : (s.setDbyte a b).winq = s.winq := rfl
@[simp] theorem State.setDbyte_winId (a : Nat) (b : Byte) : (s.setDbyte a b).winId = s.winId := rfl
@[simp] theorem State.setDbyte_tbLast (a : Nat) (b : Byte) : (s.setDbyte a b).tbLast = s.tbLast := rfl
@[simp] theorem State.setDbyte_cans (a : Nat) (b : Byte) : (s.setDbyte a b).cans = s.cans := rfl
@[simp] theorem State.setDbyte_canBad (a : Nat) (b : Byte) : (s.setDbyte a b).canBad = s.canBad := rfl
@[simp] theorem State.setDbyte_canAge (a : Nat) (b : Byte) : (s.setDbyte a b).canAge = s.canAge := rfl
@[simp] theorem State.setDbyte_tasks (a : Nat) (b : Byte) : (s.setDbyte a b).tasks = s.tasks := rfl
@[simp] theorem State.setDbyte_rss (a : Nat) (b : Byte) : (s.setDbyte a b).rss = s.rss := rfl
@[simp] theorem State.setDbyte_flows (a : Nat) (b : Byte) : (s.setDbyte a b).flows = s.flows := rfl
@[simp] theorem State.setDbyte_stopFallow (a : Nat) (b : Byte) : (s.setDbyte a b).stopFallow = s.stopFallow := rfl
@[simp] theorem State.setDbyte_rings (a : Nat) (b : Byte) : (s.setDbyte a b).rings = s.rings := rfl
@[simp] theorem State.setDbyte_mails (a : Nat) (b : Byte) : (s.setDbyte a b).mails = s.mails := rfl
@[simp] theorem State.setDbyte_bootId (a : Nat) (b : Byte) : (s.setDbyte a b).bootId = s.bootId := rfl
@[simp] theorem State.setDbyte_xl (a : Nat) (b : Byte) : (s.setDbyte a b).xl = s.xl := rfl
@[simp] theorem State.setDbyte_tm (a : Nat) (b : Byte) : (s.setDbyte a b).tm = s.tm := rfl
@[simp] theorem State.setDbyte_boot (a : Nat) (b : Byte) : (s.setDbyte a b).boot = s.boot := rfl
@[simp] theorem State.setDbyte_integ (a : Nat) (b : Byte) : (s.setDbyte a b).integ = s.integ := rfl
@[simp] theorem State.setDbyte_mg (a : Nat) (b : Byte) : (s.setDbyte a b).mg = s.mg := rfl
@[simp] theorem State.setDbyte_worst (a : Nat) (b : Byte) : (s.setDbyte a b).worst = s.worst := rfl
@[simp] theorem State.setDbyte_fences (a : Nat) (b : Byte) : (s.setDbyte a b).fences = s.fences := rfl
@[simp] theorem State.setDbyte_hostDown (a : Nat) (b : Byte) : (s.setDbyte a b).hostDown = s.hostDown := rfl

-- setSlotX
@[simp] theorem State.setSlotX_pending (k : Nat) (x : SlotX) : (s.setSlotX k x).pending = s.pending := rfl
@[simp] theorem State.setSlotX_out (k : Nat) (x : SlotX) : (s.setSlotX k x).out = s.out := rfl
@[simp] theorem State.setSlotX_fresh (k : Nat) (x : SlotX) : (s.setSlotX k x).fresh = s.fresh := rfl
@[simp] theorem State.setSlotX_lz2048 (k : Nat) (x : SlotX) : (s.setSlotX k x).lz2048 = s.lz2048 := rfl
@[simp] theorem State.setSlotX_io (k : Nat) (x : SlotX) : (s.setSlotX k x).io = s.io := rfl
@[simp] theorem State.setSlotX_lawMem (k : Nat) (x : SlotX) : (s.setSlotX k x).lawMem = s.lawMem := rfl
@[simp] theorem State.setSlotX_dram (k : Nat) (x : SlotX) : (s.setSlotX k x).dram = s.dram := rfl
@[simp] theorem State.setSlotX_specs (k : Nat) (x : SlotX) : (s.setSlotX k x).specs = s.specs := rfl
@[simp] theorem State.setSlotX_img (k : Nat) (x : SlotX) : (s.setSlotX k x).img = s.img := rfl
@[simp] theorem State.setSlotX_outMaster (k : Nat) (x : SlotX) : (s.setSlotX k x).outMaster = s.outMaster := rfl
@[simp] theorem State.setSlotX_outCopy (k : Nat) (x : SlotX) : (s.setSlotX k x).outCopy = s.outCopy := rfl
@[simp] theorem State.setSlotX_snap (k : Nat) (x : SlotX) : (s.setSlotX k x).snap = s.snap := rfl
@[simp] theorem State.setSlotX_closeVal (k : Nat) (x : SlotX) : (s.setSlotX k x).closeVal = s.closeVal := rfl
@[simp] theorem State.setSlotX_closeFallow (k : Nat) (x : SlotX) : (s.setSlotX k x).closeFallow = s.closeFallow := rfl
@[simp] theorem State.setSlotX_closeRew (k : Nat) (x : SlotX) : (s.setSlotX k x).closeRew = s.closeRew := rfl
@[simp] theorem State.setSlotX_sampleT (k : Nat) (x : SlotX) : (s.setSlotX k x).sampleT = s.sampleT := rfl
@[simp] theorem State.setSlotX_wraps (k : Nat) (x : SlotX) : (s.setSlotX k x).wraps = s.wraps := rfl
@[simp] theorem State.setSlotX_t0 (k : Nat) (x : SlotX) : (s.setSlotX k x).t0 = s.t0 := rfl
@[simp] theorem State.setSlotX_tbStep (k : Nat) (x : SlotX) : (s.setSlotX k x).tbStep = s.tbStep := rfl
@[simp] theorem State.setSlotX_cyc (k : Nat) (x : SlotX) : (s.setSlotX k x).cyc = s.cyc := rfl
@[simp] theorem State.setSlotX_log (k : Nat) (x : SlotX) : (s.setSlotX k x).log = s.log := rfl
@[simp] theorem State.setSlotX_lseq (k : Nat) (x : SlotX) : (s.setSlotX k x).lseq = s.lseq := rfl
@[simp] theorem State.setSlotX_evStage (k : Nat) (x : SlotX) : (s.setSlotX k x).evStage = s.evStage := rfl
@[simp] theorem State.setSlotX_evNvm (k : Nat) (x : SlotX) : (s.setSlotX k x).evNvm = s.evNvm := rfl
@[simp] theorem State.setSlotX_evLost (k : Nat) (x : SlotX) : (s.setSlotX k x).evLost = s.evLost := rfl
@[simp] theorem State.setSlotX_opNs (k : Nat) (x : SlotX) : (s.setSlotX k x).opNs = s.opNs := rfl
@[simp] theorem State.setSlotX_pcyc (k : Nat) (x : SlotX) : (s.setSlotX k x).pcyc = s.pcyc := rfl
@[simp] theorem State.setSlotX_clusters (k : Nat) (x : SlotX) : (s.setSlotX k x).clusters = s.clusters := rfl
@[simp] theorem State.setSlotX_hrings (k : Nat) (x : SlotX) : (s.setSlotX k x).hrings = s.hrings := rfl
@[simp] theorem State.setSlotX_lanes (k : Nat) (x : SlotX) : (s.setSlotX k x).lanes = s.lanes := rfl
@[simp] theorem State.setSlotX_validating (k : Nat) (x : SlotX) : (s.setSlotX k x).validating = s.validating := rfl
@[simp] theorem State.setSlotX_stns (k : Nat) (x : SlotX) : (s.setSlotX k x).stns = s.stns := rfl
@[simp] theorem State.setSlotX_pairs (k : Nat) (x : SlotX) : (s.setSlotX k x).pairs = s.pairs := rfl
@[simp] theorem State.setSlotX_sdis (k : Nat) (x : SlotX) : (s.setSlotX k x).sdis = s.sdis := rfl
@[simp] theorem State.setSlotX_dls (k : Nat) (x : SlotX) : (s.setSlotX k x).dls = s.dls := rfl
@[simp] theorem State.setSlotX_tripRuns (k : Nat) (x : SlotX) : (s.setSlotX k x).tripRuns = s.tripRuns := rfl
@[simp] theorem State.setSlotX_tbShared (k : Nat) (x : SlotX) : (s.setSlotX k x).tbShared = s.tbShared := rfl
@[simp] theorem State.setSlotX_axes (k : Nat) (x : SlotX) : (s.setSlotX k x).axes = s.axes := rfl
@[simp] theorem State.setSlotX_hg (k : Nat) (x : SlotX) : (s.setSlotX k x).hg = s.hg := rfl
@[simp] theorem State.setSlotX_edges (k : Nat) (x : SlotX) : (s.setSlotX k x).edges = s.edges := rfl
@[simp] theorem State.setSlotX_streams (k : Nat) (x : SlotX) : (s.setSlotX k x).streams = s.streams := rfl
@[simp] theorem State.setSlotX_opens (k : Nat) (x : SlotX) : (s.setSlotX k x).opens = s.opens := rfl
@[simp] theorem State.setSlotX_groups (k : Nat) (x : SlotX) : (s.setSlotX k x).groups = s.groups := rfl
@[simp] theorem State.setSlotX_recLast (k : Nat) (x : SlotX) : (s.setSlotX k x).recLast = s.recLast := rfl
@[simp] theorem State.setSlotX_specPend (k : Nat) (x : SlotX) : (s.setSlotX k x).specPend = s.specPend := rfl
@[simp] theorem State.setSlotX_recBytes (k : Nat) (x : SlotX) : (s.setSlotX k x).recBytes = s.recBytes := rfl
@[simp] theorem State.setSlotX_stageQ (k : Nat) (x : SlotX) : (s.setSlotX k x).stageQ = s.stageQ := rfl
@[simp] theorem State.setSlotX_stageAt (k : Nat) (x : SlotX) : (s.setSlotX k x).stageAt = s.stageAt := rfl
@[simp] theorem State.setSlotX_ces (k : Nat) (x : SlotX) : (s.setSlotX k x).ces = s.ces := rfl
@[simp] theorem State.setSlotX_pools (k : Nat) (x : SlotX) : (s.setSlotX k x).pools = s.pools := rfl
@[simp] theorem State.setSlotX_winq (k : Nat) (x : SlotX) : (s.setSlotX k x).winq = s.winq := rfl
@[simp] theorem State.setSlotX_winId (k : Nat) (x : SlotX) : (s.setSlotX k x).winId = s.winId := rfl
@[simp] theorem State.setSlotX_tbLast (k : Nat) (x : SlotX) : (s.setSlotX k x).tbLast = s.tbLast := rfl
@[simp] theorem State.setSlotX_cans (k : Nat) (x : SlotX) : (s.setSlotX k x).cans = s.cans := rfl
@[simp] theorem State.setSlotX_canBad (k : Nat) (x : SlotX) : (s.setSlotX k x).canBad = s.canBad := rfl
@[simp] theorem State.setSlotX_canAge (k : Nat) (x : SlotX) : (s.setSlotX k x).canAge = s.canAge := rfl
@[simp] theorem State.setSlotX_tasks (k : Nat) (x : SlotX) : (s.setSlotX k x).tasks = s.tasks := rfl
@[simp] theorem State.setSlotX_rss (k : Nat) (x : SlotX) : (s.setSlotX k x).rss = s.rss := rfl
@[simp] theorem State.setSlotX_flows (k : Nat) (x : SlotX) : (s.setSlotX k x).flows = s.flows := rfl
@[simp] theorem State.setSlotX_stopFallow (k : Nat) (x : SlotX) : (s.setSlotX k x).stopFallow = s.stopFallow := rfl
@[simp] theorem State.setSlotX_rings (k : Nat) (x : SlotX) : (s.setSlotX k x).rings = s.rings := rfl
@[simp] theorem State.setSlotX_mails (k : Nat) (x : SlotX) : (s.setSlotX k x).mails = s.mails := rfl
@[simp] theorem State.setSlotX_bootId (k : Nat) (x : SlotX) : (s.setSlotX k x).bootId = s.bootId := rfl
@[simp] theorem State.setSlotX_xl (k : Nat) (x : SlotX) : (s.setSlotX k x).xl = s.xl := rfl
@[simp] theorem State.setSlotX_tm (k : Nat) (x : SlotX) : (s.setSlotX k x).tm = s.tm := rfl
@[simp] theorem State.setSlotX_boot (k : Nat) (x : SlotX) : (s.setSlotX k x).boot = s.boot := rfl
@[simp] theorem State.setSlotX_integ (k : Nat) (x : SlotX) : (s.setSlotX k x).integ = s.integ := rfl
@[simp] theorem State.setSlotX_mg (k : Nat) (x : SlotX) : (s.setSlotX k x).mg = s.mg := rfl
@[simp] theorem State.setSlotX_worst (k : Nat) (x : SlotX) : (s.setSlotX k x).worst = s.worst := rfl
@[simp] theorem State.setSlotX_fences (k : Nat) (x : SlotX) : (s.setSlotX k x).fences = s.fences := rfl
@[simp] theorem State.setSlotX_hostDown (k : Nat) (x : SlotX) : (s.setSlotX k x).hostDown = s.hostDown := rfl

-- setClusterX
@[simp] theorem State.setClusterX_pending (k : Nat) (x : ClusterX) : (s.setClusterX k x).pending = s.pending := rfl
@[simp] theorem State.setClusterX_out (k : Nat) (x : ClusterX) : (s.setClusterX k x).out = s.out := rfl
@[simp] theorem State.setClusterX_fresh (k : Nat) (x : ClusterX) : (s.setClusterX k x).fresh = s.fresh := rfl
@[simp] theorem State.setClusterX_lz2048 (k : Nat) (x : ClusterX) : (s.setClusterX k x).lz2048 = s.lz2048 := rfl
@[simp] theorem State.setClusterX_io (k : Nat) (x : ClusterX) : (s.setClusterX k x).io = s.io := rfl
@[simp] theorem State.setClusterX_lawMem (k : Nat) (x : ClusterX) : (s.setClusterX k x).lawMem = s.lawMem := rfl
@[simp] theorem State.setClusterX_dram (k : Nat) (x : ClusterX) : (s.setClusterX k x).dram = s.dram := rfl
@[simp] theorem State.setClusterX_specs (k : Nat) (x : ClusterX) : (s.setClusterX k x).specs = s.specs := rfl
@[simp] theorem State.setClusterX_img (k : Nat) (x : ClusterX) : (s.setClusterX k x).img = s.img := rfl
@[simp] theorem State.setClusterX_outMaster (k : Nat) (x : ClusterX) : (s.setClusterX k x).outMaster = s.outMaster := rfl
@[simp] theorem State.setClusterX_outCopy (k : Nat) (x : ClusterX) : (s.setClusterX k x).outCopy = s.outCopy := rfl
@[simp] theorem State.setClusterX_snap (k : Nat) (x : ClusterX) : (s.setClusterX k x).snap = s.snap := rfl
@[simp] theorem State.setClusterX_closeVal (k : Nat) (x : ClusterX) : (s.setClusterX k x).closeVal = s.closeVal := rfl
@[simp] theorem State.setClusterX_closeFallow (k : Nat) (x : ClusterX) : (s.setClusterX k x).closeFallow = s.closeFallow := rfl
@[simp] theorem State.setClusterX_closeRew (k : Nat) (x : ClusterX) : (s.setClusterX k x).closeRew = s.closeRew := rfl
@[simp] theorem State.setClusterX_sampleT (k : Nat) (x : ClusterX) : (s.setClusterX k x).sampleT = s.sampleT := rfl
@[simp] theorem State.setClusterX_wraps (k : Nat) (x : ClusterX) : (s.setClusterX k x).wraps = s.wraps := rfl
@[simp] theorem State.setClusterX_t0 (k : Nat) (x : ClusterX) : (s.setClusterX k x).t0 = s.t0 := rfl
@[simp] theorem State.setClusterX_tbStep (k : Nat) (x : ClusterX) : (s.setClusterX k x).tbStep = s.tbStep := rfl
@[simp] theorem State.setClusterX_cyc (k : Nat) (x : ClusterX) : (s.setClusterX k x).cyc = s.cyc := rfl
@[simp] theorem State.setClusterX_log (k : Nat) (x : ClusterX) : (s.setClusterX k x).log = s.log := rfl
@[simp] theorem State.setClusterX_lseq (k : Nat) (x : ClusterX) : (s.setClusterX k x).lseq = s.lseq := rfl
@[simp] theorem State.setClusterX_evStage (k : Nat) (x : ClusterX) : (s.setClusterX k x).evStage = s.evStage := rfl
@[simp] theorem State.setClusterX_evNvm (k : Nat) (x : ClusterX) : (s.setClusterX k x).evNvm = s.evNvm := rfl
@[simp] theorem State.setClusterX_evLost (k : Nat) (x : ClusterX) : (s.setClusterX k x).evLost = s.evLost := rfl
@[simp] theorem State.setClusterX_opNs (k : Nat) (x : ClusterX) : (s.setClusterX k x).opNs = s.opNs := rfl
@[simp] theorem State.setClusterX_pcyc (k : Nat) (x : ClusterX) : (s.setClusterX k x).pcyc = s.pcyc := rfl
@[simp] theorem State.setClusterX_slots (k : Nat) (x : ClusterX) : (s.setClusterX k x).slots = s.slots := rfl
@[simp] theorem State.setClusterX_hrings (k : Nat) (x : ClusterX) : (s.setClusterX k x).hrings = s.hrings := rfl
@[simp] theorem State.setClusterX_lanes (k : Nat) (x : ClusterX) : (s.setClusterX k x).lanes = s.lanes := rfl
@[simp] theorem State.setClusterX_validating (k : Nat) (x : ClusterX) : (s.setClusterX k x).validating = s.validating := rfl
@[simp] theorem State.setClusterX_stns (k : Nat) (x : ClusterX) : (s.setClusterX k x).stns = s.stns := rfl
@[simp] theorem State.setClusterX_pairs (k : Nat) (x : ClusterX) : (s.setClusterX k x).pairs = s.pairs := rfl
@[simp] theorem State.setClusterX_sdis (k : Nat) (x : ClusterX) : (s.setClusterX k x).sdis = s.sdis := rfl
@[simp] theorem State.setClusterX_dls (k : Nat) (x : ClusterX) : (s.setClusterX k x).dls = s.dls := rfl
@[simp] theorem State.setClusterX_tripRuns (k : Nat) (x : ClusterX) : (s.setClusterX k x).tripRuns = s.tripRuns := rfl
@[simp] theorem State.setClusterX_tbShared (k : Nat) (x : ClusterX) : (s.setClusterX k x).tbShared = s.tbShared := rfl
@[simp] theorem State.setClusterX_axes (k : Nat) (x : ClusterX) : (s.setClusterX k x).axes = s.axes := rfl
@[simp] theorem State.setClusterX_hg (k : Nat) (x : ClusterX) : (s.setClusterX k x).hg = s.hg := rfl
@[simp] theorem State.setClusterX_edges (k : Nat) (x : ClusterX) : (s.setClusterX k x).edges = s.edges := rfl
@[simp] theorem State.setClusterX_streams (k : Nat) (x : ClusterX) : (s.setClusterX k x).streams = s.streams := rfl
@[simp] theorem State.setClusterX_opens (k : Nat) (x : ClusterX) : (s.setClusterX k x).opens = s.opens := rfl
@[simp] theorem State.setClusterX_groups (k : Nat) (x : ClusterX) : (s.setClusterX k x).groups = s.groups := rfl
@[simp] theorem State.setClusterX_recLast (k : Nat) (x : ClusterX) : (s.setClusterX k x).recLast = s.recLast := rfl
@[simp] theorem State.setClusterX_specPend (k : Nat) (x : ClusterX) : (s.setClusterX k x).specPend = s.specPend := rfl
@[simp] theorem State.setClusterX_recBytes (k : Nat) (x : ClusterX) : (s.setClusterX k x).recBytes = s.recBytes := rfl
@[simp] theorem State.setClusterX_stageQ (k : Nat) (x : ClusterX) : (s.setClusterX k x).stageQ = s.stageQ := rfl
@[simp] theorem State.setClusterX_stageAt (k : Nat) (x : ClusterX) : (s.setClusterX k x).stageAt = s.stageAt := rfl
@[simp] theorem State.setClusterX_ces (k : Nat) (x : ClusterX) : (s.setClusterX k x).ces = s.ces := rfl
@[simp] theorem State.setClusterX_pools (k : Nat) (x : ClusterX) : (s.setClusterX k x).pools = s.pools := rfl
@[simp] theorem State.setClusterX_winq (k : Nat) (x : ClusterX) : (s.setClusterX k x).winq = s.winq := rfl
@[simp] theorem State.setClusterX_winId (k : Nat) (x : ClusterX) : (s.setClusterX k x).winId = s.winId := rfl
@[simp] theorem State.setClusterX_tbLast (k : Nat) (x : ClusterX) : (s.setClusterX k x).tbLast = s.tbLast := rfl
@[simp] theorem State.setClusterX_cans (k : Nat) (x : ClusterX) : (s.setClusterX k x).cans = s.cans := rfl
@[simp] theorem State.setClusterX_canBad (k : Nat) (x : ClusterX) : (s.setClusterX k x).canBad = s.canBad := rfl
@[simp] theorem State.setClusterX_canAge (k : Nat) (x : ClusterX) : (s.setClusterX k x).canAge = s.canAge := rfl
@[simp] theorem State.setClusterX_tasks (k : Nat) (x : ClusterX) : (s.setClusterX k x).tasks = s.tasks := rfl
@[simp] theorem State.setClusterX_rss (k : Nat) (x : ClusterX) : (s.setClusterX k x).rss = s.rss := rfl
@[simp] theorem State.setClusterX_flows (k : Nat) (x : ClusterX) : (s.setClusterX k x).flows = s.flows := rfl
@[simp] theorem State.setClusterX_stopFallow (k : Nat) (x : ClusterX) : (s.setClusterX k x).stopFallow = s.stopFallow := rfl
@[simp] theorem State.setClusterX_rings (k : Nat) (x : ClusterX) : (s.setClusterX k x).rings = s.rings := rfl
@[simp] theorem State.setClusterX_mails (k : Nat) (x : ClusterX) : (s.setClusterX k x).mails = s.mails := rfl
@[simp] theorem State.setClusterX_bootId (k : Nat) (x : ClusterX) : (s.setClusterX k x).bootId = s.bootId := rfl
@[simp] theorem State.setClusterX_xl (k : Nat) (x : ClusterX) : (s.setClusterX k x).xl = s.xl := rfl
@[simp] theorem State.setClusterX_tm (k : Nat) (x : ClusterX) : (s.setClusterX k x).tm = s.tm := rfl
@[simp] theorem State.setClusterX_boot (k : Nat) (x : ClusterX) : (s.setClusterX k x).boot = s.boot := rfl
@[simp] theorem State.setClusterX_integ (k : Nat) (x : ClusterX) : (s.setClusterX k x).integ = s.integ := rfl
@[simp] theorem State.setClusterX_mg (k : Nat) (x : ClusterX) : (s.setClusterX k x).mg = s.mg := rfl
@[simp] theorem State.setClusterX_worst (k : Nat) (x : ClusterX) : (s.setClusterX k x).worst = s.worst := rfl
@[simp] theorem State.setClusterX_fences (k : Nat) (x : ClusterX) : (s.setClusterX k x).fences = s.fences := rfl
@[simp] theorem State.setClusterX_hostDown (k : Nat) (x : ClusterX) : (s.setClusterX k x).hostDown = s.hostDown := rfl

-- setHringX
@[simp] theorem State.setHringX_pending (k : Nat) (x : HRingX) : (s.setHringX k x).pending = s.pending := rfl
@[simp] theorem State.setHringX_out (k : Nat) (x : HRingX) : (s.setHringX k x).out = s.out := rfl
@[simp] theorem State.setHringX_fresh (k : Nat) (x : HRingX) : (s.setHringX k x).fresh = s.fresh := rfl
@[simp] theorem State.setHringX_lz2048 (k : Nat) (x : HRingX) : (s.setHringX k x).lz2048 = s.lz2048 := rfl
@[simp] theorem State.setHringX_io (k : Nat) (x : HRingX) : (s.setHringX k x).io = s.io := rfl
@[simp] theorem State.setHringX_lawMem (k : Nat) (x : HRingX) : (s.setHringX k x).lawMem = s.lawMem := rfl
@[simp] theorem State.setHringX_dram (k : Nat) (x : HRingX) : (s.setHringX k x).dram = s.dram := rfl
@[simp] theorem State.setHringX_specs (k : Nat) (x : HRingX) : (s.setHringX k x).specs = s.specs := rfl
@[simp] theorem State.setHringX_img (k : Nat) (x : HRingX) : (s.setHringX k x).img = s.img := rfl
@[simp] theorem State.setHringX_outMaster (k : Nat) (x : HRingX) : (s.setHringX k x).outMaster = s.outMaster := rfl
@[simp] theorem State.setHringX_outCopy (k : Nat) (x : HRingX) : (s.setHringX k x).outCopy = s.outCopy := rfl
@[simp] theorem State.setHringX_snap (k : Nat) (x : HRingX) : (s.setHringX k x).snap = s.snap := rfl
@[simp] theorem State.setHringX_closeVal (k : Nat) (x : HRingX) : (s.setHringX k x).closeVal = s.closeVal := rfl
@[simp] theorem State.setHringX_closeFallow (k : Nat) (x : HRingX) : (s.setHringX k x).closeFallow = s.closeFallow := rfl
@[simp] theorem State.setHringX_closeRew (k : Nat) (x : HRingX) : (s.setHringX k x).closeRew = s.closeRew := rfl
@[simp] theorem State.setHringX_sampleT (k : Nat) (x : HRingX) : (s.setHringX k x).sampleT = s.sampleT := rfl
@[simp] theorem State.setHringX_wraps (k : Nat) (x : HRingX) : (s.setHringX k x).wraps = s.wraps := rfl
@[simp] theorem State.setHringX_t0 (k : Nat) (x : HRingX) : (s.setHringX k x).t0 = s.t0 := rfl
@[simp] theorem State.setHringX_tbStep (k : Nat) (x : HRingX) : (s.setHringX k x).tbStep = s.tbStep := rfl
@[simp] theorem State.setHringX_cyc (k : Nat) (x : HRingX) : (s.setHringX k x).cyc = s.cyc := rfl
@[simp] theorem State.setHringX_log (k : Nat) (x : HRingX) : (s.setHringX k x).log = s.log := rfl
@[simp] theorem State.setHringX_lseq (k : Nat) (x : HRingX) : (s.setHringX k x).lseq = s.lseq := rfl
@[simp] theorem State.setHringX_evStage (k : Nat) (x : HRingX) : (s.setHringX k x).evStage = s.evStage := rfl
@[simp] theorem State.setHringX_evNvm (k : Nat) (x : HRingX) : (s.setHringX k x).evNvm = s.evNvm := rfl
@[simp] theorem State.setHringX_evLost (k : Nat) (x : HRingX) : (s.setHringX k x).evLost = s.evLost := rfl
@[simp] theorem State.setHringX_opNs (k : Nat) (x : HRingX) : (s.setHringX k x).opNs = s.opNs := rfl
@[simp] theorem State.setHringX_pcyc (k : Nat) (x : HRingX) : (s.setHringX k x).pcyc = s.pcyc := rfl
@[simp] theorem State.setHringX_slots (k : Nat) (x : HRingX) : (s.setHringX k x).slots = s.slots := rfl
@[simp] theorem State.setHringX_clusters (k : Nat) (x : HRingX) : (s.setHringX k x).clusters = s.clusters := rfl
@[simp] theorem State.setHringX_lanes (k : Nat) (x : HRingX) : (s.setHringX k x).lanes = s.lanes := rfl
@[simp] theorem State.setHringX_validating (k : Nat) (x : HRingX) : (s.setHringX k x).validating = s.validating := rfl
@[simp] theorem State.setHringX_stns (k : Nat) (x : HRingX) : (s.setHringX k x).stns = s.stns := rfl
@[simp] theorem State.setHringX_pairs (k : Nat) (x : HRingX) : (s.setHringX k x).pairs = s.pairs := rfl
@[simp] theorem State.setHringX_sdis (k : Nat) (x : HRingX) : (s.setHringX k x).sdis = s.sdis := rfl
@[simp] theorem State.setHringX_dls (k : Nat) (x : HRingX) : (s.setHringX k x).dls = s.dls := rfl
@[simp] theorem State.setHringX_tripRuns (k : Nat) (x : HRingX) : (s.setHringX k x).tripRuns = s.tripRuns := rfl
@[simp] theorem State.setHringX_tbShared (k : Nat) (x : HRingX) : (s.setHringX k x).tbShared = s.tbShared := rfl
@[simp] theorem State.setHringX_axes (k : Nat) (x : HRingX) : (s.setHringX k x).axes = s.axes := rfl
@[simp] theorem State.setHringX_hg (k : Nat) (x : HRingX) : (s.setHringX k x).hg = s.hg := rfl
@[simp] theorem State.setHringX_edges (k : Nat) (x : HRingX) : (s.setHringX k x).edges = s.edges := rfl
@[simp] theorem State.setHringX_streams (k : Nat) (x : HRingX) : (s.setHringX k x).streams = s.streams := rfl
@[simp] theorem State.setHringX_opens (k : Nat) (x : HRingX) : (s.setHringX k x).opens = s.opens := rfl
@[simp] theorem State.setHringX_groups (k : Nat) (x : HRingX) : (s.setHringX k x).groups = s.groups := rfl
@[simp] theorem State.setHringX_recLast (k : Nat) (x : HRingX) : (s.setHringX k x).recLast = s.recLast := rfl
@[simp] theorem State.setHringX_specPend (k : Nat) (x : HRingX) : (s.setHringX k x).specPend = s.specPend := rfl
@[simp] theorem State.setHringX_recBytes (k : Nat) (x : HRingX) : (s.setHringX k x).recBytes = s.recBytes := rfl
@[simp] theorem State.setHringX_stageQ (k : Nat) (x : HRingX) : (s.setHringX k x).stageQ = s.stageQ := rfl
@[simp] theorem State.setHringX_stageAt (k : Nat) (x : HRingX) : (s.setHringX k x).stageAt = s.stageAt := rfl
@[simp] theorem State.setHringX_ces (k : Nat) (x : HRingX) : (s.setHringX k x).ces = s.ces := rfl
@[simp] theorem State.setHringX_pools (k : Nat) (x : HRingX) : (s.setHringX k x).pools = s.pools := rfl
@[simp] theorem State.setHringX_winq (k : Nat) (x : HRingX) : (s.setHringX k x).winq = s.winq := rfl
@[simp] theorem State.setHringX_winId (k : Nat) (x : HRingX) : (s.setHringX k x).winId = s.winId := rfl
@[simp] theorem State.setHringX_tbLast (k : Nat) (x : HRingX) : (s.setHringX k x).tbLast = s.tbLast := rfl
@[simp] theorem State.setHringX_cans (k : Nat) (x : HRingX) : (s.setHringX k x).cans = s.cans := rfl
@[simp] theorem State.setHringX_canBad (k : Nat) (x : HRingX) : (s.setHringX k x).canBad = s.canBad := rfl
@[simp] theorem State.setHringX_canAge (k : Nat) (x : HRingX) : (s.setHringX k x).canAge = s.canAge := rfl
@[simp] theorem State.setHringX_tasks (k : Nat) (x : HRingX) : (s.setHringX k x).tasks = s.tasks := rfl
@[simp] theorem State.setHringX_rss (k : Nat) (x : HRingX) : (s.setHringX k x).rss = s.rss := rfl
@[simp] theorem State.setHringX_flows (k : Nat) (x : HRingX) : (s.setHringX k x).flows = s.flows := rfl
@[simp] theorem State.setHringX_stopFallow (k : Nat) (x : HRingX) : (s.setHringX k x).stopFallow = s.stopFallow := rfl
@[simp] theorem State.setHringX_rings (k : Nat) (x : HRingX) : (s.setHringX k x).rings = s.rings := rfl
@[simp] theorem State.setHringX_mails (k : Nat) (x : HRingX) : (s.setHringX k x).mails = s.mails := rfl
@[simp] theorem State.setHringX_bootId (k : Nat) (x : HRingX) : (s.setHringX k x).bootId = s.bootId := rfl
@[simp] theorem State.setHringX_xl (k : Nat) (x : HRingX) : (s.setHringX k x).xl = s.xl := rfl
@[simp] theorem State.setHringX_tm (k : Nat) (x : HRingX) : (s.setHringX k x).tm = s.tm := rfl
@[simp] theorem State.setHringX_boot (k : Nat) (x : HRingX) : (s.setHringX k x).boot = s.boot := rfl
@[simp] theorem State.setHringX_integ (k : Nat) (x : HRingX) : (s.setHringX k x).integ = s.integ := rfl
@[simp] theorem State.setHringX_mg (k : Nat) (x : HRingX) : (s.setHringX k x).mg = s.mg := rfl
@[simp] theorem State.setHringX_worst (k : Nat) (x : HRingX) : (s.setHringX k x).worst = s.worst := rfl
@[simp] theorem State.setHringX_fences (k : Nat) (x : HRingX) : (s.setHringX k x).fences = s.fences := rfl
@[simp] theorem State.setHringX_hostDown (k : Nat) (x : HRingX) : (s.setHringX k x).hostDown = s.hostDown := rfl

-- setLaneX
@[simp] theorem State.setLaneX_pending (k : Nat) (x : LaneX) : (s.setLaneX k x).pending = s.pending := rfl
@[simp] theorem State.setLaneX_out (k : Nat) (x : LaneX) : (s.setLaneX k x).out = s.out := rfl
@[simp] theorem State.setLaneX_fresh (k : Nat) (x : LaneX) : (s.setLaneX k x).fresh = s.fresh := rfl
@[simp] theorem State.setLaneX_lz2048 (k : Nat) (x : LaneX) : (s.setLaneX k x).lz2048 = s.lz2048 := rfl
@[simp] theorem State.setLaneX_io (k : Nat) (x : LaneX) : (s.setLaneX k x).io = s.io := rfl
@[simp] theorem State.setLaneX_lawMem (k : Nat) (x : LaneX) : (s.setLaneX k x).lawMem = s.lawMem := rfl
@[simp] theorem State.setLaneX_dram (k : Nat) (x : LaneX) : (s.setLaneX k x).dram = s.dram := rfl
@[simp] theorem State.setLaneX_specs (k : Nat) (x : LaneX) : (s.setLaneX k x).specs = s.specs := rfl
@[simp] theorem State.setLaneX_img (k : Nat) (x : LaneX) : (s.setLaneX k x).img = s.img := rfl
@[simp] theorem State.setLaneX_outMaster (k : Nat) (x : LaneX) : (s.setLaneX k x).outMaster = s.outMaster := rfl
@[simp] theorem State.setLaneX_outCopy (k : Nat) (x : LaneX) : (s.setLaneX k x).outCopy = s.outCopy := rfl
@[simp] theorem State.setLaneX_snap (k : Nat) (x : LaneX) : (s.setLaneX k x).snap = s.snap := rfl
@[simp] theorem State.setLaneX_closeVal (k : Nat) (x : LaneX) : (s.setLaneX k x).closeVal = s.closeVal := rfl
@[simp] theorem State.setLaneX_closeFallow (k : Nat) (x : LaneX) : (s.setLaneX k x).closeFallow = s.closeFallow := rfl
@[simp] theorem State.setLaneX_closeRew (k : Nat) (x : LaneX) : (s.setLaneX k x).closeRew = s.closeRew := rfl
@[simp] theorem State.setLaneX_sampleT (k : Nat) (x : LaneX) : (s.setLaneX k x).sampleT = s.sampleT := rfl
@[simp] theorem State.setLaneX_wraps (k : Nat) (x : LaneX) : (s.setLaneX k x).wraps = s.wraps := rfl
@[simp] theorem State.setLaneX_t0 (k : Nat) (x : LaneX) : (s.setLaneX k x).t0 = s.t0 := rfl
@[simp] theorem State.setLaneX_tbStep (k : Nat) (x : LaneX) : (s.setLaneX k x).tbStep = s.tbStep := rfl
@[simp] theorem State.setLaneX_cyc (k : Nat) (x : LaneX) : (s.setLaneX k x).cyc = s.cyc := rfl
@[simp] theorem State.setLaneX_log (k : Nat) (x : LaneX) : (s.setLaneX k x).log = s.log := rfl
@[simp] theorem State.setLaneX_lseq (k : Nat) (x : LaneX) : (s.setLaneX k x).lseq = s.lseq := rfl
@[simp] theorem State.setLaneX_evStage (k : Nat) (x : LaneX) : (s.setLaneX k x).evStage = s.evStage := rfl
@[simp] theorem State.setLaneX_evNvm (k : Nat) (x : LaneX) : (s.setLaneX k x).evNvm = s.evNvm := rfl
@[simp] theorem State.setLaneX_evLost (k : Nat) (x : LaneX) : (s.setLaneX k x).evLost = s.evLost := rfl
@[simp] theorem State.setLaneX_opNs (k : Nat) (x : LaneX) : (s.setLaneX k x).opNs = s.opNs := rfl
@[simp] theorem State.setLaneX_pcyc (k : Nat) (x : LaneX) : (s.setLaneX k x).pcyc = s.pcyc := rfl
@[simp] theorem State.setLaneX_slots (k : Nat) (x : LaneX) : (s.setLaneX k x).slots = s.slots := rfl
@[simp] theorem State.setLaneX_clusters (k : Nat) (x : LaneX) : (s.setLaneX k x).clusters = s.clusters := rfl
@[simp] theorem State.setLaneX_hrings (k : Nat) (x : LaneX) : (s.setLaneX k x).hrings = s.hrings := rfl
@[simp] theorem State.setLaneX_validating (k : Nat) (x : LaneX) : (s.setLaneX k x).validating = s.validating := rfl
@[simp] theorem State.setLaneX_stns (k : Nat) (x : LaneX) : (s.setLaneX k x).stns = s.stns := rfl
@[simp] theorem State.setLaneX_pairs (k : Nat) (x : LaneX) : (s.setLaneX k x).pairs = s.pairs := rfl
@[simp] theorem State.setLaneX_sdis (k : Nat) (x : LaneX) : (s.setLaneX k x).sdis = s.sdis := rfl
@[simp] theorem State.setLaneX_dls (k : Nat) (x : LaneX) : (s.setLaneX k x).dls = s.dls := rfl
@[simp] theorem State.setLaneX_tripRuns (k : Nat) (x : LaneX) : (s.setLaneX k x).tripRuns = s.tripRuns := rfl
@[simp] theorem State.setLaneX_tbShared (k : Nat) (x : LaneX) : (s.setLaneX k x).tbShared = s.tbShared := rfl
@[simp] theorem State.setLaneX_axes (k : Nat) (x : LaneX) : (s.setLaneX k x).axes = s.axes := rfl
@[simp] theorem State.setLaneX_hg (k : Nat) (x : LaneX) : (s.setLaneX k x).hg = s.hg := rfl
@[simp] theorem State.setLaneX_edges (k : Nat) (x : LaneX) : (s.setLaneX k x).edges = s.edges := rfl
@[simp] theorem State.setLaneX_streams (k : Nat) (x : LaneX) : (s.setLaneX k x).streams = s.streams := rfl
@[simp] theorem State.setLaneX_opens (k : Nat) (x : LaneX) : (s.setLaneX k x).opens = s.opens := rfl
@[simp] theorem State.setLaneX_groups (k : Nat) (x : LaneX) : (s.setLaneX k x).groups = s.groups := rfl
@[simp] theorem State.setLaneX_recLast (k : Nat) (x : LaneX) : (s.setLaneX k x).recLast = s.recLast := rfl
@[simp] theorem State.setLaneX_specPend (k : Nat) (x : LaneX) : (s.setLaneX k x).specPend = s.specPend := rfl
@[simp] theorem State.setLaneX_recBytes (k : Nat) (x : LaneX) : (s.setLaneX k x).recBytes = s.recBytes := rfl
@[simp] theorem State.setLaneX_stageQ (k : Nat) (x : LaneX) : (s.setLaneX k x).stageQ = s.stageQ := rfl
@[simp] theorem State.setLaneX_stageAt (k : Nat) (x : LaneX) : (s.setLaneX k x).stageAt = s.stageAt := rfl
@[simp] theorem State.setLaneX_ces (k : Nat) (x : LaneX) : (s.setLaneX k x).ces = s.ces := rfl
@[simp] theorem State.setLaneX_pools (k : Nat) (x : LaneX) : (s.setLaneX k x).pools = s.pools := rfl
@[simp] theorem State.setLaneX_winq (k : Nat) (x : LaneX) : (s.setLaneX k x).winq = s.winq := rfl
@[simp] theorem State.setLaneX_winId (k : Nat) (x : LaneX) : (s.setLaneX k x).winId = s.winId := rfl
@[simp] theorem State.setLaneX_tbLast (k : Nat) (x : LaneX) : (s.setLaneX k x).tbLast = s.tbLast := rfl
@[simp] theorem State.setLaneX_cans (k : Nat) (x : LaneX) : (s.setLaneX k x).cans = s.cans := rfl
@[simp] theorem State.setLaneX_canBad (k : Nat) (x : LaneX) : (s.setLaneX k x).canBad = s.canBad := rfl
@[simp] theorem State.setLaneX_canAge (k : Nat) (x : LaneX) : (s.setLaneX k x).canAge = s.canAge := rfl
@[simp] theorem State.setLaneX_tasks (k : Nat) (x : LaneX) : (s.setLaneX k x).tasks = s.tasks := rfl
@[simp] theorem State.setLaneX_rss (k : Nat) (x : LaneX) : (s.setLaneX k x).rss = s.rss := rfl
@[simp] theorem State.setLaneX_flows (k : Nat) (x : LaneX) : (s.setLaneX k x).flows = s.flows := rfl
@[simp] theorem State.setLaneX_stopFallow (k : Nat) (x : LaneX) : (s.setLaneX k x).stopFallow = s.stopFallow := rfl
@[simp] theorem State.setLaneX_rings (k : Nat) (x : LaneX) : (s.setLaneX k x).rings = s.rings := rfl
@[simp] theorem State.setLaneX_mails (k : Nat) (x : LaneX) : (s.setLaneX k x).mails = s.mails := rfl
@[simp] theorem State.setLaneX_bootId (k : Nat) (x : LaneX) : (s.setLaneX k x).bootId = s.bootId := rfl
@[simp] theorem State.setLaneX_xl (k : Nat) (x : LaneX) : (s.setLaneX k x).xl = s.xl := rfl
@[simp] theorem State.setLaneX_tm (k : Nat) (x : LaneX) : (s.setLaneX k x).tm = s.tm := rfl
@[simp] theorem State.setLaneX_boot (k : Nat) (x : LaneX) : (s.setLaneX k x).boot = s.boot := rfl
@[simp] theorem State.setLaneX_integ (k : Nat) (x : LaneX) : (s.setLaneX k x).integ = s.integ := rfl
@[simp] theorem State.setLaneX_mg (k : Nat) (x : LaneX) : (s.setLaneX k x).mg = s.mg := rfl
@[simp] theorem State.setLaneX_worst (k : Nat) (x : LaneX) : (s.setLaneX k x).worst = s.worst := rfl
@[simp] theorem State.setLaneX_fences (k : Nat) (x : LaneX) : (s.setLaneX k x).fences = s.fences := rfl
@[simp] theorem State.setLaneX_hostDown (k : Nat) (x : LaneX) : (s.setLaneX k x).hostDown = s.hostDown := rfl

-- setStnX
@[simp] theorem State.setStnX_pending (k : Nat) (x : StnX) : (s.setStnX k x).pending = s.pending := rfl
@[simp] theorem State.setStnX_out (k : Nat) (x : StnX) : (s.setStnX k x).out = s.out := rfl
@[simp] theorem State.setStnX_fresh (k : Nat) (x : StnX) : (s.setStnX k x).fresh = s.fresh := rfl
@[simp] theorem State.setStnX_lz2048 (k : Nat) (x : StnX) : (s.setStnX k x).lz2048 = s.lz2048 := rfl
@[simp] theorem State.setStnX_io (k : Nat) (x : StnX) : (s.setStnX k x).io = s.io := rfl
@[simp] theorem State.setStnX_lawMem (k : Nat) (x : StnX) : (s.setStnX k x).lawMem = s.lawMem := rfl
@[simp] theorem State.setStnX_dram (k : Nat) (x : StnX) : (s.setStnX k x).dram = s.dram := rfl
@[simp] theorem State.setStnX_specs (k : Nat) (x : StnX) : (s.setStnX k x).specs = s.specs := rfl
@[simp] theorem State.setStnX_img (k : Nat) (x : StnX) : (s.setStnX k x).img = s.img := rfl
@[simp] theorem State.setStnX_outMaster (k : Nat) (x : StnX) : (s.setStnX k x).outMaster = s.outMaster := rfl
@[simp] theorem State.setStnX_outCopy (k : Nat) (x : StnX) : (s.setStnX k x).outCopy = s.outCopy := rfl
@[simp] theorem State.setStnX_snap (k : Nat) (x : StnX) : (s.setStnX k x).snap = s.snap := rfl
@[simp] theorem State.setStnX_closeVal (k : Nat) (x : StnX) : (s.setStnX k x).closeVal = s.closeVal := rfl
@[simp] theorem State.setStnX_closeFallow (k : Nat) (x : StnX) : (s.setStnX k x).closeFallow = s.closeFallow := rfl
@[simp] theorem State.setStnX_closeRew (k : Nat) (x : StnX) : (s.setStnX k x).closeRew = s.closeRew := rfl
@[simp] theorem State.setStnX_sampleT (k : Nat) (x : StnX) : (s.setStnX k x).sampleT = s.sampleT := rfl
@[simp] theorem State.setStnX_wraps (k : Nat) (x : StnX) : (s.setStnX k x).wraps = s.wraps := rfl
@[simp] theorem State.setStnX_t0 (k : Nat) (x : StnX) : (s.setStnX k x).t0 = s.t0 := rfl
@[simp] theorem State.setStnX_tbStep (k : Nat) (x : StnX) : (s.setStnX k x).tbStep = s.tbStep := rfl
@[simp] theorem State.setStnX_cyc (k : Nat) (x : StnX) : (s.setStnX k x).cyc = s.cyc := rfl
@[simp] theorem State.setStnX_log (k : Nat) (x : StnX) : (s.setStnX k x).log = s.log := rfl
@[simp] theorem State.setStnX_lseq (k : Nat) (x : StnX) : (s.setStnX k x).lseq = s.lseq := rfl
@[simp] theorem State.setStnX_evStage (k : Nat) (x : StnX) : (s.setStnX k x).evStage = s.evStage := rfl
@[simp] theorem State.setStnX_evNvm (k : Nat) (x : StnX) : (s.setStnX k x).evNvm = s.evNvm := rfl
@[simp] theorem State.setStnX_evLost (k : Nat) (x : StnX) : (s.setStnX k x).evLost = s.evLost := rfl
@[simp] theorem State.setStnX_opNs (k : Nat) (x : StnX) : (s.setStnX k x).opNs = s.opNs := rfl
@[simp] theorem State.setStnX_pcyc (k : Nat) (x : StnX) : (s.setStnX k x).pcyc = s.pcyc := rfl
@[simp] theorem State.setStnX_slots (k : Nat) (x : StnX) : (s.setStnX k x).slots = s.slots := rfl
@[simp] theorem State.setStnX_clusters (k : Nat) (x : StnX) : (s.setStnX k x).clusters = s.clusters := rfl
@[simp] theorem State.setStnX_hrings (k : Nat) (x : StnX) : (s.setStnX k x).hrings = s.hrings := rfl
@[simp] theorem State.setStnX_lanes (k : Nat) (x : StnX) : (s.setStnX k x).lanes = s.lanes := rfl
@[simp] theorem State.setStnX_validating (k : Nat) (x : StnX) : (s.setStnX k x).validating = s.validating := rfl
@[simp] theorem State.setStnX_pairs (k : Nat) (x : StnX) : (s.setStnX k x).pairs = s.pairs := rfl
@[simp] theorem State.setStnX_sdis (k : Nat) (x : StnX) : (s.setStnX k x).sdis = s.sdis := rfl
@[simp] theorem State.setStnX_dls (k : Nat) (x : StnX) : (s.setStnX k x).dls = s.dls := rfl
@[simp] theorem State.setStnX_tripRuns (k : Nat) (x : StnX) : (s.setStnX k x).tripRuns = s.tripRuns := rfl
@[simp] theorem State.setStnX_tbShared (k : Nat) (x : StnX) : (s.setStnX k x).tbShared = s.tbShared := rfl
@[simp] theorem State.setStnX_axes (k : Nat) (x : StnX) : (s.setStnX k x).axes = s.axes := rfl
@[simp] theorem State.setStnX_hg (k : Nat) (x : StnX) : (s.setStnX k x).hg = s.hg := rfl
@[simp] theorem State.setStnX_edges (k : Nat) (x : StnX) : (s.setStnX k x).edges = s.edges := rfl
@[simp] theorem State.setStnX_streams (k : Nat) (x : StnX) : (s.setStnX k x).streams = s.streams := rfl
@[simp] theorem State.setStnX_opens (k : Nat) (x : StnX) : (s.setStnX k x).opens = s.opens := rfl
@[simp] theorem State.setStnX_groups (k : Nat) (x : StnX) : (s.setStnX k x).groups = s.groups := rfl
@[simp] theorem State.setStnX_recLast (k : Nat) (x : StnX) : (s.setStnX k x).recLast = s.recLast := rfl
@[simp] theorem State.setStnX_specPend (k : Nat) (x : StnX) : (s.setStnX k x).specPend = s.specPend := rfl
@[simp] theorem State.setStnX_recBytes (k : Nat) (x : StnX) : (s.setStnX k x).recBytes = s.recBytes := rfl
@[simp] theorem State.setStnX_stageQ (k : Nat) (x : StnX) : (s.setStnX k x).stageQ = s.stageQ := rfl
@[simp] theorem State.setStnX_stageAt (k : Nat) (x : StnX) : (s.setStnX k x).stageAt = s.stageAt := rfl
@[simp] theorem State.setStnX_ces (k : Nat) (x : StnX) : (s.setStnX k x).ces = s.ces := rfl
@[simp] theorem State.setStnX_pools (k : Nat) (x : StnX) : (s.setStnX k x).pools = s.pools := rfl
@[simp] theorem State.setStnX_winq (k : Nat) (x : StnX) : (s.setStnX k x).winq = s.winq := rfl
@[simp] theorem State.setStnX_winId (k : Nat) (x : StnX) : (s.setStnX k x).winId = s.winId := rfl
@[simp] theorem State.setStnX_tbLast (k : Nat) (x : StnX) : (s.setStnX k x).tbLast = s.tbLast := rfl
@[simp] theorem State.setStnX_cans (k : Nat) (x : StnX) : (s.setStnX k x).cans = s.cans := rfl
@[simp] theorem State.setStnX_canBad (k : Nat) (x : StnX) : (s.setStnX k x).canBad = s.canBad := rfl
@[simp] theorem State.setStnX_canAge (k : Nat) (x : StnX) : (s.setStnX k x).canAge = s.canAge := rfl
@[simp] theorem State.setStnX_tasks (k : Nat) (x : StnX) : (s.setStnX k x).tasks = s.tasks := rfl
@[simp] theorem State.setStnX_rss (k : Nat) (x : StnX) : (s.setStnX k x).rss = s.rss := rfl
@[simp] theorem State.setStnX_flows (k : Nat) (x : StnX) : (s.setStnX k x).flows = s.flows := rfl
@[simp] theorem State.setStnX_stopFallow (k : Nat) (x : StnX) : (s.setStnX k x).stopFallow = s.stopFallow := rfl
@[simp] theorem State.setStnX_rings (k : Nat) (x : StnX) : (s.setStnX k x).rings = s.rings := rfl
@[simp] theorem State.setStnX_mails (k : Nat) (x : StnX) : (s.setStnX k x).mails = s.mails := rfl
@[simp] theorem State.setStnX_bootId (k : Nat) (x : StnX) : (s.setStnX k x).bootId = s.bootId := rfl
@[simp] theorem State.setStnX_xl (k : Nat) (x : StnX) : (s.setStnX k x).xl = s.xl := rfl
@[simp] theorem State.setStnX_tm (k : Nat) (x : StnX) : (s.setStnX k x).tm = s.tm := rfl
@[simp] theorem State.setStnX_boot (k : Nat) (x : StnX) : (s.setStnX k x).boot = s.boot := rfl
@[simp] theorem State.setStnX_integ (k : Nat) (x : StnX) : (s.setStnX k x).integ = s.integ := rfl
@[simp] theorem State.setStnX_mg (k : Nat) (x : StnX) : (s.setStnX k x).mg = s.mg := rfl
@[simp] theorem State.setStnX_worst (k : Nat) (x : StnX) : (s.setStnX k x).worst = s.worst := rfl
@[simp] theorem State.setStnX_fences (k : Nat) (x : StnX) : (s.setStnX k x).fences = s.fences := rfl
@[simp] theorem State.setStnX_hostDown (k : Nat) (x : StnX) : (s.setStnX k x).hostDown = s.hostDown := rfl

-- setPairX
@[simp] theorem State.setPairX_pending (k : Nat) (x : PairX) : (s.setPairX k x).pending = s.pending := rfl
@[simp] theorem State.setPairX_out (k : Nat) (x : PairX) : (s.setPairX k x).out = s.out := rfl
@[simp] theorem State.setPairX_fresh (k : Nat) (x : PairX) : (s.setPairX k x).fresh = s.fresh := rfl
@[simp] theorem State.setPairX_lz2048 (k : Nat) (x : PairX) : (s.setPairX k x).lz2048 = s.lz2048 := rfl
@[simp] theorem State.setPairX_io (k : Nat) (x : PairX) : (s.setPairX k x).io = s.io := rfl
@[simp] theorem State.setPairX_lawMem (k : Nat) (x : PairX) : (s.setPairX k x).lawMem = s.lawMem := rfl
@[simp] theorem State.setPairX_dram (k : Nat) (x : PairX) : (s.setPairX k x).dram = s.dram := rfl
@[simp] theorem State.setPairX_specs (k : Nat) (x : PairX) : (s.setPairX k x).specs = s.specs := rfl
@[simp] theorem State.setPairX_img (k : Nat) (x : PairX) : (s.setPairX k x).img = s.img := rfl
@[simp] theorem State.setPairX_outMaster (k : Nat) (x : PairX) : (s.setPairX k x).outMaster = s.outMaster := rfl
@[simp] theorem State.setPairX_outCopy (k : Nat) (x : PairX) : (s.setPairX k x).outCopy = s.outCopy := rfl
@[simp] theorem State.setPairX_snap (k : Nat) (x : PairX) : (s.setPairX k x).snap = s.snap := rfl
@[simp] theorem State.setPairX_closeVal (k : Nat) (x : PairX) : (s.setPairX k x).closeVal = s.closeVal := rfl
@[simp] theorem State.setPairX_closeFallow (k : Nat) (x : PairX) : (s.setPairX k x).closeFallow = s.closeFallow := rfl
@[simp] theorem State.setPairX_closeRew (k : Nat) (x : PairX) : (s.setPairX k x).closeRew = s.closeRew := rfl
@[simp] theorem State.setPairX_sampleT (k : Nat) (x : PairX) : (s.setPairX k x).sampleT = s.sampleT := rfl
@[simp] theorem State.setPairX_wraps (k : Nat) (x : PairX) : (s.setPairX k x).wraps = s.wraps := rfl
@[simp] theorem State.setPairX_t0 (k : Nat) (x : PairX) : (s.setPairX k x).t0 = s.t0 := rfl
@[simp] theorem State.setPairX_tbStep (k : Nat) (x : PairX) : (s.setPairX k x).tbStep = s.tbStep := rfl
@[simp] theorem State.setPairX_cyc (k : Nat) (x : PairX) : (s.setPairX k x).cyc = s.cyc := rfl
@[simp] theorem State.setPairX_log (k : Nat) (x : PairX) : (s.setPairX k x).log = s.log := rfl
@[simp] theorem State.setPairX_lseq (k : Nat) (x : PairX) : (s.setPairX k x).lseq = s.lseq := rfl
@[simp] theorem State.setPairX_evStage (k : Nat) (x : PairX) : (s.setPairX k x).evStage = s.evStage := rfl
@[simp] theorem State.setPairX_evNvm (k : Nat) (x : PairX) : (s.setPairX k x).evNvm = s.evNvm := rfl
@[simp] theorem State.setPairX_evLost (k : Nat) (x : PairX) : (s.setPairX k x).evLost = s.evLost := rfl
@[simp] theorem State.setPairX_opNs (k : Nat) (x : PairX) : (s.setPairX k x).opNs = s.opNs := rfl
@[simp] theorem State.setPairX_pcyc (k : Nat) (x : PairX) : (s.setPairX k x).pcyc = s.pcyc := rfl
@[simp] theorem State.setPairX_slots (k : Nat) (x : PairX) : (s.setPairX k x).slots = s.slots := rfl
@[simp] theorem State.setPairX_clusters (k : Nat) (x : PairX) : (s.setPairX k x).clusters = s.clusters := rfl
@[simp] theorem State.setPairX_hrings (k : Nat) (x : PairX) : (s.setPairX k x).hrings = s.hrings := rfl
@[simp] theorem State.setPairX_lanes (k : Nat) (x : PairX) : (s.setPairX k x).lanes = s.lanes := rfl
@[simp] theorem State.setPairX_validating (k : Nat) (x : PairX) : (s.setPairX k x).validating = s.validating := rfl
@[simp] theorem State.setPairX_stns (k : Nat) (x : PairX) : (s.setPairX k x).stns = s.stns := rfl
@[simp] theorem State.setPairX_sdis (k : Nat) (x : PairX) : (s.setPairX k x).sdis = s.sdis := rfl
@[simp] theorem State.setPairX_dls (k : Nat) (x : PairX) : (s.setPairX k x).dls = s.dls := rfl
@[simp] theorem State.setPairX_tripRuns (k : Nat) (x : PairX) : (s.setPairX k x).tripRuns = s.tripRuns := rfl
@[simp] theorem State.setPairX_tbShared (k : Nat) (x : PairX) : (s.setPairX k x).tbShared = s.tbShared := rfl
@[simp] theorem State.setPairX_axes (k : Nat) (x : PairX) : (s.setPairX k x).axes = s.axes := rfl
@[simp] theorem State.setPairX_hg (k : Nat) (x : PairX) : (s.setPairX k x).hg = s.hg := rfl
@[simp] theorem State.setPairX_edges (k : Nat) (x : PairX) : (s.setPairX k x).edges = s.edges := rfl
@[simp] theorem State.setPairX_streams (k : Nat) (x : PairX) : (s.setPairX k x).streams = s.streams := rfl
@[simp] theorem State.setPairX_opens (k : Nat) (x : PairX) : (s.setPairX k x).opens = s.opens := rfl
@[simp] theorem State.setPairX_groups (k : Nat) (x : PairX) : (s.setPairX k x).groups = s.groups := rfl
@[simp] theorem State.setPairX_recLast (k : Nat) (x : PairX) : (s.setPairX k x).recLast = s.recLast := rfl
@[simp] theorem State.setPairX_specPend (k : Nat) (x : PairX) : (s.setPairX k x).specPend = s.specPend := rfl
@[simp] theorem State.setPairX_recBytes (k : Nat) (x : PairX) : (s.setPairX k x).recBytes = s.recBytes := rfl
@[simp] theorem State.setPairX_stageQ (k : Nat) (x : PairX) : (s.setPairX k x).stageQ = s.stageQ := rfl
@[simp] theorem State.setPairX_stageAt (k : Nat) (x : PairX) : (s.setPairX k x).stageAt = s.stageAt := rfl
@[simp] theorem State.setPairX_ces (k : Nat) (x : PairX) : (s.setPairX k x).ces = s.ces := rfl
@[simp] theorem State.setPairX_pools (k : Nat) (x : PairX) : (s.setPairX k x).pools = s.pools := rfl
@[simp] theorem State.setPairX_winq (k : Nat) (x : PairX) : (s.setPairX k x).winq = s.winq := rfl
@[simp] theorem State.setPairX_winId (k : Nat) (x : PairX) : (s.setPairX k x).winId = s.winId := rfl
@[simp] theorem State.setPairX_tbLast (k : Nat) (x : PairX) : (s.setPairX k x).tbLast = s.tbLast := rfl
@[simp] theorem State.setPairX_cans (k : Nat) (x : PairX) : (s.setPairX k x).cans = s.cans := rfl
@[simp] theorem State.setPairX_canBad (k : Nat) (x : PairX) : (s.setPairX k x).canBad = s.canBad := rfl
@[simp] theorem State.setPairX_canAge (k : Nat) (x : PairX) : (s.setPairX k x).canAge = s.canAge := rfl
@[simp] theorem State.setPairX_tasks (k : Nat) (x : PairX) : (s.setPairX k x).tasks = s.tasks := rfl
@[simp] theorem State.setPairX_rss (k : Nat) (x : PairX) : (s.setPairX k x).rss = s.rss := rfl
@[simp] theorem State.setPairX_flows (k : Nat) (x : PairX) : (s.setPairX k x).flows = s.flows := rfl
@[simp] theorem State.setPairX_stopFallow (k : Nat) (x : PairX) : (s.setPairX k x).stopFallow = s.stopFallow := rfl
@[simp] theorem State.setPairX_rings (k : Nat) (x : PairX) : (s.setPairX k x).rings = s.rings := rfl
@[simp] theorem State.setPairX_mails (k : Nat) (x : PairX) : (s.setPairX k x).mails = s.mails := rfl
@[simp] theorem State.setPairX_bootId (k : Nat) (x : PairX) : (s.setPairX k x).bootId = s.bootId := rfl
@[simp] theorem State.setPairX_xl (k : Nat) (x : PairX) : (s.setPairX k x).xl = s.xl := rfl
@[simp] theorem State.setPairX_tm (k : Nat) (x : PairX) : (s.setPairX k x).tm = s.tm := rfl
@[simp] theorem State.setPairX_boot (k : Nat) (x : PairX) : (s.setPairX k x).boot = s.boot := rfl
@[simp] theorem State.setPairX_integ (k : Nat) (x : PairX) : (s.setPairX k x).integ = s.integ := rfl
@[simp] theorem State.setPairX_mg (k : Nat) (x : PairX) : (s.setPairX k x).mg = s.mg := rfl
@[simp] theorem State.setPairX_worst (k : Nat) (x : PairX) : (s.setPairX k x).worst = s.worst := rfl
@[simp] theorem State.setPairX_fences (k : Nat) (x : PairX) : (s.setPairX k x).fences = s.fences := rfl
@[simp] theorem State.setPairX_hostDown (k : Nat) (x : PairX) : (s.setPairX k x).hostDown = s.hostDown := rfl

-- setSdiX
@[simp] theorem State.setSdiX_pending (k : Nat) (x : SdiX) : (s.setSdiX k x).pending = s.pending := rfl
@[simp] theorem State.setSdiX_out (k : Nat) (x : SdiX) : (s.setSdiX k x).out = s.out := rfl
@[simp] theorem State.setSdiX_fresh (k : Nat) (x : SdiX) : (s.setSdiX k x).fresh = s.fresh := rfl
@[simp] theorem State.setSdiX_lz2048 (k : Nat) (x : SdiX) : (s.setSdiX k x).lz2048 = s.lz2048 := rfl
@[simp] theorem State.setSdiX_io (k : Nat) (x : SdiX) : (s.setSdiX k x).io = s.io := rfl
@[simp] theorem State.setSdiX_lawMem (k : Nat) (x : SdiX) : (s.setSdiX k x).lawMem = s.lawMem := rfl
@[simp] theorem State.setSdiX_dram (k : Nat) (x : SdiX) : (s.setSdiX k x).dram = s.dram := rfl
@[simp] theorem State.setSdiX_specs (k : Nat) (x : SdiX) : (s.setSdiX k x).specs = s.specs := rfl
@[simp] theorem State.setSdiX_img (k : Nat) (x : SdiX) : (s.setSdiX k x).img = s.img := rfl
@[simp] theorem State.setSdiX_outMaster (k : Nat) (x : SdiX) : (s.setSdiX k x).outMaster = s.outMaster := rfl
@[simp] theorem State.setSdiX_outCopy (k : Nat) (x : SdiX) : (s.setSdiX k x).outCopy = s.outCopy := rfl
@[simp] theorem State.setSdiX_snap (k : Nat) (x : SdiX) : (s.setSdiX k x).snap = s.snap := rfl
@[simp] theorem State.setSdiX_closeVal (k : Nat) (x : SdiX) : (s.setSdiX k x).closeVal = s.closeVal := rfl
@[simp] theorem State.setSdiX_closeFallow (k : Nat) (x : SdiX) : (s.setSdiX k x).closeFallow = s.closeFallow := rfl
@[simp] theorem State.setSdiX_closeRew (k : Nat) (x : SdiX) : (s.setSdiX k x).closeRew = s.closeRew := rfl
@[simp] theorem State.setSdiX_sampleT (k : Nat) (x : SdiX) : (s.setSdiX k x).sampleT = s.sampleT := rfl
@[simp] theorem State.setSdiX_wraps (k : Nat) (x : SdiX) : (s.setSdiX k x).wraps = s.wraps := rfl
@[simp] theorem State.setSdiX_t0 (k : Nat) (x : SdiX) : (s.setSdiX k x).t0 = s.t0 := rfl
@[simp] theorem State.setSdiX_tbStep (k : Nat) (x : SdiX) : (s.setSdiX k x).tbStep = s.tbStep := rfl
@[simp] theorem State.setSdiX_cyc (k : Nat) (x : SdiX) : (s.setSdiX k x).cyc = s.cyc := rfl
@[simp] theorem State.setSdiX_log (k : Nat) (x : SdiX) : (s.setSdiX k x).log = s.log := rfl
@[simp] theorem State.setSdiX_lseq (k : Nat) (x : SdiX) : (s.setSdiX k x).lseq = s.lseq := rfl
@[simp] theorem State.setSdiX_evStage (k : Nat) (x : SdiX) : (s.setSdiX k x).evStage = s.evStage := rfl
@[simp] theorem State.setSdiX_evNvm (k : Nat) (x : SdiX) : (s.setSdiX k x).evNvm = s.evNvm := rfl
@[simp] theorem State.setSdiX_evLost (k : Nat) (x : SdiX) : (s.setSdiX k x).evLost = s.evLost := rfl
@[simp] theorem State.setSdiX_opNs (k : Nat) (x : SdiX) : (s.setSdiX k x).opNs = s.opNs := rfl
@[simp] theorem State.setSdiX_pcyc (k : Nat) (x : SdiX) : (s.setSdiX k x).pcyc = s.pcyc := rfl
@[simp] theorem State.setSdiX_slots (k : Nat) (x : SdiX) : (s.setSdiX k x).slots = s.slots := rfl
@[simp] theorem State.setSdiX_clusters (k : Nat) (x : SdiX) : (s.setSdiX k x).clusters = s.clusters := rfl
@[simp] theorem State.setSdiX_hrings (k : Nat) (x : SdiX) : (s.setSdiX k x).hrings = s.hrings := rfl
@[simp] theorem State.setSdiX_lanes (k : Nat) (x : SdiX) : (s.setSdiX k x).lanes = s.lanes := rfl
@[simp] theorem State.setSdiX_validating (k : Nat) (x : SdiX) : (s.setSdiX k x).validating = s.validating := rfl
@[simp] theorem State.setSdiX_stns (k : Nat) (x : SdiX) : (s.setSdiX k x).stns = s.stns := rfl
@[simp] theorem State.setSdiX_pairs (k : Nat) (x : SdiX) : (s.setSdiX k x).pairs = s.pairs := rfl
@[simp] theorem State.setSdiX_dls (k : Nat) (x : SdiX) : (s.setSdiX k x).dls = s.dls := rfl
@[simp] theorem State.setSdiX_tripRuns (k : Nat) (x : SdiX) : (s.setSdiX k x).tripRuns = s.tripRuns := rfl
@[simp] theorem State.setSdiX_tbShared (k : Nat) (x : SdiX) : (s.setSdiX k x).tbShared = s.tbShared := rfl
@[simp] theorem State.setSdiX_axes (k : Nat) (x : SdiX) : (s.setSdiX k x).axes = s.axes := rfl
@[simp] theorem State.setSdiX_hg (k : Nat) (x : SdiX) : (s.setSdiX k x).hg = s.hg := rfl
@[simp] theorem State.setSdiX_edges (k : Nat) (x : SdiX) : (s.setSdiX k x).edges = s.edges := rfl
@[simp] theorem State.setSdiX_streams (k : Nat) (x : SdiX) : (s.setSdiX k x).streams = s.streams := rfl
@[simp] theorem State.setSdiX_opens (k : Nat) (x : SdiX) : (s.setSdiX k x).opens = s.opens := rfl
@[simp] theorem State.setSdiX_groups (k : Nat) (x : SdiX) : (s.setSdiX k x).groups = s.groups := rfl
@[simp] theorem State.setSdiX_recLast (k : Nat) (x : SdiX) : (s.setSdiX k x).recLast = s.recLast := rfl
@[simp] theorem State.setSdiX_specPend (k : Nat) (x : SdiX) : (s.setSdiX k x).specPend = s.specPend := rfl
@[simp] theorem State.setSdiX_recBytes (k : Nat) (x : SdiX) : (s.setSdiX k x).recBytes = s.recBytes := rfl
@[simp] theorem State.setSdiX_stageQ (k : Nat) (x : SdiX) : (s.setSdiX k x).stageQ = s.stageQ := rfl
@[simp] theorem State.setSdiX_stageAt (k : Nat) (x : SdiX) : (s.setSdiX k x).stageAt = s.stageAt := rfl
@[simp] theorem State.setSdiX_ces (k : Nat) (x : SdiX) : (s.setSdiX k x).ces = s.ces := rfl
@[simp] theorem State.setSdiX_pools (k : Nat) (x : SdiX) : (s.setSdiX k x).pools = s.pools := rfl
@[simp] theorem State.setSdiX_winq (k : Nat) (x : SdiX) : (s.setSdiX k x).winq = s.winq := rfl
@[simp] theorem State.setSdiX_winId (k : Nat) (x : SdiX) : (s.setSdiX k x).winId = s.winId := rfl
@[simp] theorem State.setSdiX_tbLast (k : Nat) (x : SdiX) : (s.setSdiX k x).tbLast = s.tbLast := rfl
@[simp] theorem State.setSdiX_cans (k : Nat) (x : SdiX) : (s.setSdiX k x).cans = s.cans := rfl
@[simp] theorem State.setSdiX_canBad (k : Nat) (x : SdiX) : (s.setSdiX k x).canBad = s.canBad := rfl
@[simp] theorem State.setSdiX_canAge (k : Nat) (x : SdiX) : (s.setSdiX k x).canAge = s.canAge := rfl
@[simp] theorem State.setSdiX_tasks (k : Nat) (x : SdiX) : (s.setSdiX k x).tasks = s.tasks := rfl
@[simp] theorem State.setSdiX_rss (k : Nat) (x : SdiX) : (s.setSdiX k x).rss = s.rss := rfl
@[simp] theorem State.setSdiX_flows (k : Nat) (x : SdiX) : (s.setSdiX k x).flows = s.flows := rfl
@[simp] theorem State.setSdiX_stopFallow (k : Nat) (x : SdiX) : (s.setSdiX k x).stopFallow = s.stopFallow := rfl
@[simp] theorem State.setSdiX_rings (k : Nat) (x : SdiX) : (s.setSdiX k x).rings = s.rings := rfl
@[simp] theorem State.setSdiX_mails (k : Nat) (x : SdiX) : (s.setSdiX k x).mails = s.mails := rfl
@[simp] theorem State.setSdiX_bootId (k : Nat) (x : SdiX) : (s.setSdiX k x).bootId = s.bootId := rfl
@[simp] theorem State.setSdiX_xl (k : Nat) (x : SdiX) : (s.setSdiX k x).xl = s.xl := rfl
@[simp] theorem State.setSdiX_tm (k : Nat) (x : SdiX) : (s.setSdiX k x).tm = s.tm := rfl
@[simp] theorem State.setSdiX_boot (k : Nat) (x : SdiX) : (s.setSdiX k x).boot = s.boot := rfl
@[simp] theorem State.setSdiX_integ (k : Nat) (x : SdiX) : (s.setSdiX k x).integ = s.integ := rfl
@[simp] theorem State.setSdiX_mg (k : Nat) (x : SdiX) : (s.setSdiX k x).mg = s.mg := rfl
@[simp] theorem State.setSdiX_worst (k : Nat) (x : SdiX) : (s.setSdiX k x).worst = s.worst := rfl
@[simp] theorem State.setSdiX_fences (k : Nat) (x : SdiX) : (s.setSdiX k x).fences = s.fences := rfl
@[simp] theorem State.setSdiX_hostDown (k : Nat) (x : SdiX) : (s.setSdiX k x).hostDown = s.hostDown := rfl

-- setDlX
@[simp] theorem State.setDlX_pending (k : Nat) (x : DlX) : (s.setDlX k x).pending = s.pending := rfl
@[simp] theorem State.setDlX_out (k : Nat) (x : DlX) : (s.setDlX k x).out = s.out := rfl
@[simp] theorem State.setDlX_fresh (k : Nat) (x : DlX) : (s.setDlX k x).fresh = s.fresh := rfl
@[simp] theorem State.setDlX_lz2048 (k : Nat) (x : DlX) : (s.setDlX k x).lz2048 = s.lz2048 := rfl
@[simp] theorem State.setDlX_io (k : Nat) (x : DlX) : (s.setDlX k x).io = s.io := rfl
@[simp] theorem State.setDlX_lawMem (k : Nat) (x : DlX) : (s.setDlX k x).lawMem = s.lawMem := rfl
@[simp] theorem State.setDlX_dram (k : Nat) (x : DlX) : (s.setDlX k x).dram = s.dram := rfl
@[simp] theorem State.setDlX_specs (k : Nat) (x : DlX) : (s.setDlX k x).specs = s.specs := rfl
@[simp] theorem State.setDlX_img (k : Nat) (x : DlX) : (s.setDlX k x).img = s.img := rfl
@[simp] theorem State.setDlX_outMaster (k : Nat) (x : DlX) : (s.setDlX k x).outMaster = s.outMaster := rfl
@[simp] theorem State.setDlX_outCopy (k : Nat) (x : DlX) : (s.setDlX k x).outCopy = s.outCopy := rfl
@[simp] theorem State.setDlX_snap (k : Nat) (x : DlX) : (s.setDlX k x).snap = s.snap := rfl
@[simp] theorem State.setDlX_closeVal (k : Nat) (x : DlX) : (s.setDlX k x).closeVal = s.closeVal := rfl
@[simp] theorem State.setDlX_closeFallow (k : Nat) (x : DlX) : (s.setDlX k x).closeFallow = s.closeFallow := rfl
@[simp] theorem State.setDlX_closeRew (k : Nat) (x : DlX) : (s.setDlX k x).closeRew = s.closeRew := rfl
@[simp] theorem State.setDlX_sampleT (k : Nat) (x : DlX) : (s.setDlX k x).sampleT = s.sampleT := rfl
@[simp] theorem State.setDlX_wraps (k : Nat) (x : DlX) : (s.setDlX k x).wraps = s.wraps := rfl
@[simp] theorem State.setDlX_t0 (k : Nat) (x : DlX) : (s.setDlX k x).t0 = s.t0 := rfl
@[simp] theorem State.setDlX_tbStep (k : Nat) (x : DlX) : (s.setDlX k x).tbStep = s.tbStep := rfl
@[simp] theorem State.setDlX_cyc (k : Nat) (x : DlX) : (s.setDlX k x).cyc = s.cyc := rfl
@[simp] theorem State.setDlX_log (k : Nat) (x : DlX) : (s.setDlX k x).log = s.log := rfl
@[simp] theorem State.setDlX_lseq (k : Nat) (x : DlX) : (s.setDlX k x).lseq = s.lseq := rfl
@[simp] theorem State.setDlX_evStage (k : Nat) (x : DlX) : (s.setDlX k x).evStage = s.evStage := rfl
@[simp] theorem State.setDlX_evNvm (k : Nat) (x : DlX) : (s.setDlX k x).evNvm = s.evNvm := rfl
@[simp] theorem State.setDlX_evLost (k : Nat) (x : DlX) : (s.setDlX k x).evLost = s.evLost := rfl
@[simp] theorem State.setDlX_opNs (k : Nat) (x : DlX) : (s.setDlX k x).opNs = s.opNs := rfl
@[simp] theorem State.setDlX_pcyc (k : Nat) (x : DlX) : (s.setDlX k x).pcyc = s.pcyc := rfl
@[simp] theorem State.setDlX_slots (k : Nat) (x : DlX) : (s.setDlX k x).slots = s.slots := rfl
@[simp] theorem State.setDlX_clusters (k : Nat) (x : DlX) : (s.setDlX k x).clusters = s.clusters := rfl
@[simp] theorem State.setDlX_hrings (k : Nat) (x : DlX) : (s.setDlX k x).hrings = s.hrings := rfl
@[simp] theorem State.setDlX_lanes (k : Nat) (x : DlX) : (s.setDlX k x).lanes = s.lanes := rfl
@[simp] theorem State.setDlX_validating (k : Nat) (x : DlX) : (s.setDlX k x).validating = s.validating := rfl
@[simp] theorem State.setDlX_stns (k : Nat) (x : DlX) : (s.setDlX k x).stns = s.stns := rfl
@[simp] theorem State.setDlX_pairs (k : Nat) (x : DlX) : (s.setDlX k x).pairs = s.pairs := rfl
@[simp] theorem State.setDlX_sdis (k : Nat) (x : DlX) : (s.setDlX k x).sdis = s.sdis := rfl
@[simp] theorem State.setDlX_tripRuns (k : Nat) (x : DlX) : (s.setDlX k x).tripRuns = s.tripRuns := rfl
@[simp] theorem State.setDlX_tbShared (k : Nat) (x : DlX) : (s.setDlX k x).tbShared = s.tbShared := rfl
@[simp] theorem State.setDlX_axes (k : Nat) (x : DlX) : (s.setDlX k x).axes = s.axes := rfl
@[simp] theorem State.setDlX_hg (k : Nat) (x : DlX) : (s.setDlX k x).hg = s.hg := rfl
@[simp] theorem State.setDlX_edges (k : Nat) (x : DlX) : (s.setDlX k x).edges = s.edges := rfl
@[simp] theorem State.setDlX_streams (k : Nat) (x : DlX) : (s.setDlX k x).streams = s.streams := rfl
@[simp] theorem State.setDlX_opens (k : Nat) (x : DlX) : (s.setDlX k x).opens = s.opens := rfl
@[simp] theorem State.setDlX_groups (k : Nat) (x : DlX) : (s.setDlX k x).groups = s.groups := rfl
@[simp] theorem State.setDlX_recLast (k : Nat) (x : DlX) : (s.setDlX k x).recLast = s.recLast := rfl
@[simp] theorem State.setDlX_specPend (k : Nat) (x : DlX) : (s.setDlX k x).specPend = s.specPend := rfl
@[simp] theorem State.setDlX_recBytes (k : Nat) (x : DlX) : (s.setDlX k x).recBytes = s.recBytes := rfl
@[simp] theorem State.setDlX_stageQ (k : Nat) (x : DlX) : (s.setDlX k x).stageQ = s.stageQ := rfl
@[simp] theorem State.setDlX_stageAt (k : Nat) (x : DlX) : (s.setDlX k x).stageAt = s.stageAt := rfl
@[simp] theorem State.setDlX_ces (k : Nat) (x : DlX) : (s.setDlX k x).ces = s.ces := rfl
@[simp] theorem State.setDlX_pools (k : Nat) (x : DlX) : (s.setDlX k x).pools = s.pools := rfl
@[simp] theorem State.setDlX_winq (k : Nat) (x : DlX) : (s.setDlX k x).winq = s.winq := rfl
@[simp] theorem State.setDlX_winId (k : Nat) (x : DlX) : (s.setDlX k x).winId = s.winId := rfl
@[simp] theorem State.setDlX_tbLast (k : Nat) (x : DlX) : (s.setDlX k x).tbLast = s.tbLast := rfl
@[simp] theorem State.setDlX_cans (k : Nat) (x : DlX) : (s.setDlX k x).cans = s.cans := rfl
@[simp] theorem State.setDlX_canBad (k : Nat) (x : DlX) : (s.setDlX k x).canBad = s.canBad := rfl
@[simp] theorem State.setDlX_canAge (k : Nat) (x : DlX) : (s.setDlX k x).canAge = s.canAge := rfl
@[simp] theorem State.setDlX_tasks (k : Nat) (x : DlX) : (s.setDlX k x).tasks = s.tasks := rfl
@[simp] theorem State.setDlX_rss (k : Nat) (x : DlX) : (s.setDlX k x).rss = s.rss := rfl
@[simp] theorem State.setDlX_flows (k : Nat) (x : DlX) : (s.setDlX k x).flows = s.flows := rfl
@[simp] theorem State.setDlX_stopFallow (k : Nat) (x : DlX) : (s.setDlX k x).stopFallow = s.stopFallow := rfl
@[simp] theorem State.setDlX_rings (k : Nat) (x : DlX) : (s.setDlX k x).rings = s.rings := rfl
@[simp] theorem State.setDlX_mails (k : Nat) (x : DlX) : (s.setDlX k x).mails = s.mails := rfl
@[simp] theorem State.setDlX_bootId (k : Nat) (x : DlX) : (s.setDlX k x).bootId = s.bootId := rfl
@[simp] theorem State.setDlX_xl (k : Nat) (x : DlX) : (s.setDlX k x).xl = s.xl := rfl
@[simp] theorem State.setDlX_tm (k : Nat) (x : DlX) : (s.setDlX k x).tm = s.tm := rfl
@[simp] theorem State.setDlX_boot (k : Nat) (x : DlX) : (s.setDlX k x).boot = s.boot := rfl
@[simp] theorem State.setDlX_integ (k : Nat) (x : DlX) : (s.setDlX k x).integ = s.integ := rfl
@[simp] theorem State.setDlX_mg (k : Nat) (x : DlX) : (s.setDlX k x).mg = s.mg := rfl
@[simp] theorem State.setDlX_worst (k : Nat) (x : DlX) : (s.setDlX k x).worst = s.worst := rfl
@[simp] theorem State.setDlX_fences (k : Nat) (x : DlX) : (s.setDlX k x).fences = s.fences := rfl
@[simp] theorem State.setDlX_hostDown (k : Nat) (x : DlX) : (s.setDlX k x).hostDown = s.hostDown := rfl

-- setAxisX
@[simp] theorem State.setAxisX_pending (k : Nat) (x : AxisX) : (s.setAxisX k x).pending = s.pending := rfl
@[simp] theorem State.setAxisX_out (k : Nat) (x : AxisX) : (s.setAxisX k x).out = s.out := rfl
@[simp] theorem State.setAxisX_fresh (k : Nat) (x : AxisX) : (s.setAxisX k x).fresh = s.fresh := rfl
@[simp] theorem State.setAxisX_lz2048 (k : Nat) (x : AxisX) : (s.setAxisX k x).lz2048 = s.lz2048 := rfl
@[simp] theorem State.setAxisX_io (k : Nat) (x : AxisX) : (s.setAxisX k x).io = s.io := rfl
@[simp] theorem State.setAxisX_lawMem (k : Nat) (x : AxisX) : (s.setAxisX k x).lawMem = s.lawMem := rfl
@[simp] theorem State.setAxisX_dram (k : Nat) (x : AxisX) : (s.setAxisX k x).dram = s.dram := rfl
@[simp] theorem State.setAxisX_specs (k : Nat) (x : AxisX) : (s.setAxisX k x).specs = s.specs := rfl
@[simp] theorem State.setAxisX_img (k : Nat) (x : AxisX) : (s.setAxisX k x).img = s.img := rfl
@[simp] theorem State.setAxisX_outMaster (k : Nat) (x : AxisX) : (s.setAxisX k x).outMaster = s.outMaster := rfl
@[simp] theorem State.setAxisX_outCopy (k : Nat) (x : AxisX) : (s.setAxisX k x).outCopy = s.outCopy := rfl
@[simp] theorem State.setAxisX_snap (k : Nat) (x : AxisX) : (s.setAxisX k x).snap = s.snap := rfl
@[simp] theorem State.setAxisX_closeVal (k : Nat) (x : AxisX) : (s.setAxisX k x).closeVal = s.closeVal := rfl
@[simp] theorem State.setAxisX_closeFallow (k : Nat) (x : AxisX) : (s.setAxisX k x).closeFallow = s.closeFallow := rfl
@[simp] theorem State.setAxisX_closeRew (k : Nat) (x : AxisX) : (s.setAxisX k x).closeRew = s.closeRew := rfl
@[simp] theorem State.setAxisX_sampleT (k : Nat) (x : AxisX) : (s.setAxisX k x).sampleT = s.sampleT := rfl
@[simp] theorem State.setAxisX_wraps (k : Nat) (x : AxisX) : (s.setAxisX k x).wraps = s.wraps := rfl
@[simp] theorem State.setAxisX_t0 (k : Nat) (x : AxisX) : (s.setAxisX k x).t0 = s.t0 := rfl
@[simp] theorem State.setAxisX_tbStep (k : Nat) (x : AxisX) : (s.setAxisX k x).tbStep = s.tbStep := rfl
@[simp] theorem State.setAxisX_cyc (k : Nat) (x : AxisX) : (s.setAxisX k x).cyc = s.cyc := rfl
@[simp] theorem State.setAxisX_log (k : Nat) (x : AxisX) : (s.setAxisX k x).log = s.log := rfl
@[simp] theorem State.setAxisX_lseq (k : Nat) (x : AxisX) : (s.setAxisX k x).lseq = s.lseq := rfl
@[simp] theorem State.setAxisX_evStage (k : Nat) (x : AxisX) : (s.setAxisX k x).evStage = s.evStage := rfl
@[simp] theorem State.setAxisX_evNvm (k : Nat) (x : AxisX) : (s.setAxisX k x).evNvm = s.evNvm := rfl
@[simp] theorem State.setAxisX_evLost (k : Nat) (x : AxisX) : (s.setAxisX k x).evLost = s.evLost := rfl
@[simp] theorem State.setAxisX_opNs (k : Nat) (x : AxisX) : (s.setAxisX k x).opNs = s.opNs := rfl
@[simp] theorem State.setAxisX_pcyc (k : Nat) (x : AxisX) : (s.setAxisX k x).pcyc = s.pcyc := rfl
@[simp] theorem State.setAxisX_slots (k : Nat) (x : AxisX) : (s.setAxisX k x).slots = s.slots := rfl
@[simp] theorem State.setAxisX_clusters (k : Nat) (x : AxisX) : (s.setAxisX k x).clusters = s.clusters := rfl
@[simp] theorem State.setAxisX_hrings (k : Nat) (x : AxisX) : (s.setAxisX k x).hrings = s.hrings := rfl
@[simp] theorem State.setAxisX_lanes (k : Nat) (x : AxisX) : (s.setAxisX k x).lanes = s.lanes := rfl
@[simp] theorem State.setAxisX_validating (k : Nat) (x : AxisX) : (s.setAxisX k x).validating = s.validating := rfl
@[simp] theorem State.setAxisX_stns (k : Nat) (x : AxisX) : (s.setAxisX k x).stns = s.stns := rfl
@[simp] theorem State.setAxisX_pairs (k : Nat) (x : AxisX) : (s.setAxisX k x).pairs = s.pairs := rfl
@[simp] theorem State.setAxisX_sdis (k : Nat) (x : AxisX) : (s.setAxisX k x).sdis = s.sdis := rfl
@[simp] theorem State.setAxisX_dls (k : Nat) (x : AxisX) : (s.setAxisX k x).dls = s.dls := rfl
@[simp] theorem State.setAxisX_tripRuns (k : Nat) (x : AxisX) : (s.setAxisX k x).tripRuns = s.tripRuns := rfl
@[simp] theorem State.setAxisX_tbShared (k : Nat) (x : AxisX) : (s.setAxisX k x).tbShared = s.tbShared := rfl
@[simp] theorem State.setAxisX_hg (k : Nat) (x : AxisX) : (s.setAxisX k x).hg = s.hg := rfl
@[simp] theorem State.setAxisX_edges (k : Nat) (x : AxisX) : (s.setAxisX k x).edges = s.edges := rfl
@[simp] theorem State.setAxisX_streams (k : Nat) (x : AxisX) : (s.setAxisX k x).streams = s.streams := rfl
@[simp] theorem State.setAxisX_opens (k : Nat) (x : AxisX) : (s.setAxisX k x).opens = s.opens := rfl
@[simp] theorem State.setAxisX_groups (k : Nat) (x : AxisX) : (s.setAxisX k x).groups = s.groups := rfl
@[simp] theorem State.setAxisX_recLast (k : Nat) (x : AxisX) : (s.setAxisX k x).recLast = s.recLast := rfl
@[simp] theorem State.setAxisX_specPend (k : Nat) (x : AxisX) : (s.setAxisX k x).specPend = s.specPend := rfl
@[simp] theorem State.setAxisX_recBytes (k : Nat) (x : AxisX) : (s.setAxisX k x).recBytes = s.recBytes := rfl
@[simp] theorem State.setAxisX_stageQ (k : Nat) (x : AxisX) : (s.setAxisX k x).stageQ = s.stageQ := rfl
@[simp] theorem State.setAxisX_stageAt (k : Nat) (x : AxisX) : (s.setAxisX k x).stageAt = s.stageAt := rfl
@[simp] theorem State.setAxisX_ces (k : Nat) (x : AxisX) : (s.setAxisX k x).ces = s.ces := rfl
@[simp] theorem State.setAxisX_pools (k : Nat) (x : AxisX) : (s.setAxisX k x).pools = s.pools := rfl
@[simp] theorem State.setAxisX_winq (k : Nat) (x : AxisX) : (s.setAxisX k x).winq = s.winq := rfl
@[simp] theorem State.setAxisX_winId (k : Nat) (x : AxisX) : (s.setAxisX k x).winId = s.winId := rfl
@[simp] theorem State.setAxisX_tbLast (k : Nat) (x : AxisX) : (s.setAxisX k x).tbLast = s.tbLast := rfl
@[simp] theorem State.setAxisX_cans (k : Nat) (x : AxisX) : (s.setAxisX k x).cans = s.cans := rfl
@[simp] theorem State.setAxisX_canBad (k : Nat) (x : AxisX) : (s.setAxisX k x).canBad = s.canBad := rfl
@[simp] theorem State.setAxisX_canAge (k : Nat) (x : AxisX) : (s.setAxisX k x).canAge = s.canAge := rfl
@[simp] theorem State.setAxisX_tasks (k : Nat) (x : AxisX) : (s.setAxisX k x).tasks = s.tasks := rfl
@[simp] theorem State.setAxisX_rss (k : Nat) (x : AxisX) : (s.setAxisX k x).rss = s.rss := rfl
@[simp] theorem State.setAxisX_flows (k : Nat) (x : AxisX) : (s.setAxisX k x).flows = s.flows := rfl
@[simp] theorem State.setAxisX_stopFallow (k : Nat) (x : AxisX) : (s.setAxisX k x).stopFallow = s.stopFallow := rfl
@[simp] theorem State.setAxisX_rings (k : Nat) (x : AxisX) : (s.setAxisX k x).rings = s.rings := rfl
@[simp] theorem State.setAxisX_mails (k : Nat) (x : AxisX) : (s.setAxisX k x).mails = s.mails := rfl
@[simp] theorem State.setAxisX_bootId (k : Nat) (x : AxisX) : (s.setAxisX k x).bootId = s.bootId := rfl
@[simp] theorem State.setAxisX_xl (k : Nat) (x : AxisX) : (s.setAxisX k x).xl = s.xl := rfl
@[simp] theorem State.setAxisX_tm (k : Nat) (x : AxisX) : (s.setAxisX k x).tm = s.tm := rfl
@[simp] theorem State.setAxisX_boot (k : Nat) (x : AxisX) : (s.setAxisX k x).boot = s.boot := rfl
@[simp] theorem State.setAxisX_integ (k : Nat) (x : AxisX) : (s.setAxisX k x).integ = s.integ := rfl
@[simp] theorem State.setAxisX_mg (k : Nat) (x : AxisX) : (s.setAxisX k x).mg = s.mg := rfl
@[simp] theorem State.setAxisX_worst (k : Nat) (x : AxisX) : (s.setAxisX k x).worst = s.worst := rfl
@[simp] theorem State.setAxisX_fences (k : Nat) (x : AxisX) : (s.setAxisX k x).fences = s.fences := rfl
@[simp] theorem State.setAxisX_hostDown (k : Nat) (x : AxisX) : (s.setAxisX k x).hostDown = s.hostDown := rfl

-- setEdgeX
@[simp] theorem State.setEdgeX_pending (k : Nat) (x : EdgeX) : (s.setEdgeX k x).pending = s.pending := rfl
@[simp] theorem State.setEdgeX_out (k : Nat) (x : EdgeX) : (s.setEdgeX k x).out = s.out := rfl
@[simp] theorem State.setEdgeX_fresh (k : Nat) (x : EdgeX) : (s.setEdgeX k x).fresh = s.fresh := rfl
@[simp] theorem State.setEdgeX_lz2048 (k : Nat) (x : EdgeX) : (s.setEdgeX k x).lz2048 = s.lz2048 := rfl
@[simp] theorem State.setEdgeX_io (k : Nat) (x : EdgeX) : (s.setEdgeX k x).io = s.io := rfl
@[simp] theorem State.setEdgeX_lawMem (k : Nat) (x : EdgeX) : (s.setEdgeX k x).lawMem = s.lawMem := rfl
@[simp] theorem State.setEdgeX_dram (k : Nat) (x : EdgeX) : (s.setEdgeX k x).dram = s.dram := rfl
@[simp] theorem State.setEdgeX_specs (k : Nat) (x : EdgeX) : (s.setEdgeX k x).specs = s.specs := rfl
@[simp] theorem State.setEdgeX_img (k : Nat) (x : EdgeX) : (s.setEdgeX k x).img = s.img := rfl
@[simp] theorem State.setEdgeX_outMaster (k : Nat) (x : EdgeX) : (s.setEdgeX k x).outMaster = s.outMaster := rfl
@[simp] theorem State.setEdgeX_outCopy (k : Nat) (x : EdgeX) : (s.setEdgeX k x).outCopy = s.outCopy := rfl
@[simp] theorem State.setEdgeX_snap (k : Nat) (x : EdgeX) : (s.setEdgeX k x).snap = s.snap := rfl
@[simp] theorem State.setEdgeX_closeVal (k : Nat) (x : EdgeX) : (s.setEdgeX k x).closeVal = s.closeVal := rfl
@[simp] theorem State.setEdgeX_closeFallow (k : Nat) (x : EdgeX) : (s.setEdgeX k x).closeFallow = s.closeFallow := rfl
@[simp] theorem State.setEdgeX_closeRew (k : Nat) (x : EdgeX) : (s.setEdgeX k x).closeRew = s.closeRew := rfl
@[simp] theorem State.setEdgeX_sampleT (k : Nat) (x : EdgeX) : (s.setEdgeX k x).sampleT = s.sampleT := rfl
@[simp] theorem State.setEdgeX_wraps (k : Nat) (x : EdgeX) : (s.setEdgeX k x).wraps = s.wraps := rfl
@[simp] theorem State.setEdgeX_t0 (k : Nat) (x : EdgeX) : (s.setEdgeX k x).t0 = s.t0 := rfl
@[simp] theorem State.setEdgeX_tbStep (k : Nat) (x : EdgeX) : (s.setEdgeX k x).tbStep = s.tbStep := rfl
@[simp] theorem State.setEdgeX_cyc (k : Nat) (x : EdgeX) : (s.setEdgeX k x).cyc = s.cyc := rfl
@[simp] theorem State.setEdgeX_log (k : Nat) (x : EdgeX) : (s.setEdgeX k x).log = s.log := rfl
@[simp] theorem State.setEdgeX_lseq (k : Nat) (x : EdgeX) : (s.setEdgeX k x).lseq = s.lseq := rfl
@[simp] theorem State.setEdgeX_evStage (k : Nat) (x : EdgeX) : (s.setEdgeX k x).evStage = s.evStage := rfl
@[simp] theorem State.setEdgeX_evNvm (k : Nat) (x : EdgeX) : (s.setEdgeX k x).evNvm = s.evNvm := rfl
@[simp] theorem State.setEdgeX_evLost (k : Nat) (x : EdgeX) : (s.setEdgeX k x).evLost = s.evLost := rfl
@[simp] theorem State.setEdgeX_opNs (k : Nat) (x : EdgeX) : (s.setEdgeX k x).opNs = s.opNs := rfl
@[simp] theorem State.setEdgeX_pcyc (k : Nat) (x : EdgeX) : (s.setEdgeX k x).pcyc = s.pcyc := rfl
@[simp] theorem State.setEdgeX_slots (k : Nat) (x : EdgeX) : (s.setEdgeX k x).slots = s.slots := rfl
@[simp] theorem State.setEdgeX_clusters (k : Nat) (x : EdgeX) : (s.setEdgeX k x).clusters = s.clusters := rfl
@[simp] theorem State.setEdgeX_hrings (k : Nat) (x : EdgeX) : (s.setEdgeX k x).hrings = s.hrings := rfl
@[simp] theorem State.setEdgeX_lanes (k : Nat) (x : EdgeX) : (s.setEdgeX k x).lanes = s.lanes := rfl
@[simp] theorem State.setEdgeX_validating (k : Nat) (x : EdgeX) : (s.setEdgeX k x).validating = s.validating := rfl
@[simp] theorem State.setEdgeX_stns (k : Nat) (x : EdgeX) : (s.setEdgeX k x).stns = s.stns := rfl
@[simp] theorem State.setEdgeX_pairs (k : Nat) (x : EdgeX) : (s.setEdgeX k x).pairs = s.pairs := rfl
@[simp] theorem State.setEdgeX_sdis (k : Nat) (x : EdgeX) : (s.setEdgeX k x).sdis = s.sdis := rfl
@[simp] theorem State.setEdgeX_dls (k : Nat) (x : EdgeX) : (s.setEdgeX k x).dls = s.dls := rfl
@[simp] theorem State.setEdgeX_tripRuns (k : Nat) (x : EdgeX) : (s.setEdgeX k x).tripRuns = s.tripRuns := rfl
@[simp] theorem State.setEdgeX_tbShared (k : Nat) (x : EdgeX) : (s.setEdgeX k x).tbShared = s.tbShared := rfl
@[simp] theorem State.setEdgeX_axes (k : Nat) (x : EdgeX) : (s.setEdgeX k x).axes = s.axes := rfl
@[simp] theorem State.setEdgeX_hg (k : Nat) (x : EdgeX) : (s.setEdgeX k x).hg = s.hg := rfl
@[simp] theorem State.setEdgeX_streams (k : Nat) (x : EdgeX) : (s.setEdgeX k x).streams = s.streams := rfl
@[simp] theorem State.setEdgeX_opens (k : Nat) (x : EdgeX) : (s.setEdgeX k x).opens = s.opens := rfl
@[simp] theorem State.setEdgeX_groups (k : Nat) (x : EdgeX) : (s.setEdgeX k x).groups = s.groups := rfl
@[simp] theorem State.setEdgeX_recLast (k : Nat) (x : EdgeX) : (s.setEdgeX k x).recLast = s.recLast := rfl
@[simp] theorem State.setEdgeX_specPend (k : Nat) (x : EdgeX) : (s.setEdgeX k x).specPend = s.specPend := rfl
@[simp] theorem State.setEdgeX_recBytes (k : Nat) (x : EdgeX) : (s.setEdgeX k x).recBytes = s.recBytes := rfl
@[simp] theorem State.setEdgeX_stageQ (k : Nat) (x : EdgeX) : (s.setEdgeX k x).stageQ = s.stageQ := rfl
@[simp] theorem State.setEdgeX_stageAt (k : Nat) (x : EdgeX) : (s.setEdgeX k x).stageAt = s.stageAt := rfl
@[simp] theorem State.setEdgeX_ces (k : Nat) (x : EdgeX) : (s.setEdgeX k x).ces = s.ces := rfl
@[simp] theorem State.setEdgeX_pools (k : Nat) (x : EdgeX) : (s.setEdgeX k x).pools = s.pools := rfl
@[simp] theorem State.setEdgeX_winq (k : Nat) (x : EdgeX) : (s.setEdgeX k x).winq = s.winq := rfl
@[simp] theorem State.setEdgeX_winId (k : Nat) (x : EdgeX) : (s.setEdgeX k x).winId = s.winId := rfl
@[simp] theorem State.setEdgeX_tbLast (k : Nat) (x : EdgeX) : (s.setEdgeX k x).tbLast = s.tbLast := rfl
@[simp] theorem State.setEdgeX_cans (k : Nat) (x : EdgeX) : (s.setEdgeX k x).cans = s.cans := rfl
@[simp] theorem State.setEdgeX_canBad (k : Nat) (x : EdgeX) : (s.setEdgeX k x).canBad = s.canBad := rfl
@[simp] theorem State.setEdgeX_canAge (k : Nat) (x : EdgeX) : (s.setEdgeX k x).canAge = s.canAge := rfl
@[simp] theorem State.setEdgeX_tasks (k : Nat) (x : EdgeX) : (s.setEdgeX k x).tasks = s.tasks := rfl
@[simp] theorem State.setEdgeX_rss (k : Nat) (x : EdgeX) : (s.setEdgeX k x).rss = s.rss := rfl
@[simp] theorem State.setEdgeX_flows (k : Nat) (x : EdgeX) : (s.setEdgeX k x).flows = s.flows := rfl
@[simp] theorem State.setEdgeX_stopFallow (k : Nat) (x : EdgeX) : (s.setEdgeX k x).stopFallow = s.stopFallow := rfl
@[simp] theorem State.setEdgeX_rings (k : Nat) (x : EdgeX) : (s.setEdgeX k x).rings = s.rings := rfl
@[simp] theorem State.setEdgeX_mails (k : Nat) (x : EdgeX) : (s.setEdgeX k x).mails = s.mails := rfl
@[simp] theorem State.setEdgeX_bootId (k : Nat) (x : EdgeX) : (s.setEdgeX k x).bootId = s.bootId := rfl
@[simp] theorem State.setEdgeX_xl (k : Nat) (x : EdgeX) : (s.setEdgeX k x).xl = s.xl := rfl
@[simp] theorem State.setEdgeX_tm (k : Nat) (x : EdgeX) : (s.setEdgeX k x).tm = s.tm := rfl
@[simp] theorem State.setEdgeX_boot (k : Nat) (x : EdgeX) : (s.setEdgeX k x).boot = s.boot := rfl
@[simp] theorem State.setEdgeX_integ (k : Nat) (x : EdgeX) : (s.setEdgeX k x).integ = s.integ := rfl
@[simp] theorem State.setEdgeX_mg (k : Nat) (x : EdgeX) : (s.setEdgeX k x).mg = s.mg := rfl
@[simp] theorem State.setEdgeX_worst (k : Nat) (x : EdgeX) : (s.setEdgeX k x).worst = s.worst := rfl
@[simp] theorem State.setEdgeX_fences (k : Nat) (x : EdgeX) : (s.setEdgeX k x).fences = s.fences := rfl
@[simp] theorem State.setEdgeX_hostDown (k : Nat) (x : EdgeX) : (s.setEdgeX k x).hostDown = s.hostDown := rfl

-- setStreamX
@[simp] theorem State.setStreamX_pending (k : Nat) (x : StreamX) : (s.setStreamX k x).pending = s.pending := rfl
@[simp] theorem State.setStreamX_out (k : Nat) (x : StreamX) : (s.setStreamX k x).out = s.out := rfl
@[simp] theorem State.setStreamX_fresh (k : Nat) (x : StreamX) : (s.setStreamX k x).fresh = s.fresh := rfl
@[simp] theorem State.setStreamX_lz2048 (k : Nat) (x : StreamX) : (s.setStreamX k x).lz2048 = s.lz2048 := rfl
@[simp] theorem State.setStreamX_io (k : Nat) (x : StreamX) : (s.setStreamX k x).io = s.io := rfl
@[simp] theorem State.setStreamX_lawMem (k : Nat) (x : StreamX) : (s.setStreamX k x).lawMem = s.lawMem := rfl
@[simp] theorem State.setStreamX_dram (k : Nat) (x : StreamX) : (s.setStreamX k x).dram = s.dram := rfl
@[simp] theorem State.setStreamX_specs (k : Nat) (x : StreamX) : (s.setStreamX k x).specs = s.specs := rfl
@[simp] theorem State.setStreamX_img (k : Nat) (x : StreamX) : (s.setStreamX k x).img = s.img := rfl
@[simp] theorem State.setStreamX_outMaster (k : Nat) (x : StreamX) : (s.setStreamX k x).outMaster = s.outMaster := rfl
@[simp] theorem State.setStreamX_outCopy (k : Nat) (x : StreamX) : (s.setStreamX k x).outCopy = s.outCopy := rfl
@[simp] theorem State.setStreamX_snap (k : Nat) (x : StreamX) : (s.setStreamX k x).snap = s.snap := rfl
@[simp] theorem State.setStreamX_closeVal (k : Nat) (x : StreamX) : (s.setStreamX k x).closeVal = s.closeVal := rfl
@[simp] theorem State.setStreamX_closeFallow (k : Nat) (x : StreamX) : (s.setStreamX k x).closeFallow = s.closeFallow := rfl
@[simp] theorem State.setStreamX_closeRew (k : Nat) (x : StreamX) : (s.setStreamX k x).closeRew = s.closeRew := rfl
@[simp] theorem State.setStreamX_sampleT (k : Nat) (x : StreamX) : (s.setStreamX k x).sampleT = s.sampleT := rfl
@[simp] theorem State.setStreamX_wraps (k : Nat) (x : StreamX) : (s.setStreamX k x).wraps = s.wraps := rfl
@[simp] theorem State.setStreamX_t0 (k : Nat) (x : StreamX) : (s.setStreamX k x).t0 = s.t0 := rfl
@[simp] theorem State.setStreamX_tbStep (k : Nat) (x : StreamX) : (s.setStreamX k x).tbStep = s.tbStep := rfl
@[simp] theorem State.setStreamX_cyc (k : Nat) (x : StreamX) : (s.setStreamX k x).cyc = s.cyc := rfl
@[simp] theorem State.setStreamX_log (k : Nat) (x : StreamX) : (s.setStreamX k x).log = s.log := rfl
@[simp] theorem State.setStreamX_lseq (k : Nat) (x : StreamX) : (s.setStreamX k x).lseq = s.lseq := rfl
@[simp] theorem State.setStreamX_evStage (k : Nat) (x : StreamX) : (s.setStreamX k x).evStage = s.evStage := rfl
@[simp] theorem State.setStreamX_evNvm (k : Nat) (x : StreamX) : (s.setStreamX k x).evNvm = s.evNvm := rfl
@[simp] theorem State.setStreamX_evLost (k : Nat) (x : StreamX) : (s.setStreamX k x).evLost = s.evLost := rfl
@[simp] theorem State.setStreamX_opNs (k : Nat) (x : StreamX) : (s.setStreamX k x).opNs = s.opNs := rfl
@[simp] theorem State.setStreamX_pcyc (k : Nat) (x : StreamX) : (s.setStreamX k x).pcyc = s.pcyc := rfl
@[simp] theorem State.setStreamX_slots (k : Nat) (x : StreamX) : (s.setStreamX k x).slots = s.slots := rfl
@[simp] theorem State.setStreamX_clusters (k : Nat) (x : StreamX) : (s.setStreamX k x).clusters = s.clusters := rfl
@[simp] theorem State.setStreamX_hrings (k : Nat) (x : StreamX) : (s.setStreamX k x).hrings = s.hrings := rfl
@[simp] theorem State.setStreamX_lanes (k : Nat) (x : StreamX) : (s.setStreamX k x).lanes = s.lanes := rfl
@[simp] theorem State.setStreamX_validating (k : Nat) (x : StreamX) : (s.setStreamX k x).validating = s.validating := rfl
@[simp] theorem State.setStreamX_stns (k : Nat) (x : StreamX) : (s.setStreamX k x).stns = s.stns := rfl
@[simp] theorem State.setStreamX_pairs (k : Nat) (x : StreamX) : (s.setStreamX k x).pairs = s.pairs := rfl
@[simp] theorem State.setStreamX_sdis (k : Nat) (x : StreamX) : (s.setStreamX k x).sdis = s.sdis := rfl
@[simp] theorem State.setStreamX_dls (k : Nat) (x : StreamX) : (s.setStreamX k x).dls = s.dls := rfl
@[simp] theorem State.setStreamX_tripRuns (k : Nat) (x : StreamX) : (s.setStreamX k x).tripRuns = s.tripRuns := rfl
@[simp] theorem State.setStreamX_tbShared (k : Nat) (x : StreamX) : (s.setStreamX k x).tbShared = s.tbShared := rfl
@[simp] theorem State.setStreamX_axes (k : Nat) (x : StreamX) : (s.setStreamX k x).axes = s.axes := rfl
@[simp] theorem State.setStreamX_hg (k : Nat) (x : StreamX) : (s.setStreamX k x).hg = s.hg := rfl
@[simp] theorem State.setStreamX_edges (k : Nat) (x : StreamX) : (s.setStreamX k x).edges = s.edges := rfl
@[simp] theorem State.setStreamX_opens (k : Nat) (x : StreamX) : (s.setStreamX k x).opens = s.opens := rfl
@[simp] theorem State.setStreamX_groups (k : Nat) (x : StreamX) : (s.setStreamX k x).groups = s.groups := rfl
@[simp] theorem State.setStreamX_recLast (k : Nat) (x : StreamX) : (s.setStreamX k x).recLast = s.recLast := rfl
@[simp] theorem State.setStreamX_specPend (k : Nat) (x : StreamX) : (s.setStreamX k x).specPend = s.specPend := rfl
@[simp] theorem State.setStreamX_recBytes (k : Nat) (x : StreamX) : (s.setStreamX k x).recBytes = s.recBytes := rfl
@[simp] theorem State.setStreamX_stageQ (k : Nat) (x : StreamX) : (s.setStreamX k x).stageQ = s.stageQ := rfl
@[simp] theorem State.setStreamX_stageAt (k : Nat) (x : StreamX) : (s.setStreamX k x).stageAt = s.stageAt := rfl
@[simp] theorem State.setStreamX_ces (k : Nat) (x : StreamX) : (s.setStreamX k x).ces = s.ces := rfl
@[simp] theorem State.setStreamX_pools (k : Nat) (x : StreamX) : (s.setStreamX k x).pools = s.pools := rfl
@[simp] theorem State.setStreamX_winq (k : Nat) (x : StreamX) : (s.setStreamX k x).winq = s.winq := rfl
@[simp] theorem State.setStreamX_winId (k : Nat) (x : StreamX) : (s.setStreamX k x).winId = s.winId := rfl
@[simp] theorem State.setStreamX_tbLast (k : Nat) (x : StreamX) : (s.setStreamX k x).tbLast = s.tbLast := rfl
@[simp] theorem State.setStreamX_cans (k : Nat) (x : StreamX) : (s.setStreamX k x).cans = s.cans := rfl
@[simp] theorem State.setStreamX_canBad (k : Nat) (x : StreamX) : (s.setStreamX k x).canBad = s.canBad := rfl
@[simp] theorem State.setStreamX_canAge (k : Nat) (x : StreamX) : (s.setStreamX k x).canAge = s.canAge := rfl
@[simp] theorem State.setStreamX_tasks (k : Nat) (x : StreamX) : (s.setStreamX k x).tasks = s.tasks := rfl
@[simp] theorem State.setStreamX_rss (k : Nat) (x : StreamX) : (s.setStreamX k x).rss = s.rss := rfl
@[simp] theorem State.setStreamX_flows (k : Nat) (x : StreamX) : (s.setStreamX k x).flows = s.flows := rfl
@[simp] theorem State.setStreamX_stopFallow (k : Nat) (x : StreamX) : (s.setStreamX k x).stopFallow = s.stopFallow := rfl
@[simp] theorem State.setStreamX_rings (k : Nat) (x : StreamX) : (s.setStreamX k x).rings = s.rings := rfl
@[simp] theorem State.setStreamX_mails (k : Nat) (x : StreamX) : (s.setStreamX k x).mails = s.mails := rfl
@[simp] theorem State.setStreamX_bootId (k : Nat) (x : StreamX) : (s.setStreamX k x).bootId = s.bootId := rfl
@[simp] theorem State.setStreamX_xl (k : Nat) (x : StreamX) : (s.setStreamX k x).xl = s.xl := rfl
@[simp] theorem State.setStreamX_tm (k : Nat) (x : StreamX) : (s.setStreamX k x).tm = s.tm := rfl
@[simp] theorem State.setStreamX_boot (k : Nat) (x : StreamX) : (s.setStreamX k x).boot = s.boot := rfl
@[simp] theorem State.setStreamX_integ (k : Nat) (x : StreamX) : (s.setStreamX k x).integ = s.integ := rfl
@[simp] theorem State.setStreamX_mg (k : Nat) (x : StreamX) : (s.setStreamX k x).mg = s.mg := rfl
@[simp] theorem State.setStreamX_worst (k : Nat) (x : StreamX) : (s.setStreamX k x).worst = s.worst := rfl
@[simp] theorem State.setStreamX_fences (k : Nat) (x : StreamX) : (s.setStreamX k x).fences = s.fences := rfl
@[simp] theorem State.setStreamX_hostDown (k : Nat) (x : StreamX) : (s.setStreamX k x).hostDown = s.hostDown := rfl

-- setCeX
@[simp] theorem State.setCeX_pending (k : Nat) (x : CeX) : (s.setCeX k x).pending = s.pending := rfl
@[simp] theorem State.setCeX_out (k : Nat) (x : CeX) : (s.setCeX k x).out = s.out := rfl
@[simp] theorem State.setCeX_fresh (k : Nat) (x : CeX) : (s.setCeX k x).fresh = s.fresh := rfl
@[simp] theorem State.setCeX_lz2048 (k : Nat) (x : CeX) : (s.setCeX k x).lz2048 = s.lz2048 := rfl
@[simp] theorem State.setCeX_io (k : Nat) (x : CeX) : (s.setCeX k x).io = s.io := rfl
@[simp] theorem State.setCeX_lawMem (k : Nat) (x : CeX) : (s.setCeX k x).lawMem = s.lawMem := rfl
@[simp] theorem State.setCeX_dram (k : Nat) (x : CeX) : (s.setCeX k x).dram = s.dram := rfl
@[simp] theorem State.setCeX_specs (k : Nat) (x : CeX) : (s.setCeX k x).specs = s.specs := rfl
@[simp] theorem State.setCeX_img (k : Nat) (x : CeX) : (s.setCeX k x).img = s.img := rfl
@[simp] theorem State.setCeX_outMaster (k : Nat) (x : CeX) : (s.setCeX k x).outMaster = s.outMaster := rfl
@[simp] theorem State.setCeX_outCopy (k : Nat) (x : CeX) : (s.setCeX k x).outCopy = s.outCopy := rfl
@[simp] theorem State.setCeX_snap (k : Nat) (x : CeX) : (s.setCeX k x).snap = s.snap := rfl
@[simp] theorem State.setCeX_closeVal (k : Nat) (x : CeX) : (s.setCeX k x).closeVal = s.closeVal := rfl
@[simp] theorem State.setCeX_closeFallow (k : Nat) (x : CeX) : (s.setCeX k x).closeFallow = s.closeFallow := rfl
@[simp] theorem State.setCeX_closeRew (k : Nat) (x : CeX) : (s.setCeX k x).closeRew = s.closeRew := rfl
@[simp] theorem State.setCeX_sampleT (k : Nat) (x : CeX) : (s.setCeX k x).sampleT = s.sampleT := rfl
@[simp] theorem State.setCeX_wraps (k : Nat) (x : CeX) : (s.setCeX k x).wraps = s.wraps := rfl
@[simp] theorem State.setCeX_t0 (k : Nat) (x : CeX) : (s.setCeX k x).t0 = s.t0 := rfl
@[simp] theorem State.setCeX_tbStep (k : Nat) (x : CeX) : (s.setCeX k x).tbStep = s.tbStep := rfl
@[simp] theorem State.setCeX_cyc (k : Nat) (x : CeX) : (s.setCeX k x).cyc = s.cyc := rfl
@[simp] theorem State.setCeX_log (k : Nat) (x : CeX) : (s.setCeX k x).log = s.log := rfl
@[simp] theorem State.setCeX_lseq (k : Nat) (x : CeX) : (s.setCeX k x).lseq = s.lseq := rfl
@[simp] theorem State.setCeX_evStage (k : Nat) (x : CeX) : (s.setCeX k x).evStage = s.evStage := rfl
@[simp] theorem State.setCeX_evNvm (k : Nat) (x : CeX) : (s.setCeX k x).evNvm = s.evNvm := rfl
@[simp] theorem State.setCeX_evLost (k : Nat) (x : CeX) : (s.setCeX k x).evLost = s.evLost := rfl
@[simp] theorem State.setCeX_opNs (k : Nat) (x : CeX) : (s.setCeX k x).opNs = s.opNs := rfl
@[simp] theorem State.setCeX_pcyc (k : Nat) (x : CeX) : (s.setCeX k x).pcyc = s.pcyc := rfl
@[simp] theorem State.setCeX_slots (k : Nat) (x : CeX) : (s.setCeX k x).slots = s.slots := rfl
@[simp] theorem State.setCeX_clusters (k : Nat) (x : CeX) : (s.setCeX k x).clusters = s.clusters := rfl
@[simp] theorem State.setCeX_hrings (k : Nat) (x : CeX) : (s.setCeX k x).hrings = s.hrings := rfl
@[simp] theorem State.setCeX_lanes (k : Nat) (x : CeX) : (s.setCeX k x).lanes = s.lanes := rfl
@[simp] theorem State.setCeX_validating (k : Nat) (x : CeX) : (s.setCeX k x).validating = s.validating := rfl
@[simp] theorem State.setCeX_stns (k : Nat) (x : CeX) : (s.setCeX k x).stns = s.stns := rfl
@[simp] theorem State.setCeX_pairs (k : Nat) (x : CeX) : (s.setCeX k x).pairs = s.pairs := rfl
@[simp] theorem State.setCeX_sdis (k : Nat) (x : CeX) : (s.setCeX k x).sdis = s.sdis := rfl
@[simp] theorem State.setCeX_dls (k : Nat) (x : CeX) : (s.setCeX k x).dls = s.dls := rfl
@[simp] theorem State.setCeX_tripRuns (k : Nat) (x : CeX) : (s.setCeX k x).tripRuns = s.tripRuns := rfl
@[simp] theorem State.setCeX_tbShared (k : Nat) (x : CeX) : (s.setCeX k x).tbShared = s.tbShared := rfl
@[simp] theorem State.setCeX_axes (k : Nat) (x : CeX) : (s.setCeX k x).axes = s.axes := rfl
@[simp] theorem State.setCeX_hg (k : Nat) (x : CeX) : (s.setCeX k x).hg = s.hg := rfl
@[simp] theorem State.setCeX_edges (k : Nat) (x : CeX) : (s.setCeX k x).edges = s.edges := rfl
@[simp] theorem State.setCeX_streams (k : Nat) (x : CeX) : (s.setCeX k x).streams = s.streams := rfl
@[simp] theorem State.setCeX_opens (k : Nat) (x : CeX) : (s.setCeX k x).opens = s.opens := rfl
@[simp] theorem State.setCeX_groups (k : Nat) (x : CeX) : (s.setCeX k x).groups = s.groups := rfl
@[simp] theorem State.setCeX_recLast (k : Nat) (x : CeX) : (s.setCeX k x).recLast = s.recLast := rfl
@[simp] theorem State.setCeX_specPend (k : Nat) (x : CeX) : (s.setCeX k x).specPend = s.specPend := rfl
@[simp] theorem State.setCeX_recBytes (k : Nat) (x : CeX) : (s.setCeX k x).recBytes = s.recBytes := rfl
@[simp] theorem State.setCeX_stageQ (k : Nat) (x : CeX) : (s.setCeX k x).stageQ = s.stageQ := rfl
@[simp] theorem State.setCeX_stageAt (k : Nat) (x : CeX) : (s.setCeX k x).stageAt = s.stageAt := rfl
@[simp] theorem State.setCeX_pools (k : Nat) (x : CeX) : (s.setCeX k x).pools = s.pools := rfl
@[simp] theorem State.setCeX_winq (k : Nat) (x : CeX) : (s.setCeX k x).winq = s.winq := rfl
@[simp] theorem State.setCeX_winId (k : Nat) (x : CeX) : (s.setCeX k x).winId = s.winId := rfl
@[simp] theorem State.setCeX_tbLast (k : Nat) (x : CeX) : (s.setCeX k x).tbLast = s.tbLast := rfl
@[simp] theorem State.setCeX_cans (k : Nat) (x : CeX) : (s.setCeX k x).cans = s.cans := rfl
@[simp] theorem State.setCeX_canBad (k : Nat) (x : CeX) : (s.setCeX k x).canBad = s.canBad := rfl
@[simp] theorem State.setCeX_canAge (k : Nat) (x : CeX) : (s.setCeX k x).canAge = s.canAge := rfl
@[simp] theorem State.setCeX_tasks (k : Nat) (x : CeX) : (s.setCeX k x).tasks = s.tasks := rfl
@[simp] theorem State.setCeX_rss (k : Nat) (x : CeX) : (s.setCeX k x).rss = s.rss := rfl
@[simp] theorem State.setCeX_flows (k : Nat) (x : CeX) : (s.setCeX k x).flows = s.flows := rfl
@[simp] theorem State.setCeX_stopFallow (k : Nat) (x : CeX) : (s.setCeX k x).stopFallow = s.stopFallow := rfl
@[simp] theorem State.setCeX_rings (k : Nat) (x : CeX) : (s.setCeX k x).rings = s.rings := rfl
@[simp] theorem State.setCeX_mails (k : Nat) (x : CeX) : (s.setCeX k x).mails = s.mails := rfl
@[simp] theorem State.setCeX_bootId (k : Nat) (x : CeX) : (s.setCeX k x).bootId = s.bootId := rfl
@[simp] theorem State.setCeX_xl (k : Nat) (x : CeX) : (s.setCeX k x).xl = s.xl := rfl
@[simp] theorem State.setCeX_tm (k : Nat) (x : CeX) : (s.setCeX k x).tm = s.tm := rfl
@[simp] theorem State.setCeX_boot (k : Nat) (x : CeX) : (s.setCeX k x).boot = s.boot := rfl
@[simp] theorem State.setCeX_integ (k : Nat) (x : CeX) : (s.setCeX k x).integ = s.integ := rfl
@[simp] theorem State.setCeX_mg (k : Nat) (x : CeX) : (s.setCeX k x).mg = s.mg := rfl
@[simp] theorem State.setCeX_worst (k : Nat) (x : CeX) : (s.setCeX k x).worst = s.worst := rfl
@[simp] theorem State.setCeX_fences (k : Nat) (x : CeX) : (s.setCeX k x).fences = s.fences := rfl
@[simp] theorem State.setCeX_hostDown (k : Nat) (x : CeX) : (s.setCeX k x).hostDown = s.hostDown := rfl

-- setWinQ
@[simp] theorem State.setWinQ_pending (k : Nat) (x : List Chunk) : (s.setWinQ k x).pending = s.pending := rfl
@[simp] theorem State.setWinQ_out (k : Nat) (x : List Chunk) : (s.setWinQ k x).out = s.out := rfl
@[simp] theorem State.setWinQ_fresh (k : Nat) (x : List Chunk) : (s.setWinQ k x).fresh = s.fresh := rfl
@[simp] theorem State.setWinQ_lz2048 (k : Nat) (x : List Chunk) : (s.setWinQ k x).lz2048 = s.lz2048 := rfl
@[simp] theorem State.setWinQ_io (k : Nat) (x : List Chunk) : (s.setWinQ k x).io = s.io := rfl
@[simp] theorem State.setWinQ_lawMem (k : Nat) (x : List Chunk) : (s.setWinQ k x).lawMem = s.lawMem := rfl
@[simp] theorem State.setWinQ_dram (k : Nat) (x : List Chunk) : (s.setWinQ k x).dram = s.dram := rfl
@[simp] theorem State.setWinQ_specs (k : Nat) (x : List Chunk) : (s.setWinQ k x).specs = s.specs := rfl
@[simp] theorem State.setWinQ_img (k : Nat) (x : List Chunk) : (s.setWinQ k x).img = s.img := rfl
@[simp] theorem State.setWinQ_outMaster (k : Nat) (x : List Chunk) : (s.setWinQ k x).outMaster = s.outMaster := rfl
@[simp] theorem State.setWinQ_outCopy (k : Nat) (x : List Chunk) : (s.setWinQ k x).outCopy = s.outCopy := rfl
@[simp] theorem State.setWinQ_snap (k : Nat) (x : List Chunk) : (s.setWinQ k x).snap = s.snap := rfl
@[simp] theorem State.setWinQ_closeVal (k : Nat) (x : List Chunk) : (s.setWinQ k x).closeVal = s.closeVal := rfl
@[simp] theorem State.setWinQ_closeFallow (k : Nat) (x : List Chunk) : (s.setWinQ k x).closeFallow = s.closeFallow := rfl
@[simp] theorem State.setWinQ_closeRew (k : Nat) (x : List Chunk) : (s.setWinQ k x).closeRew = s.closeRew := rfl
@[simp] theorem State.setWinQ_sampleT (k : Nat) (x : List Chunk) : (s.setWinQ k x).sampleT = s.sampleT := rfl
@[simp] theorem State.setWinQ_wraps (k : Nat) (x : List Chunk) : (s.setWinQ k x).wraps = s.wraps := rfl
@[simp] theorem State.setWinQ_t0 (k : Nat) (x : List Chunk) : (s.setWinQ k x).t0 = s.t0 := rfl
@[simp] theorem State.setWinQ_tbStep (k : Nat) (x : List Chunk) : (s.setWinQ k x).tbStep = s.tbStep := rfl
@[simp] theorem State.setWinQ_cyc (k : Nat) (x : List Chunk) : (s.setWinQ k x).cyc = s.cyc := rfl
@[simp] theorem State.setWinQ_log (k : Nat) (x : List Chunk) : (s.setWinQ k x).log = s.log := rfl
@[simp] theorem State.setWinQ_lseq (k : Nat) (x : List Chunk) : (s.setWinQ k x).lseq = s.lseq := rfl
@[simp] theorem State.setWinQ_evStage (k : Nat) (x : List Chunk) : (s.setWinQ k x).evStage = s.evStage := rfl
@[simp] theorem State.setWinQ_evNvm (k : Nat) (x : List Chunk) : (s.setWinQ k x).evNvm = s.evNvm := rfl
@[simp] theorem State.setWinQ_evLost (k : Nat) (x : List Chunk) : (s.setWinQ k x).evLost = s.evLost := rfl
@[simp] theorem State.setWinQ_opNs (k : Nat) (x : List Chunk) : (s.setWinQ k x).opNs = s.opNs := rfl
@[simp] theorem State.setWinQ_pcyc (k : Nat) (x : List Chunk) : (s.setWinQ k x).pcyc = s.pcyc := rfl
@[simp] theorem State.setWinQ_slots (k : Nat) (x : List Chunk) : (s.setWinQ k x).slots = s.slots := rfl
@[simp] theorem State.setWinQ_clusters (k : Nat) (x : List Chunk) : (s.setWinQ k x).clusters = s.clusters := rfl
@[simp] theorem State.setWinQ_hrings (k : Nat) (x : List Chunk) : (s.setWinQ k x).hrings = s.hrings := rfl
@[simp] theorem State.setWinQ_lanes (k : Nat) (x : List Chunk) : (s.setWinQ k x).lanes = s.lanes := rfl
@[simp] theorem State.setWinQ_validating (k : Nat) (x : List Chunk) : (s.setWinQ k x).validating = s.validating := rfl
@[simp] theorem State.setWinQ_stns (k : Nat) (x : List Chunk) : (s.setWinQ k x).stns = s.stns := rfl
@[simp] theorem State.setWinQ_pairs (k : Nat) (x : List Chunk) : (s.setWinQ k x).pairs = s.pairs := rfl
@[simp] theorem State.setWinQ_sdis (k : Nat) (x : List Chunk) : (s.setWinQ k x).sdis = s.sdis := rfl
@[simp] theorem State.setWinQ_dls (k : Nat) (x : List Chunk) : (s.setWinQ k x).dls = s.dls := rfl
@[simp] theorem State.setWinQ_tripRuns (k : Nat) (x : List Chunk) : (s.setWinQ k x).tripRuns = s.tripRuns := rfl
@[simp] theorem State.setWinQ_tbShared (k : Nat) (x : List Chunk) : (s.setWinQ k x).tbShared = s.tbShared := rfl
@[simp] theorem State.setWinQ_axes (k : Nat) (x : List Chunk) : (s.setWinQ k x).axes = s.axes := rfl
@[simp] theorem State.setWinQ_hg (k : Nat) (x : List Chunk) : (s.setWinQ k x).hg = s.hg := rfl
@[simp] theorem State.setWinQ_edges (k : Nat) (x : List Chunk) : (s.setWinQ k x).edges = s.edges := rfl
@[simp] theorem State.setWinQ_streams (k : Nat) (x : List Chunk) : (s.setWinQ k x).streams = s.streams := rfl
@[simp] theorem State.setWinQ_opens (k : Nat) (x : List Chunk) : (s.setWinQ k x).opens = s.opens := rfl
@[simp] theorem State.setWinQ_groups (k : Nat) (x : List Chunk) : (s.setWinQ k x).groups = s.groups := rfl
@[simp] theorem State.setWinQ_recLast (k : Nat) (x : List Chunk) : (s.setWinQ k x).recLast = s.recLast := rfl
@[simp] theorem State.setWinQ_specPend (k : Nat) (x : List Chunk) : (s.setWinQ k x).specPend = s.specPend := rfl
@[simp] theorem State.setWinQ_recBytes (k : Nat) (x : List Chunk) : (s.setWinQ k x).recBytes = s.recBytes := rfl
@[simp] theorem State.setWinQ_stageQ (k : Nat) (x : List Chunk) : (s.setWinQ k x).stageQ = s.stageQ := rfl
@[simp] theorem State.setWinQ_stageAt (k : Nat) (x : List Chunk) : (s.setWinQ k x).stageAt = s.stageAt := rfl
@[simp] theorem State.setWinQ_ces (k : Nat) (x : List Chunk) : (s.setWinQ k x).ces = s.ces := rfl
@[simp] theorem State.setWinQ_pools (k : Nat) (x : List Chunk) : (s.setWinQ k x).pools = s.pools := rfl
@[simp] theorem State.setWinQ_winId (k : Nat) (x : List Chunk) : (s.setWinQ k x).winId = s.winId := rfl
@[simp] theorem State.setWinQ_tbLast (k : Nat) (x : List Chunk) : (s.setWinQ k x).tbLast = s.tbLast := rfl
@[simp] theorem State.setWinQ_cans (k : Nat) (x : List Chunk) : (s.setWinQ k x).cans = s.cans := rfl
@[simp] theorem State.setWinQ_canBad (k : Nat) (x : List Chunk) : (s.setWinQ k x).canBad = s.canBad := rfl
@[simp] theorem State.setWinQ_canAge (k : Nat) (x : List Chunk) : (s.setWinQ k x).canAge = s.canAge := rfl
@[simp] theorem State.setWinQ_tasks (k : Nat) (x : List Chunk) : (s.setWinQ k x).tasks = s.tasks := rfl
@[simp] theorem State.setWinQ_rss (k : Nat) (x : List Chunk) : (s.setWinQ k x).rss = s.rss := rfl
@[simp] theorem State.setWinQ_flows (k : Nat) (x : List Chunk) : (s.setWinQ k x).flows = s.flows := rfl
@[simp] theorem State.setWinQ_stopFallow (k : Nat) (x : List Chunk) : (s.setWinQ k x).stopFallow = s.stopFallow := rfl
@[simp] theorem State.setWinQ_rings (k : Nat) (x : List Chunk) : (s.setWinQ k x).rings = s.rings := rfl
@[simp] theorem State.setWinQ_mails (k : Nat) (x : List Chunk) : (s.setWinQ k x).mails = s.mails := rfl
@[simp] theorem State.setWinQ_bootId (k : Nat) (x : List Chunk) : (s.setWinQ k x).bootId = s.bootId := rfl
@[simp] theorem State.setWinQ_xl (k : Nat) (x : List Chunk) : (s.setWinQ k x).xl = s.xl := rfl
@[simp] theorem State.setWinQ_tm (k : Nat) (x : List Chunk) : (s.setWinQ k x).tm = s.tm := rfl
@[simp] theorem State.setWinQ_boot (k : Nat) (x : List Chunk) : (s.setWinQ k x).boot = s.boot := rfl
@[simp] theorem State.setWinQ_integ (k : Nat) (x : List Chunk) : (s.setWinQ k x).integ = s.integ := rfl
@[simp] theorem State.setWinQ_mg (k : Nat) (x : List Chunk) : (s.setWinQ k x).mg = s.mg := rfl
@[simp] theorem State.setWinQ_worst (k : Nat) (x : List Chunk) : (s.setWinQ k x).worst = s.worst := rfl
@[simp] theorem State.setWinQ_fences (k : Nat) (x : List Chunk) : (s.setWinQ k x).fences = s.fences := rfl
@[simp] theorem State.setWinQ_hostDown (k : Nat) (x : List Chunk) : (s.setWinQ k x).hostDown = s.hostDown := rfl

-- setCanX
@[simp] theorem State.setCanX_pending (k : Nat) (x : CanX) : (s.setCanX k x).pending = s.pending := rfl
@[simp] theorem State.setCanX_out (k : Nat) (x : CanX) : (s.setCanX k x).out = s.out := rfl
@[simp] theorem State.setCanX_fresh (k : Nat) (x : CanX) : (s.setCanX k x).fresh = s.fresh := rfl
@[simp] theorem State.setCanX_lz2048 (k : Nat) (x : CanX) : (s.setCanX k x).lz2048 = s.lz2048 := rfl
@[simp] theorem State.setCanX_io (k : Nat) (x : CanX) : (s.setCanX k x).io = s.io := rfl
@[simp] theorem State.setCanX_lawMem (k : Nat) (x : CanX) : (s.setCanX k x).lawMem = s.lawMem := rfl
@[simp] theorem State.setCanX_dram (k : Nat) (x : CanX) : (s.setCanX k x).dram = s.dram := rfl
@[simp] theorem State.setCanX_specs (k : Nat) (x : CanX) : (s.setCanX k x).specs = s.specs := rfl
@[simp] theorem State.setCanX_img (k : Nat) (x : CanX) : (s.setCanX k x).img = s.img := rfl
@[simp] theorem State.setCanX_outMaster (k : Nat) (x : CanX) : (s.setCanX k x).outMaster = s.outMaster := rfl
@[simp] theorem State.setCanX_outCopy (k : Nat) (x : CanX) : (s.setCanX k x).outCopy = s.outCopy := rfl
@[simp] theorem State.setCanX_snap (k : Nat) (x : CanX) : (s.setCanX k x).snap = s.snap := rfl
@[simp] theorem State.setCanX_closeVal (k : Nat) (x : CanX) : (s.setCanX k x).closeVal = s.closeVal := rfl
@[simp] theorem State.setCanX_closeFallow (k : Nat) (x : CanX) : (s.setCanX k x).closeFallow = s.closeFallow := rfl
@[simp] theorem State.setCanX_closeRew (k : Nat) (x : CanX) : (s.setCanX k x).closeRew = s.closeRew := rfl
@[simp] theorem State.setCanX_sampleT (k : Nat) (x : CanX) : (s.setCanX k x).sampleT = s.sampleT := rfl
@[simp] theorem State.setCanX_wraps (k : Nat) (x : CanX) : (s.setCanX k x).wraps = s.wraps := rfl
@[simp] theorem State.setCanX_t0 (k : Nat) (x : CanX) : (s.setCanX k x).t0 = s.t0 := rfl
@[simp] theorem State.setCanX_tbStep (k : Nat) (x : CanX) : (s.setCanX k x).tbStep = s.tbStep := rfl
@[simp] theorem State.setCanX_cyc (k : Nat) (x : CanX) : (s.setCanX k x).cyc = s.cyc := rfl
@[simp] theorem State.setCanX_log (k : Nat) (x : CanX) : (s.setCanX k x).log = s.log := rfl
@[simp] theorem State.setCanX_lseq (k : Nat) (x : CanX) : (s.setCanX k x).lseq = s.lseq := rfl
@[simp] theorem State.setCanX_evStage (k : Nat) (x : CanX) : (s.setCanX k x).evStage = s.evStage := rfl
@[simp] theorem State.setCanX_evNvm (k : Nat) (x : CanX) : (s.setCanX k x).evNvm = s.evNvm := rfl
@[simp] theorem State.setCanX_evLost (k : Nat) (x : CanX) : (s.setCanX k x).evLost = s.evLost := rfl
@[simp] theorem State.setCanX_opNs (k : Nat) (x : CanX) : (s.setCanX k x).opNs = s.opNs := rfl
@[simp] theorem State.setCanX_pcyc (k : Nat) (x : CanX) : (s.setCanX k x).pcyc = s.pcyc := rfl
@[simp] theorem State.setCanX_slots (k : Nat) (x : CanX) : (s.setCanX k x).slots = s.slots := rfl
@[simp] theorem State.setCanX_clusters (k : Nat) (x : CanX) : (s.setCanX k x).clusters = s.clusters := rfl
@[simp] theorem State.setCanX_hrings (k : Nat) (x : CanX) : (s.setCanX k x).hrings = s.hrings := rfl
@[simp] theorem State.setCanX_lanes (k : Nat) (x : CanX) : (s.setCanX k x).lanes = s.lanes := rfl
@[simp] theorem State.setCanX_validating (k : Nat) (x : CanX) : (s.setCanX k x).validating = s.validating := rfl
@[simp] theorem State.setCanX_stns (k : Nat) (x : CanX) : (s.setCanX k x).stns = s.stns := rfl
@[simp] theorem State.setCanX_pairs (k : Nat) (x : CanX) : (s.setCanX k x).pairs = s.pairs := rfl
@[simp] theorem State.setCanX_sdis (k : Nat) (x : CanX) : (s.setCanX k x).sdis = s.sdis := rfl
@[simp] theorem State.setCanX_dls (k : Nat) (x : CanX) : (s.setCanX k x).dls = s.dls := rfl
@[simp] theorem State.setCanX_tripRuns (k : Nat) (x : CanX) : (s.setCanX k x).tripRuns = s.tripRuns := rfl
@[simp] theorem State.setCanX_tbShared (k : Nat) (x : CanX) : (s.setCanX k x).tbShared = s.tbShared := rfl
@[simp] theorem State.setCanX_axes (k : Nat) (x : CanX) : (s.setCanX k x).axes = s.axes := rfl
@[simp] theorem State.setCanX_hg (k : Nat) (x : CanX) : (s.setCanX k x).hg = s.hg := rfl
@[simp] theorem State.setCanX_edges (k : Nat) (x : CanX) : (s.setCanX k x).edges = s.edges := rfl
@[simp] theorem State.setCanX_streams (k : Nat) (x : CanX) : (s.setCanX k x).streams = s.streams := rfl
@[simp] theorem State.setCanX_opens (k : Nat) (x : CanX) : (s.setCanX k x).opens = s.opens := rfl
@[simp] theorem State.setCanX_groups (k : Nat) (x : CanX) : (s.setCanX k x).groups = s.groups := rfl
@[simp] theorem State.setCanX_recLast (k : Nat) (x : CanX) : (s.setCanX k x).recLast = s.recLast := rfl
@[simp] theorem State.setCanX_specPend (k : Nat) (x : CanX) : (s.setCanX k x).specPend = s.specPend := rfl
@[simp] theorem State.setCanX_recBytes (k : Nat) (x : CanX) : (s.setCanX k x).recBytes = s.recBytes := rfl
@[simp] theorem State.setCanX_stageQ (k : Nat) (x : CanX) : (s.setCanX k x).stageQ = s.stageQ := rfl
@[simp] theorem State.setCanX_stageAt (k : Nat) (x : CanX) : (s.setCanX k x).stageAt = s.stageAt := rfl
@[simp] theorem State.setCanX_ces (k : Nat) (x : CanX) : (s.setCanX k x).ces = s.ces := rfl
@[simp] theorem State.setCanX_pools (k : Nat) (x : CanX) : (s.setCanX k x).pools = s.pools := rfl
@[simp] theorem State.setCanX_winq (k : Nat) (x : CanX) : (s.setCanX k x).winq = s.winq := rfl
@[simp] theorem State.setCanX_winId (k : Nat) (x : CanX) : (s.setCanX k x).winId = s.winId := rfl
@[simp] theorem State.setCanX_tbLast (k : Nat) (x : CanX) : (s.setCanX k x).tbLast = s.tbLast := rfl
@[simp] theorem State.setCanX_canBad (k : Nat) (x : CanX) : (s.setCanX k x).canBad = s.canBad := rfl
@[simp] theorem State.setCanX_canAge (k : Nat) (x : CanX) : (s.setCanX k x).canAge = s.canAge := rfl
@[simp] theorem State.setCanX_tasks (k : Nat) (x : CanX) : (s.setCanX k x).tasks = s.tasks := rfl
@[simp] theorem State.setCanX_rss (k : Nat) (x : CanX) : (s.setCanX k x).rss = s.rss := rfl
@[simp] theorem State.setCanX_flows (k : Nat) (x : CanX) : (s.setCanX k x).flows = s.flows := rfl
@[simp] theorem State.setCanX_stopFallow (k : Nat) (x : CanX) : (s.setCanX k x).stopFallow = s.stopFallow := rfl
@[simp] theorem State.setCanX_rings (k : Nat) (x : CanX) : (s.setCanX k x).rings = s.rings := rfl
@[simp] theorem State.setCanX_mails (k : Nat) (x : CanX) : (s.setCanX k x).mails = s.mails := rfl
@[simp] theorem State.setCanX_bootId (k : Nat) (x : CanX) : (s.setCanX k x).bootId = s.bootId := rfl
@[simp] theorem State.setCanX_xl (k : Nat) (x : CanX) : (s.setCanX k x).xl = s.xl := rfl
@[simp] theorem State.setCanX_tm (k : Nat) (x : CanX) : (s.setCanX k x).tm = s.tm := rfl
@[simp] theorem State.setCanX_boot (k : Nat) (x : CanX) : (s.setCanX k x).boot = s.boot := rfl
@[simp] theorem State.setCanX_integ (k : Nat) (x : CanX) : (s.setCanX k x).integ = s.integ := rfl
@[simp] theorem State.setCanX_mg (k : Nat) (x : CanX) : (s.setCanX k x).mg = s.mg := rfl
@[simp] theorem State.setCanX_worst (k : Nat) (x : CanX) : (s.setCanX k x).worst = s.worst := rfl
@[simp] theorem State.setCanX_fences (k : Nat) (x : CanX) : (s.setCanX k x).fences = s.fences := rfl
@[simp] theorem State.setCanX_hostDown (k : Nat) (x : CanX) : (s.setCanX k x).hostDown = s.hostDown := rfl

-- setTaskX
@[simp] theorem State.setTaskX_pending (k : Nat) (x : TaskX) : (s.setTaskX k x).pending = s.pending := rfl
@[simp] theorem State.setTaskX_out (k : Nat) (x : TaskX) : (s.setTaskX k x).out = s.out := rfl
@[simp] theorem State.setTaskX_fresh (k : Nat) (x : TaskX) : (s.setTaskX k x).fresh = s.fresh := rfl
@[simp] theorem State.setTaskX_lz2048 (k : Nat) (x : TaskX) : (s.setTaskX k x).lz2048 = s.lz2048 := rfl
@[simp] theorem State.setTaskX_io (k : Nat) (x : TaskX) : (s.setTaskX k x).io = s.io := rfl
@[simp] theorem State.setTaskX_lawMem (k : Nat) (x : TaskX) : (s.setTaskX k x).lawMem = s.lawMem := rfl
@[simp] theorem State.setTaskX_dram (k : Nat) (x : TaskX) : (s.setTaskX k x).dram = s.dram := rfl
@[simp] theorem State.setTaskX_specs (k : Nat) (x : TaskX) : (s.setTaskX k x).specs = s.specs := rfl
@[simp] theorem State.setTaskX_img (k : Nat) (x : TaskX) : (s.setTaskX k x).img = s.img := rfl
@[simp] theorem State.setTaskX_outMaster (k : Nat) (x : TaskX) : (s.setTaskX k x).outMaster = s.outMaster := rfl
@[simp] theorem State.setTaskX_outCopy (k : Nat) (x : TaskX) : (s.setTaskX k x).outCopy = s.outCopy := rfl
@[simp] theorem State.setTaskX_snap (k : Nat) (x : TaskX) : (s.setTaskX k x).snap = s.snap := rfl
@[simp] theorem State.setTaskX_closeVal (k : Nat) (x : TaskX) : (s.setTaskX k x).closeVal = s.closeVal := rfl
@[simp] theorem State.setTaskX_closeFallow (k : Nat) (x : TaskX) : (s.setTaskX k x).closeFallow = s.closeFallow := rfl
@[simp] theorem State.setTaskX_closeRew (k : Nat) (x : TaskX) : (s.setTaskX k x).closeRew = s.closeRew := rfl
@[simp] theorem State.setTaskX_sampleT (k : Nat) (x : TaskX) : (s.setTaskX k x).sampleT = s.sampleT := rfl
@[simp] theorem State.setTaskX_wraps (k : Nat) (x : TaskX) : (s.setTaskX k x).wraps = s.wraps := rfl
@[simp] theorem State.setTaskX_t0 (k : Nat) (x : TaskX) : (s.setTaskX k x).t0 = s.t0 := rfl
@[simp] theorem State.setTaskX_tbStep (k : Nat) (x : TaskX) : (s.setTaskX k x).tbStep = s.tbStep := rfl
@[simp] theorem State.setTaskX_cyc (k : Nat) (x : TaskX) : (s.setTaskX k x).cyc = s.cyc := rfl
@[simp] theorem State.setTaskX_log (k : Nat) (x : TaskX) : (s.setTaskX k x).log = s.log := rfl
@[simp] theorem State.setTaskX_lseq (k : Nat) (x : TaskX) : (s.setTaskX k x).lseq = s.lseq := rfl
@[simp] theorem State.setTaskX_evStage (k : Nat) (x : TaskX) : (s.setTaskX k x).evStage = s.evStage := rfl
@[simp] theorem State.setTaskX_evNvm (k : Nat) (x : TaskX) : (s.setTaskX k x).evNvm = s.evNvm := rfl
@[simp] theorem State.setTaskX_evLost (k : Nat) (x : TaskX) : (s.setTaskX k x).evLost = s.evLost := rfl
@[simp] theorem State.setTaskX_opNs (k : Nat) (x : TaskX) : (s.setTaskX k x).opNs = s.opNs := rfl
@[simp] theorem State.setTaskX_pcyc (k : Nat) (x : TaskX) : (s.setTaskX k x).pcyc = s.pcyc := rfl
@[simp] theorem State.setTaskX_slots (k : Nat) (x : TaskX) : (s.setTaskX k x).slots = s.slots := rfl
@[simp] theorem State.setTaskX_clusters (k : Nat) (x : TaskX) : (s.setTaskX k x).clusters = s.clusters := rfl
@[simp] theorem State.setTaskX_hrings (k : Nat) (x : TaskX) : (s.setTaskX k x).hrings = s.hrings := rfl
@[simp] theorem State.setTaskX_lanes (k : Nat) (x : TaskX) : (s.setTaskX k x).lanes = s.lanes := rfl
@[simp] theorem State.setTaskX_validating (k : Nat) (x : TaskX) : (s.setTaskX k x).validating = s.validating := rfl
@[simp] theorem State.setTaskX_stns (k : Nat) (x : TaskX) : (s.setTaskX k x).stns = s.stns := rfl
@[simp] theorem State.setTaskX_pairs (k : Nat) (x : TaskX) : (s.setTaskX k x).pairs = s.pairs := rfl
@[simp] theorem State.setTaskX_sdis (k : Nat) (x : TaskX) : (s.setTaskX k x).sdis = s.sdis := rfl
@[simp] theorem State.setTaskX_dls (k : Nat) (x : TaskX) : (s.setTaskX k x).dls = s.dls := rfl
@[simp] theorem State.setTaskX_tripRuns (k : Nat) (x : TaskX) : (s.setTaskX k x).tripRuns = s.tripRuns := rfl
@[simp] theorem State.setTaskX_tbShared (k : Nat) (x : TaskX) : (s.setTaskX k x).tbShared = s.tbShared := rfl
@[simp] theorem State.setTaskX_axes (k : Nat) (x : TaskX) : (s.setTaskX k x).axes = s.axes := rfl
@[simp] theorem State.setTaskX_hg (k : Nat) (x : TaskX) : (s.setTaskX k x).hg = s.hg := rfl
@[simp] theorem State.setTaskX_edges (k : Nat) (x : TaskX) : (s.setTaskX k x).edges = s.edges := rfl
@[simp] theorem State.setTaskX_streams (k : Nat) (x : TaskX) : (s.setTaskX k x).streams = s.streams := rfl
@[simp] theorem State.setTaskX_opens (k : Nat) (x : TaskX) : (s.setTaskX k x).opens = s.opens := rfl
@[simp] theorem State.setTaskX_groups (k : Nat) (x : TaskX) : (s.setTaskX k x).groups = s.groups := rfl
@[simp] theorem State.setTaskX_recLast (k : Nat) (x : TaskX) : (s.setTaskX k x).recLast = s.recLast := rfl
@[simp] theorem State.setTaskX_specPend (k : Nat) (x : TaskX) : (s.setTaskX k x).specPend = s.specPend := rfl
@[simp] theorem State.setTaskX_recBytes (k : Nat) (x : TaskX) : (s.setTaskX k x).recBytes = s.recBytes := rfl
@[simp] theorem State.setTaskX_stageQ (k : Nat) (x : TaskX) : (s.setTaskX k x).stageQ = s.stageQ := rfl
@[simp] theorem State.setTaskX_stageAt (k : Nat) (x : TaskX) : (s.setTaskX k x).stageAt = s.stageAt := rfl
@[simp] theorem State.setTaskX_ces (k : Nat) (x : TaskX) : (s.setTaskX k x).ces = s.ces := rfl
@[simp] theorem State.setTaskX_pools (k : Nat) (x : TaskX) : (s.setTaskX k x).pools = s.pools := rfl
@[simp] theorem State.setTaskX_winq (k : Nat) (x : TaskX) : (s.setTaskX k x).winq = s.winq := rfl
@[simp] theorem State.setTaskX_winId (k : Nat) (x : TaskX) : (s.setTaskX k x).winId = s.winId := rfl
@[simp] theorem State.setTaskX_tbLast (k : Nat) (x : TaskX) : (s.setTaskX k x).tbLast = s.tbLast := rfl
@[simp] theorem State.setTaskX_cans (k : Nat) (x : TaskX) : (s.setTaskX k x).cans = s.cans := rfl
@[simp] theorem State.setTaskX_canBad (k : Nat) (x : TaskX) : (s.setTaskX k x).canBad = s.canBad := rfl
@[simp] theorem State.setTaskX_canAge (k : Nat) (x : TaskX) : (s.setTaskX k x).canAge = s.canAge := rfl
@[simp] theorem State.setTaskX_rss (k : Nat) (x : TaskX) : (s.setTaskX k x).rss = s.rss := rfl
@[simp] theorem State.setTaskX_flows (k : Nat) (x : TaskX) : (s.setTaskX k x).flows = s.flows := rfl
@[simp] theorem State.setTaskX_stopFallow (k : Nat) (x : TaskX) : (s.setTaskX k x).stopFallow = s.stopFallow := rfl
@[simp] theorem State.setTaskX_rings (k : Nat) (x : TaskX) : (s.setTaskX k x).rings = s.rings := rfl
@[simp] theorem State.setTaskX_mails (k : Nat) (x : TaskX) : (s.setTaskX k x).mails = s.mails := rfl
@[simp] theorem State.setTaskX_bootId (k : Nat) (x : TaskX) : (s.setTaskX k x).bootId = s.bootId := rfl
@[simp] theorem State.setTaskX_xl (k : Nat) (x : TaskX) : (s.setTaskX k x).xl = s.xl := rfl
@[simp] theorem State.setTaskX_tm (k : Nat) (x : TaskX) : (s.setTaskX k x).tm = s.tm := rfl
@[simp] theorem State.setTaskX_boot (k : Nat) (x : TaskX) : (s.setTaskX k x).boot = s.boot := rfl
@[simp] theorem State.setTaskX_integ (k : Nat) (x : TaskX) : (s.setTaskX k x).integ = s.integ := rfl
@[simp] theorem State.setTaskX_mg (k : Nat) (x : TaskX) : (s.setTaskX k x).mg = s.mg := rfl
@[simp] theorem State.setTaskX_worst (k : Nat) (x : TaskX) : (s.setTaskX k x).worst = s.worst := rfl
@[simp] theorem State.setTaskX_fences (k : Nat) (x : TaskX) : (s.setTaskX k x).fences = s.fences := rfl
@[simp] theorem State.setTaskX_hostDown (k : Nat) (x : TaskX) : (s.setTaskX k x).hostDown = s.hostDown := rfl

-- setRsX
@[simp] theorem State.setRsX_pending (k : Nat) (x : RsX) : (s.setRsX k x).pending = s.pending := rfl
@[simp] theorem State.setRsX_out (k : Nat) (x : RsX) : (s.setRsX k x).out = s.out := rfl
@[simp] theorem State.setRsX_fresh (k : Nat) (x : RsX) : (s.setRsX k x).fresh = s.fresh := rfl
@[simp] theorem State.setRsX_lz2048 (k : Nat) (x : RsX) : (s.setRsX k x).lz2048 = s.lz2048 := rfl
@[simp] theorem State.setRsX_io (k : Nat) (x : RsX) : (s.setRsX k x).io = s.io := rfl
@[simp] theorem State.setRsX_lawMem (k : Nat) (x : RsX) : (s.setRsX k x).lawMem = s.lawMem := rfl
@[simp] theorem State.setRsX_dram (k : Nat) (x : RsX) : (s.setRsX k x).dram = s.dram := rfl
@[simp] theorem State.setRsX_specs (k : Nat) (x : RsX) : (s.setRsX k x).specs = s.specs := rfl
@[simp] theorem State.setRsX_img (k : Nat) (x : RsX) : (s.setRsX k x).img = s.img := rfl
@[simp] theorem State.setRsX_outMaster (k : Nat) (x : RsX) : (s.setRsX k x).outMaster = s.outMaster := rfl
@[simp] theorem State.setRsX_outCopy (k : Nat) (x : RsX) : (s.setRsX k x).outCopy = s.outCopy := rfl
@[simp] theorem State.setRsX_snap (k : Nat) (x : RsX) : (s.setRsX k x).snap = s.snap := rfl
@[simp] theorem State.setRsX_closeVal (k : Nat) (x : RsX) : (s.setRsX k x).closeVal = s.closeVal := rfl
@[simp] theorem State.setRsX_closeFallow (k : Nat) (x : RsX) : (s.setRsX k x).closeFallow = s.closeFallow := rfl
@[simp] theorem State.setRsX_closeRew (k : Nat) (x : RsX) : (s.setRsX k x).closeRew = s.closeRew := rfl
@[simp] theorem State.setRsX_sampleT (k : Nat) (x : RsX) : (s.setRsX k x).sampleT = s.sampleT := rfl
@[simp] theorem State.setRsX_wraps (k : Nat) (x : RsX) : (s.setRsX k x).wraps = s.wraps := rfl
@[simp] theorem State.setRsX_t0 (k : Nat) (x : RsX) : (s.setRsX k x).t0 = s.t0 := rfl
@[simp] theorem State.setRsX_tbStep (k : Nat) (x : RsX) : (s.setRsX k x).tbStep = s.tbStep := rfl
@[simp] theorem State.setRsX_cyc (k : Nat) (x : RsX) : (s.setRsX k x).cyc = s.cyc := rfl
@[simp] theorem State.setRsX_log (k : Nat) (x : RsX) : (s.setRsX k x).log = s.log := rfl
@[simp] theorem State.setRsX_lseq (k : Nat) (x : RsX) : (s.setRsX k x).lseq = s.lseq := rfl
@[simp] theorem State.setRsX_evStage (k : Nat) (x : RsX) : (s.setRsX k x).evStage = s.evStage := rfl
@[simp] theorem State.setRsX_evNvm (k : Nat) (x : RsX) : (s.setRsX k x).evNvm = s.evNvm := rfl
@[simp] theorem State.setRsX_evLost (k : Nat) (x : RsX) : (s.setRsX k x).evLost = s.evLost := rfl
@[simp] theorem State.setRsX_opNs (k : Nat) (x : RsX) : (s.setRsX k x).opNs = s.opNs := rfl
@[simp] theorem State.setRsX_pcyc (k : Nat) (x : RsX) : (s.setRsX k x).pcyc = s.pcyc := rfl
@[simp] theorem State.setRsX_slots (k : Nat) (x : RsX) : (s.setRsX k x).slots = s.slots := rfl
@[simp] theorem State.setRsX_clusters (k : Nat) (x : RsX) : (s.setRsX k x).clusters = s.clusters := rfl
@[simp] theorem State.setRsX_hrings (k : Nat) (x : RsX) : (s.setRsX k x).hrings = s.hrings := rfl
@[simp] theorem State.setRsX_lanes (k : Nat) (x : RsX) : (s.setRsX k x).lanes = s.lanes := rfl
@[simp] theorem State.setRsX_validating (k : Nat) (x : RsX) : (s.setRsX k x).validating = s.validating := rfl
@[simp] theorem State.setRsX_stns (k : Nat) (x : RsX) : (s.setRsX k x).stns = s.stns := rfl
@[simp] theorem State.setRsX_pairs (k : Nat) (x : RsX) : (s.setRsX k x).pairs = s.pairs := rfl
@[simp] theorem State.setRsX_sdis (k : Nat) (x : RsX) : (s.setRsX k x).sdis = s.sdis := rfl
@[simp] theorem State.setRsX_dls (k : Nat) (x : RsX) : (s.setRsX k x).dls = s.dls := rfl
@[simp] theorem State.setRsX_tripRuns (k : Nat) (x : RsX) : (s.setRsX k x).tripRuns = s.tripRuns := rfl
@[simp] theorem State.setRsX_tbShared (k : Nat) (x : RsX) : (s.setRsX k x).tbShared = s.tbShared := rfl
@[simp] theorem State.setRsX_axes (k : Nat) (x : RsX) : (s.setRsX k x).axes = s.axes := rfl
@[simp] theorem State.setRsX_hg (k : Nat) (x : RsX) : (s.setRsX k x).hg = s.hg := rfl
@[simp] theorem State.setRsX_edges (k : Nat) (x : RsX) : (s.setRsX k x).edges = s.edges := rfl
@[simp] theorem State.setRsX_streams (k : Nat) (x : RsX) : (s.setRsX k x).streams = s.streams := rfl
@[simp] theorem State.setRsX_opens (k : Nat) (x : RsX) : (s.setRsX k x).opens = s.opens := rfl
@[simp] theorem State.setRsX_groups (k : Nat) (x : RsX) : (s.setRsX k x).groups = s.groups := rfl
@[simp] theorem State.setRsX_recLast (k : Nat) (x : RsX) : (s.setRsX k x).recLast = s.recLast := rfl
@[simp] theorem State.setRsX_specPend (k : Nat) (x : RsX) : (s.setRsX k x).specPend = s.specPend := rfl
@[simp] theorem State.setRsX_recBytes (k : Nat) (x : RsX) : (s.setRsX k x).recBytes = s.recBytes := rfl
@[simp] theorem State.setRsX_stageQ (k : Nat) (x : RsX) : (s.setRsX k x).stageQ = s.stageQ := rfl
@[simp] theorem State.setRsX_stageAt (k : Nat) (x : RsX) : (s.setRsX k x).stageAt = s.stageAt := rfl
@[simp] theorem State.setRsX_ces (k : Nat) (x : RsX) : (s.setRsX k x).ces = s.ces := rfl
@[simp] theorem State.setRsX_pools (k : Nat) (x : RsX) : (s.setRsX k x).pools = s.pools := rfl
@[simp] theorem State.setRsX_winq (k : Nat) (x : RsX) : (s.setRsX k x).winq = s.winq := rfl
@[simp] theorem State.setRsX_winId (k : Nat) (x : RsX) : (s.setRsX k x).winId = s.winId := rfl
@[simp] theorem State.setRsX_tbLast (k : Nat) (x : RsX) : (s.setRsX k x).tbLast = s.tbLast := rfl
@[simp] theorem State.setRsX_cans (k : Nat) (x : RsX) : (s.setRsX k x).cans = s.cans := rfl
@[simp] theorem State.setRsX_canBad (k : Nat) (x : RsX) : (s.setRsX k x).canBad = s.canBad := rfl
@[simp] theorem State.setRsX_canAge (k : Nat) (x : RsX) : (s.setRsX k x).canAge = s.canAge := rfl
@[simp] theorem State.setRsX_tasks (k : Nat) (x : RsX) : (s.setRsX k x).tasks = s.tasks := rfl
@[simp] theorem State.setRsX_flows (k : Nat) (x : RsX) : (s.setRsX k x).flows = s.flows := rfl
@[simp] theorem State.setRsX_stopFallow (k : Nat) (x : RsX) : (s.setRsX k x).stopFallow = s.stopFallow := rfl
@[simp] theorem State.setRsX_rings (k : Nat) (x : RsX) : (s.setRsX k x).rings = s.rings := rfl
@[simp] theorem State.setRsX_mails (k : Nat) (x : RsX) : (s.setRsX k x).mails = s.mails := rfl
@[simp] theorem State.setRsX_bootId (k : Nat) (x : RsX) : (s.setRsX k x).bootId = s.bootId := rfl
@[simp] theorem State.setRsX_xl (k : Nat) (x : RsX) : (s.setRsX k x).xl = s.xl := rfl
@[simp] theorem State.setRsX_tm (k : Nat) (x : RsX) : (s.setRsX k x).tm = s.tm := rfl
@[simp] theorem State.setRsX_boot (k : Nat) (x : RsX) : (s.setRsX k x).boot = s.boot := rfl
@[simp] theorem State.setRsX_integ (k : Nat) (x : RsX) : (s.setRsX k x).integ = s.integ := rfl
@[simp] theorem State.setRsX_mg (k : Nat) (x : RsX) : (s.setRsX k x).mg = s.mg := rfl
@[simp] theorem State.setRsX_worst (k : Nat) (x : RsX) : (s.setRsX k x).worst = s.worst := rfl
@[simp] theorem State.setRsX_fences (k : Nat) (x : RsX) : (s.setRsX k x).fences = s.fences := rfl
@[simp] theorem State.setRsX_hostDown (k : Nat) (x : RsX) : (s.setRsX k x).hostDown = s.hostDown := rfl

-- setFlowX
@[simp] theorem State.setFlowX_pending (k : Nat) (x : FlowX) : (s.setFlowX k x).pending = s.pending := rfl
@[simp] theorem State.setFlowX_out (k : Nat) (x : FlowX) : (s.setFlowX k x).out = s.out := rfl
@[simp] theorem State.setFlowX_fresh (k : Nat) (x : FlowX) : (s.setFlowX k x).fresh = s.fresh := rfl
@[simp] theorem State.setFlowX_lz2048 (k : Nat) (x : FlowX) : (s.setFlowX k x).lz2048 = s.lz2048 := rfl
@[simp] theorem State.setFlowX_io (k : Nat) (x : FlowX) : (s.setFlowX k x).io = s.io := rfl
@[simp] theorem State.setFlowX_lawMem (k : Nat) (x : FlowX) : (s.setFlowX k x).lawMem = s.lawMem := rfl
@[simp] theorem State.setFlowX_dram (k : Nat) (x : FlowX) : (s.setFlowX k x).dram = s.dram := rfl
@[simp] theorem State.setFlowX_specs (k : Nat) (x : FlowX) : (s.setFlowX k x).specs = s.specs := rfl
@[simp] theorem State.setFlowX_img (k : Nat) (x : FlowX) : (s.setFlowX k x).img = s.img := rfl
@[simp] theorem State.setFlowX_outMaster (k : Nat) (x : FlowX) : (s.setFlowX k x).outMaster = s.outMaster := rfl
@[simp] theorem State.setFlowX_outCopy (k : Nat) (x : FlowX) : (s.setFlowX k x).outCopy = s.outCopy := rfl
@[simp] theorem State.setFlowX_snap (k : Nat) (x : FlowX) : (s.setFlowX k x).snap = s.snap := rfl
@[simp] theorem State.setFlowX_closeVal (k : Nat) (x : FlowX) : (s.setFlowX k x).closeVal = s.closeVal := rfl
@[simp] theorem State.setFlowX_closeFallow (k : Nat) (x : FlowX) : (s.setFlowX k x).closeFallow = s.closeFallow := rfl
@[simp] theorem State.setFlowX_closeRew (k : Nat) (x : FlowX) : (s.setFlowX k x).closeRew = s.closeRew := rfl
@[simp] theorem State.setFlowX_sampleT (k : Nat) (x : FlowX) : (s.setFlowX k x).sampleT = s.sampleT := rfl
@[simp] theorem State.setFlowX_wraps (k : Nat) (x : FlowX) : (s.setFlowX k x).wraps = s.wraps := rfl
@[simp] theorem State.setFlowX_t0 (k : Nat) (x : FlowX) : (s.setFlowX k x).t0 = s.t0 := rfl
@[simp] theorem State.setFlowX_tbStep (k : Nat) (x : FlowX) : (s.setFlowX k x).tbStep = s.tbStep := rfl
@[simp] theorem State.setFlowX_cyc (k : Nat) (x : FlowX) : (s.setFlowX k x).cyc = s.cyc := rfl
@[simp] theorem State.setFlowX_log (k : Nat) (x : FlowX) : (s.setFlowX k x).log = s.log := rfl
@[simp] theorem State.setFlowX_lseq (k : Nat) (x : FlowX) : (s.setFlowX k x).lseq = s.lseq := rfl
@[simp] theorem State.setFlowX_evStage (k : Nat) (x : FlowX) : (s.setFlowX k x).evStage = s.evStage := rfl
@[simp] theorem State.setFlowX_evNvm (k : Nat) (x : FlowX) : (s.setFlowX k x).evNvm = s.evNvm := rfl
@[simp] theorem State.setFlowX_evLost (k : Nat) (x : FlowX) : (s.setFlowX k x).evLost = s.evLost := rfl
@[simp] theorem State.setFlowX_opNs (k : Nat) (x : FlowX) : (s.setFlowX k x).opNs = s.opNs := rfl
@[simp] theorem State.setFlowX_pcyc (k : Nat) (x : FlowX) : (s.setFlowX k x).pcyc = s.pcyc := rfl
@[simp] theorem State.setFlowX_slots (k : Nat) (x : FlowX) : (s.setFlowX k x).slots = s.slots := rfl
@[simp] theorem State.setFlowX_clusters (k : Nat) (x : FlowX) : (s.setFlowX k x).clusters = s.clusters := rfl
@[simp] theorem State.setFlowX_hrings (k : Nat) (x : FlowX) : (s.setFlowX k x).hrings = s.hrings := rfl
@[simp] theorem State.setFlowX_lanes (k : Nat) (x : FlowX) : (s.setFlowX k x).lanes = s.lanes := rfl
@[simp] theorem State.setFlowX_validating (k : Nat) (x : FlowX) : (s.setFlowX k x).validating = s.validating := rfl
@[simp] theorem State.setFlowX_stns (k : Nat) (x : FlowX) : (s.setFlowX k x).stns = s.stns := rfl
@[simp] theorem State.setFlowX_pairs (k : Nat) (x : FlowX) : (s.setFlowX k x).pairs = s.pairs := rfl
@[simp] theorem State.setFlowX_sdis (k : Nat) (x : FlowX) : (s.setFlowX k x).sdis = s.sdis := rfl
@[simp] theorem State.setFlowX_dls (k : Nat) (x : FlowX) : (s.setFlowX k x).dls = s.dls := rfl
@[simp] theorem State.setFlowX_tripRuns (k : Nat) (x : FlowX) : (s.setFlowX k x).tripRuns = s.tripRuns := rfl
@[simp] theorem State.setFlowX_tbShared (k : Nat) (x : FlowX) : (s.setFlowX k x).tbShared = s.tbShared := rfl
@[simp] theorem State.setFlowX_axes (k : Nat) (x : FlowX) : (s.setFlowX k x).axes = s.axes := rfl
@[simp] theorem State.setFlowX_hg (k : Nat) (x : FlowX) : (s.setFlowX k x).hg = s.hg := rfl
@[simp] theorem State.setFlowX_edges (k : Nat) (x : FlowX) : (s.setFlowX k x).edges = s.edges := rfl
@[simp] theorem State.setFlowX_streams (k : Nat) (x : FlowX) : (s.setFlowX k x).streams = s.streams := rfl
@[simp] theorem State.setFlowX_opens (k : Nat) (x : FlowX) : (s.setFlowX k x).opens = s.opens := rfl
@[simp] theorem State.setFlowX_groups (k : Nat) (x : FlowX) : (s.setFlowX k x).groups = s.groups := rfl
@[simp] theorem State.setFlowX_recLast (k : Nat) (x : FlowX) : (s.setFlowX k x).recLast = s.recLast := rfl
@[simp] theorem State.setFlowX_specPend (k : Nat) (x : FlowX) : (s.setFlowX k x).specPend = s.specPend := rfl
@[simp] theorem State.setFlowX_recBytes (k : Nat) (x : FlowX) : (s.setFlowX k x).recBytes = s.recBytes := rfl
@[simp] theorem State.setFlowX_stageQ (k : Nat) (x : FlowX) : (s.setFlowX k x).stageQ = s.stageQ := rfl
@[simp] theorem State.setFlowX_stageAt (k : Nat) (x : FlowX) : (s.setFlowX k x).stageAt = s.stageAt := rfl
@[simp] theorem State.setFlowX_ces (k : Nat) (x : FlowX) : (s.setFlowX k x).ces = s.ces := rfl
@[simp] theorem State.setFlowX_pools (k : Nat) (x : FlowX) : (s.setFlowX k x).pools = s.pools := rfl
@[simp] theorem State.setFlowX_winq (k : Nat) (x : FlowX) : (s.setFlowX k x).winq = s.winq := rfl
@[simp] theorem State.setFlowX_winId (k : Nat) (x : FlowX) : (s.setFlowX k x).winId = s.winId := rfl
@[simp] theorem State.setFlowX_tbLast (k : Nat) (x : FlowX) : (s.setFlowX k x).tbLast = s.tbLast := rfl
@[simp] theorem State.setFlowX_cans (k : Nat) (x : FlowX) : (s.setFlowX k x).cans = s.cans := rfl
@[simp] theorem State.setFlowX_canBad (k : Nat) (x : FlowX) : (s.setFlowX k x).canBad = s.canBad := rfl
@[simp] theorem State.setFlowX_canAge (k : Nat) (x : FlowX) : (s.setFlowX k x).canAge = s.canAge := rfl
@[simp] theorem State.setFlowX_tasks (k : Nat) (x : FlowX) : (s.setFlowX k x).tasks = s.tasks := rfl
@[simp] theorem State.setFlowX_rss (k : Nat) (x : FlowX) : (s.setFlowX k x).rss = s.rss := rfl
@[simp] theorem State.setFlowX_stopFallow (k : Nat) (x : FlowX) : (s.setFlowX k x).stopFallow = s.stopFallow := rfl
@[simp] theorem State.setFlowX_rings (k : Nat) (x : FlowX) : (s.setFlowX k x).rings = s.rings := rfl
@[simp] theorem State.setFlowX_mails (k : Nat) (x : FlowX) : (s.setFlowX k x).mails = s.mails := rfl
@[simp] theorem State.setFlowX_bootId (k : Nat) (x : FlowX) : (s.setFlowX k x).bootId = s.bootId := rfl
@[simp] theorem State.setFlowX_xl (k : Nat) (x : FlowX) : (s.setFlowX k x).xl = s.xl := rfl
@[simp] theorem State.setFlowX_tm (k : Nat) (x : FlowX) : (s.setFlowX k x).tm = s.tm := rfl
@[simp] theorem State.setFlowX_boot (k : Nat) (x : FlowX) : (s.setFlowX k x).boot = s.boot := rfl
@[simp] theorem State.setFlowX_integ (k : Nat) (x : FlowX) : (s.setFlowX k x).integ = s.integ := rfl
@[simp] theorem State.setFlowX_mg (k : Nat) (x : FlowX) : (s.setFlowX k x).mg = s.mg := rfl
@[simp] theorem State.setFlowX_worst (k : Nat) (x : FlowX) : (s.setFlowX k x).worst = s.worst := rfl
@[simp] theorem State.setFlowX_fences (k : Nat) (x : FlowX) : (s.setFlowX k x).fences = s.fences := rfl
@[simp] theorem State.setFlowX_hostDown (k : Nat) (x : FlowX) : (s.setFlowX k x).hostDown = s.hostDown := rfl

-- setRingX
@[simp] theorem State.setRingX_pending (k : Nat) (x : RingX) : (s.setRingX k x).pending = s.pending := rfl
@[simp] theorem State.setRingX_out (k : Nat) (x : RingX) : (s.setRingX k x).out = s.out := rfl
@[simp] theorem State.setRingX_fresh (k : Nat) (x : RingX) : (s.setRingX k x).fresh = s.fresh := rfl
@[simp] theorem State.setRingX_lz2048 (k : Nat) (x : RingX) : (s.setRingX k x).lz2048 = s.lz2048 := rfl
@[simp] theorem State.setRingX_io (k : Nat) (x : RingX) : (s.setRingX k x).io = s.io := rfl
@[simp] theorem State.setRingX_lawMem (k : Nat) (x : RingX) : (s.setRingX k x).lawMem = s.lawMem := rfl
@[simp] theorem State.setRingX_dram (k : Nat) (x : RingX) : (s.setRingX k x).dram = s.dram := rfl
@[simp] theorem State.setRingX_specs (k : Nat) (x : RingX) : (s.setRingX k x).specs = s.specs := rfl
@[simp] theorem State.setRingX_img (k : Nat) (x : RingX) : (s.setRingX k x).img = s.img := rfl
@[simp] theorem State.setRingX_outMaster (k : Nat) (x : RingX) : (s.setRingX k x).outMaster = s.outMaster := rfl
@[simp] theorem State.setRingX_outCopy (k : Nat) (x : RingX) : (s.setRingX k x).outCopy = s.outCopy := rfl
@[simp] theorem State.setRingX_snap (k : Nat) (x : RingX) : (s.setRingX k x).snap = s.snap := rfl
@[simp] theorem State.setRingX_closeVal (k : Nat) (x : RingX) : (s.setRingX k x).closeVal = s.closeVal := rfl
@[simp] theorem State.setRingX_closeFallow (k : Nat) (x : RingX) : (s.setRingX k x).closeFallow = s.closeFallow := rfl
@[simp] theorem State.setRingX_closeRew (k : Nat) (x : RingX) : (s.setRingX k x).closeRew = s.closeRew := rfl
@[simp] theorem State.setRingX_sampleT (k : Nat) (x : RingX) : (s.setRingX k x).sampleT = s.sampleT := rfl
@[simp] theorem State.setRingX_wraps (k : Nat) (x : RingX) : (s.setRingX k x).wraps = s.wraps := rfl
@[simp] theorem State.setRingX_t0 (k : Nat) (x : RingX) : (s.setRingX k x).t0 = s.t0 := rfl
@[simp] theorem State.setRingX_tbStep (k : Nat) (x : RingX) : (s.setRingX k x).tbStep = s.tbStep := rfl
@[simp] theorem State.setRingX_cyc (k : Nat) (x : RingX) : (s.setRingX k x).cyc = s.cyc := rfl
@[simp] theorem State.setRingX_log (k : Nat) (x : RingX) : (s.setRingX k x).log = s.log := rfl
@[simp] theorem State.setRingX_lseq (k : Nat) (x : RingX) : (s.setRingX k x).lseq = s.lseq := rfl
@[simp] theorem State.setRingX_evStage (k : Nat) (x : RingX) : (s.setRingX k x).evStage = s.evStage := rfl
@[simp] theorem State.setRingX_evNvm (k : Nat) (x : RingX) : (s.setRingX k x).evNvm = s.evNvm := rfl
@[simp] theorem State.setRingX_evLost (k : Nat) (x : RingX) : (s.setRingX k x).evLost = s.evLost := rfl
@[simp] theorem State.setRingX_opNs (k : Nat) (x : RingX) : (s.setRingX k x).opNs = s.opNs := rfl
@[simp] theorem State.setRingX_pcyc (k : Nat) (x : RingX) : (s.setRingX k x).pcyc = s.pcyc := rfl
@[simp] theorem State.setRingX_slots (k : Nat) (x : RingX) : (s.setRingX k x).slots = s.slots := rfl
@[simp] theorem State.setRingX_clusters (k : Nat) (x : RingX) : (s.setRingX k x).clusters = s.clusters := rfl
@[simp] theorem State.setRingX_hrings (k : Nat) (x : RingX) : (s.setRingX k x).hrings = s.hrings := rfl
@[simp] theorem State.setRingX_lanes (k : Nat) (x : RingX) : (s.setRingX k x).lanes = s.lanes := rfl
@[simp] theorem State.setRingX_validating (k : Nat) (x : RingX) : (s.setRingX k x).validating = s.validating := rfl
@[simp] theorem State.setRingX_stns (k : Nat) (x : RingX) : (s.setRingX k x).stns = s.stns := rfl
@[simp] theorem State.setRingX_pairs (k : Nat) (x : RingX) : (s.setRingX k x).pairs = s.pairs := rfl
@[simp] theorem State.setRingX_sdis (k : Nat) (x : RingX) : (s.setRingX k x).sdis = s.sdis := rfl
@[simp] theorem State.setRingX_dls (k : Nat) (x : RingX) : (s.setRingX k x).dls = s.dls := rfl
@[simp] theorem State.setRingX_tripRuns (k : Nat) (x : RingX) : (s.setRingX k x).tripRuns = s.tripRuns := rfl
@[simp] theorem State.setRingX_tbShared (k : Nat) (x : RingX) : (s.setRingX k x).tbShared = s.tbShared := rfl
@[simp] theorem State.setRingX_axes (k : Nat) (x : RingX) : (s.setRingX k x).axes = s.axes := rfl
@[simp] theorem State.setRingX_hg (k : Nat) (x : RingX) : (s.setRingX k x).hg = s.hg := rfl
@[simp] theorem State.setRingX_edges (k : Nat) (x : RingX) : (s.setRingX k x).edges = s.edges := rfl
@[simp] theorem State.setRingX_streams (k : Nat) (x : RingX) : (s.setRingX k x).streams = s.streams := rfl
@[simp] theorem State.setRingX_opens (k : Nat) (x : RingX) : (s.setRingX k x).opens = s.opens := rfl
@[simp] theorem State.setRingX_groups (k : Nat) (x : RingX) : (s.setRingX k x).groups = s.groups := rfl
@[simp] theorem State.setRingX_recLast (k : Nat) (x : RingX) : (s.setRingX k x).recLast = s.recLast := rfl
@[simp] theorem State.setRingX_specPend (k : Nat) (x : RingX) : (s.setRingX k x).specPend = s.specPend := rfl
@[simp] theorem State.setRingX_recBytes (k : Nat) (x : RingX) : (s.setRingX k x).recBytes = s.recBytes := rfl
@[simp] theorem State.setRingX_stageQ (k : Nat) (x : RingX) : (s.setRingX k x).stageQ = s.stageQ := rfl
@[simp] theorem State.setRingX_stageAt (k : Nat) (x : RingX) : (s.setRingX k x).stageAt = s.stageAt := rfl
@[simp] theorem State.setRingX_ces (k : Nat) (x : RingX) : (s.setRingX k x).ces = s.ces := rfl
@[simp] theorem State.setRingX_pools (k : Nat) (x : RingX) : (s.setRingX k x).pools = s.pools := rfl
@[simp] theorem State.setRingX_winq (k : Nat) (x : RingX) : (s.setRingX k x).winq = s.winq := rfl
@[simp] theorem State.setRingX_winId (k : Nat) (x : RingX) : (s.setRingX k x).winId = s.winId := rfl
@[simp] theorem State.setRingX_tbLast (k : Nat) (x : RingX) : (s.setRingX k x).tbLast = s.tbLast := rfl
@[simp] theorem State.setRingX_cans (k : Nat) (x : RingX) : (s.setRingX k x).cans = s.cans := rfl
@[simp] theorem State.setRingX_canBad (k : Nat) (x : RingX) : (s.setRingX k x).canBad = s.canBad := rfl
@[simp] theorem State.setRingX_canAge (k : Nat) (x : RingX) : (s.setRingX k x).canAge = s.canAge := rfl
@[simp] theorem State.setRingX_tasks (k : Nat) (x : RingX) : (s.setRingX k x).tasks = s.tasks := rfl
@[simp] theorem State.setRingX_rss (k : Nat) (x : RingX) : (s.setRingX k x).rss = s.rss := rfl
@[simp] theorem State.setRingX_flows (k : Nat) (x : RingX) : (s.setRingX k x).flows = s.flows := rfl
@[simp] theorem State.setRingX_stopFallow (k : Nat) (x : RingX) : (s.setRingX k x).stopFallow = s.stopFallow := rfl
@[simp] theorem State.setRingX_mails (k : Nat) (x : RingX) : (s.setRingX k x).mails = s.mails := rfl
@[simp] theorem State.setRingX_bootId (k : Nat) (x : RingX) : (s.setRingX k x).bootId = s.bootId := rfl
@[simp] theorem State.setRingX_xl (k : Nat) (x : RingX) : (s.setRingX k x).xl = s.xl := rfl
@[simp] theorem State.setRingX_tm (k : Nat) (x : RingX) : (s.setRingX k x).tm = s.tm := rfl
@[simp] theorem State.setRingX_boot (k : Nat) (x : RingX) : (s.setRingX k x).boot = s.boot := rfl
@[simp] theorem State.setRingX_integ (k : Nat) (x : RingX) : (s.setRingX k x).integ = s.integ := rfl
@[simp] theorem State.setRingX_mg (k : Nat) (x : RingX) : (s.setRingX k x).mg = s.mg := rfl
@[simp] theorem State.setRingX_worst (k : Nat) (x : RingX) : (s.setRingX k x).worst = s.worst := rfl
@[simp] theorem State.setRingX_fences (k : Nat) (x : RingX) : (s.setRingX k x).fences = s.fences := rfl
@[simp] theorem State.setRingX_hostDown (k : Nat) (x : RingX) : (s.setRingX k x).hostDown = s.hostDown := rfl

-- draw
@[simp] theorem State.draw_pending : s.draw.2.pending = s.pending := rfl
@[simp] theorem State.draw_out : s.draw.2.out = s.out := rfl
@[simp] theorem State.draw_lz2048 : s.draw.2.lz2048 = s.lz2048 := rfl
@[simp] theorem State.draw_io : s.draw.2.io = s.io := rfl
@[simp] theorem State.draw_lawMem : s.draw.2.lawMem = s.lawMem := rfl
@[simp] theorem State.draw_dram : s.draw.2.dram = s.dram := rfl
@[simp] theorem State.draw_specs : s.draw.2.specs = s.specs := rfl
@[simp] theorem State.draw_img : s.draw.2.img = s.img := rfl
@[simp] theorem State.draw_outMaster : s.draw.2.outMaster = s.outMaster := rfl
@[simp] theorem State.draw_outCopy : s.draw.2.outCopy = s.outCopy := rfl
@[simp] theorem State.draw_snap : s.draw.2.snap = s.snap := rfl
@[simp] theorem State.draw_closeVal : s.draw.2.closeVal = s.closeVal := rfl
@[simp] theorem State.draw_closeFallow : s.draw.2.closeFallow = s.closeFallow := rfl
@[simp] theorem State.draw_closeRew : s.draw.2.closeRew = s.closeRew := rfl
@[simp] theorem State.draw_sampleT : s.draw.2.sampleT = s.sampleT := rfl
@[simp] theorem State.draw_wraps : s.draw.2.wraps = s.wraps := rfl
@[simp] theorem State.draw_t0 : s.draw.2.t0 = s.t0 := rfl
@[simp] theorem State.draw_tbStep : s.draw.2.tbStep = s.tbStep := rfl
@[simp] theorem State.draw_cyc : s.draw.2.cyc = s.cyc := rfl
@[simp] theorem State.draw_log : s.draw.2.log = s.log := rfl
@[simp] theorem State.draw_lseq : s.draw.2.lseq = s.lseq := rfl
@[simp] theorem State.draw_evStage : s.draw.2.evStage = s.evStage := rfl
@[simp] theorem State.draw_evNvm : s.draw.2.evNvm = s.evNvm := rfl
@[simp] theorem State.draw_evLost : s.draw.2.evLost = s.evLost := rfl
@[simp] theorem State.draw_opNs : s.draw.2.opNs = s.opNs := rfl
@[simp] theorem State.draw_pcyc : s.draw.2.pcyc = s.pcyc := rfl
@[simp] theorem State.draw_slots : s.draw.2.slots = s.slots := rfl
@[simp] theorem State.draw_clusters : s.draw.2.clusters = s.clusters := rfl
@[simp] theorem State.draw_hrings : s.draw.2.hrings = s.hrings := rfl
@[simp] theorem State.draw_lanes : s.draw.2.lanes = s.lanes := rfl
@[simp] theorem State.draw_validating : s.draw.2.validating = s.validating := rfl
@[simp] theorem State.draw_stns : s.draw.2.stns = s.stns := rfl
@[simp] theorem State.draw_pairs : s.draw.2.pairs = s.pairs := rfl
@[simp] theorem State.draw_sdis : s.draw.2.sdis = s.sdis := rfl
@[simp] theorem State.draw_dls : s.draw.2.dls = s.dls := rfl
@[simp] theorem State.draw_tripRuns : s.draw.2.tripRuns = s.tripRuns := rfl
@[simp] theorem State.draw_tbShared : s.draw.2.tbShared = s.tbShared := rfl
@[simp] theorem State.draw_axes : s.draw.2.axes = s.axes := rfl
@[simp] theorem State.draw_hg : s.draw.2.hg = s.hg := rfl
@[simp] theorem State.draw_edges : s.draw.2.edges = s.edges := rfl
@[simp] theorem State.draw_streams : s.draw.2.streams = s.streams := rfl
@[simp] theorem State.draw_opens : s.draw.2.opens = s.opens := rfl
@[simp] theorem State.draw_groups : s.draw.2.groups = s.groups := rfl
@[simp] theorem State.draw_recLast : s.draw.2.recLast = s.recLast := rfl
@[simp] theorem State.draw_specPend : s.draw.2.specPend = s.specPend := rfl
@[simp] theorem State.draw_recBytes : s.draw.2.recBytes = s.recBytes := rfl
@[simp] theorem State.draw_stageQ : s.draw.2.stageQ = s.stageQ := rfl
@[simp] theorem State.draw_stageAt : s.draw.2.stageAt = s.stageAt := rfl
@[simp] theorem State.draw_ces : s.draw.2.ces = s.ces := rfl
@[simp] theorem State.draw_pools : s.draw.2.pools = s.pools := rfl
@[simp] theorem State.draw_winq : s.draw.2.winq = s.winq := rfl
@[simp] theorem State.draw_winId : s.draw.2.winId = s.winId := rfl
@[simp] theorem State.draw_tbLast : s.draw.2.tbLast = s.tbLast := rfl
@[simp] theorem State.draw_cans : s.draw.2.cans = s.cans := rfl
@[simp] theorem State.draw_canBad : s.draw.2.canBad = s.canBad := rfl
@[simp] theorem State.draw_canAge : s.draw.2.canAge = s.canAge := rfl
@[simp] theorem State.draw_tasks : s.draw.2.tasks = s.tasks := rfl
@[simp] theorem State.draw_rss : s.draw.2.rss = s.rss := rfl
@[simp] theorem State.draw_flows : s.draw.2.flows = s.flows := rfl
@[simp] theorem State.draw_stopFallow : s.draw.2.stopFallow = s.stopFallow := rfl
@[simp] theorem State.draw_rings : s.draw.2.rings = s.rings := rfl
@[simp] theorem State.draw_mails : s.draw.2.mails = s.mails := rfl
@[simp] theorem State.draw_bootId : s.draw.2.bootId = s.bootId := rfl
@[simp] theorem State.draw_xl : s.draw.2.xl = s.xl := rfl
@[simp] theorem State.draw_tm : s.draw.2.tm = s.tm := rfl
@[simp] theorem State.draw_boot : s.draw.2.boot = s.boot := rfl
@[simp] theorem State.draw_integ : s.draw.2.integ = s.integ := rfl
@[simp] theorem State.draw_mg : s.draw.2.mg = s.mg := rfl
@[simp] theorem State.draw_worst : s.draw.2.worst = s.worst := rfl
@[simp] theorem State.draw_fences : s.draw.2.fences = s.fences := rfl
@[simp] theorem State.draw_hostDown : s.draw.2.hostDown = s.hostDown := rfl

end Sys2Proof.Machine
end

