-- ==== Sys2Proof/Laws/Ops.lean ====
section
/-!
SUPPORT. What the shared operations can do: a register read after a write, and the one lemma about recording an event,
which every event, interrupt and copy on the event ring goes through.
-/
namespace Sys2Proof.Machine

-- registers

theorem State.rd_wr (s : State) (a b : Nat) (v : Word) : (s.wr a v).rd b = if b = a then v else s.rd b := by
  unfold State.rd State.wr
  split
  · rename_i h
    subst h
    simp
  · rename_i h
    exact Smap.get_set_other _ _ _ h

@[simp] theorem State.rd_wr_same (s : State) (a : Nat) (v : Word) : (s.wr a v).rd a = v := by simp [State.rd_wr]

theorem State.rd_wr_other (s : State) {a b : Nat} (v : Word) (h : b ≠ a) : (s.wr a v).rd b = s.rd b := by
  simp [State.rd_wr, h]

/-- A field reads what was written into it. -/
theorem State.fld_setFld_same (s : State) (a : Nat) (f : Fld) (n : Nat) (hf : f.lsb + f.len ≤ 32) :
    (s.setFld a f n).fld a f = n % 2 ^ f.len := by
  simp [State.fld, State.setFld, Fld.get_put_same _ _ _ hf]

/-- Writing a field leaves a disjoint field of the register alone. -/
theorem State.fld_setFld_other (s : State) (a : Nat) (f g : Fld) (n : Nat)
    (h : f.lsb + f.len ≤ g.lsb ∨ g.lsb + g.len ≤ f.lsb) : (s.setFld a f n).fld a g = s.fld a g := by
  simp [State.fld, State.setFld, Fld.get_put_other _ _ _ _ h]

/-- Writing a field leaves every other register alone. -/
theorem State.rd_setFld_other (s : State) {a b : Nat} (f : Fld) (n : Nat) (h : b ≠ a) :
    (s.setFld a f n).rd b = s.rd b := State.rd_wr_other s _ h

-- recording

/-- What recording an event can do: it writes words of `eventWord`, what has been sent, the staging ring, the draw counter
and the slots of host rings, and keeps the registers' canonical form. -/
structure Records (s t : State) : Prop where
  only : ∃ io out ev lost fr hr worst,
    t = { s with
      io := io, out := out, evStage := ev, evLost := lost, fresh := fr, hrings := hr, worst := worst }
  regs : ∀ a, ¬ eventWord a → t.rd a = s.rd a
  wf : Smap.wf Reg.reset s.io → Smap.wf Reg.reset t.io

theorem Records.refl (s : State) : Records s s :=
  ⟨⟨s.io, s.out, s.evStage, s.evLost, s.fresh, s.hrings, s.worst, rfl⟩, fun _ _ => rfl, id⟩

theorem Records.trans {s t u : State} (h : Records s t) (k : Records t u) : Records s u := by
  refine ⟨?_, fun a ha => (k.regs a ha).trans (h.regs a ha), fun q => k.wf (h.wf q)⟩
  obtain ⟨io, out, ev, lost, fr, hr, w, rfl⟩ := h.only
  obtain ⟨io', out', ev', lost', fr', hr', w', rfl⟩ := k.only
  exact ⟨io', out', ev', lost', fr', hr', w', rfl⟩

theorem State.wr_records (s : State) (a : Nat) (v : Word) (ha : eventWord a) : Records s (s.wr a v) := by
  refine ⟨⟨_, s.out, s.evStage, s.evLost, s.fresh, s.hrings, s.worst, rfl⟩, fun b hb => ?_, fun h => Smap.wf_set _ _ h⟩
  apply State.rd_wr_other
  rintro rfl
  exact hb ha

theorem State.setFld_records (s : State) (a : Nat) (f : Fld) (n : Nat) (ha : eventWord a) :
    Records s (s.setFld a f n) := s.wr_records _ _ ha

theorem State.emit_records (s : State) (o : Out) : Records s (s.emit o) :=
  ⟨⟨s.io, _, s.evStage, s.evLost, s.fresh, s.hrings, s.worst, rfl⟩, fun _ _ => rfl, id⟩

theorem State.draw_records (s : State) : Records s s.draw.2 :=
  ⟨⟨s.io, s.out, s.evStage, s.evLost, _, s.hrings, s.worst, rfl⟩, fun _ _ => rfl, id⟩

theorem State.setHringX_records (s : State) (k : Nat) (x : HRingX) : Records s (s.setHringX k x) :=
  ⟨⟨s.io, s.out, s.evStage, s.evLost, s.fresh, _, s.worst, rfl⟩, fun _ _ => rfl, id⟩

theorem State.msix_records (s : State) (v : Nat) (hv : v < 256) : Records s (s.msix v) := by
  unfold State.msix
  split
  · exact .refl s
  · split
    · exact s.setFld_records _ _ _ (.inr (.inl (by omega)))
    · exact s.emit_records _

theorem State.irq0_records (s : State) (f : Fld) : Records s (s.irq0 f) := by
  have h : Records s (s.set1 R.HI_IRQ0_STAT f) := s.setFld_records _ _ _ (.inl (by simp))
  unfold State.irq0 State.when
  dsimp only
  split
  · exact h.trans (State.msix_records _ _ (by decide))
  · exact h

/-- The registers of rings 8 to 15. -/
theorem eventWord_ring {k a : Nat} (h : 8 ≤ k ∧ k < 16)
    (ha : a ∈ [R.HI_RING_HEAD k, R.HI_RING_CNT k, R.HI_RING_LOST k]) : eventWord a :=
  .inr (.inr ⟨k, h.1, h.2, ha⟩)

theorem State.ringIrq_records (s : State) (k : Nat) (irq : Bool) (hk : 8 ≤ k ∧ k < 16) :
    Records s (s.ringIrq k irq) := by
  have h : Records s (s.incr (R.HI_RING_CNT k)) := s.wr_records _ _ (eventWord_ring hk (by simp))
  unfold State.ringIrq
  dsimp only
  split
  · split
    · exact (h.trans (State.setHringX_records _ _ _)).trans
        (State.msix_records _ _ (Nat.mod_lt _ (by decide)))
    · exact h.trans (State.setHringX_records _ _ _)
  · exact h

theorem State.ringFill_records (s t : State) (k kind tag : Nat) (err : Bool) (ws : List Word) (irq : Bool)
    (hk : 8 ≤ k ∧ k < 16) (ht : s.ringFill k kind tag err ws irq = some t) : Records s t := by
  unfold State.ringFill at ht
  dsimp only at ht
  split at ht
  · cases ht
  · split at ht
    · simp only [Option.some.injEq] at ht
      subst ht
      exact (((s.setHringX_records _ _).trans (State.emit_records _ _)).trans
        (State.setFld_records _ _ _ _ (eventWord_ring hk (by simp)))).trans (State.ringIrq_records _ _ _ hk)
    · cases ht

theorem State.eventCopy_records (s : State) (r : EvRec) : Records s (s.eventCopy r) := by
  unfold State.eventCopy
  split
  · have hk : 8 ≤ 8 + s.fld R.HI_EVT_CFG F.HI_EVT_CFG_RING ∧ 8 + s.fld R.HI_EVT_CFG F.HI_EVT_CFG_RING < 16 := by
      have : s.fld R.HI_EVT_CFG F.HI_EVT_CFG_RING < 8 := Fld.get_lt _ _
      omega
    dsimp only
    split
    · rename_i h
      exact s.ringFill_records _ _ _ _ _ _ _ hk h
    · exact (s.wr_records _ _ (eventWord_ring hk (by simp))).trans (State.irq0_records _ _)
  · exact .refl s

theorem State.evWrite_records (s : State) (r : EvRec) : Records s (s.evWrite r) := by
  unfold State.evWrite
  dsimp only
  refine Records.trans ?_ (State.eventCopy_records _ _)
  have h1 : ∀ c q, Records s (s.when c (fun s => s.wr R.EV_OLDEST_SEQ q)) := by
    intro c q
    unfold State.when
    split
    · exact s.wr_records _ _ (.inl (by simp))
    · exact .refl s
  have h2 : ∀ (s : State) (e : List EvRec), Records s { s with evStage := e } := fun s e =>
    ⟨⟨s.io, s.out, e, s.evLost, s.fresh, s.hrings, s.worst, rfl⟩, fun _ _ => rfl, id⟩
  have h3 : ∀ (s : State) c f, Records s (s.when c (fun s => s.irq0 f)) := by
    intro s c f
    unfold State.when
    split
    · exact s.irq0_records _
    · exact .refl s
  refine Records.trans ?_ (h3 _ _ _)
  exact (((h1 _ _).trans (h2 _ _)).trans (State.wr_records _ _ _ (.inl (by simp)))).trans
    (State.setFld_records _ _ _ _ (.inl (by simp)))

theorem State.eventRec_records (s : State) (pair : Bool) (code cls typ inst : Nat) (p0 p1 p2 : Word) :
    Records s (s.eventRec pair code cls typ inst p0 p1 p2) := by
  have h : ∀ (s : State) (n : Nat), Records s { s with evLost := n } := fun s n =>
    ⟨⟨s.io, s.out, s.evStage, n, s.fresh, s.hrings, s.worst, rfl⟩, fun _ _ => rfl, id⟩
  unfold State.eventRec
  split
  · exact .refl s
  · split
    · exact ((h s _).trans (State.wr_records _ _ _ (.inl (by simp)))).trans
        (State.setFld_records _ _ _ _ (.inl (by simp)))
    · dsimp only
      split
      · exact (h s _).trans (State.evWrite_records _ _)
      · exact ((h s _).trans (State.evWrite_records _ _)).trans (State.evWrite_records _ _)

theorem State.eventP_records (s : State) (pair : Bool) (code cls typ inst : Nat) (p0 p1 p2 : Word) :
    Records s (s.eventP pair code cls typ inst p0 p1 p2) := by
  have h : Records s { s with worst := max s.worst cls } :=
    ⟨⟨s.io, s.out, s.evStage, s.evLost, s.fresh, s.hrings, _, rfl⟩, fun _ _ => rfl, id⟩
  exact h.trans (State.eventRec_records _ _ _ _ _ _ _ _ _)

theorem State.event_records (s : State) (code cls typ inst : Nat) (p0 p1 p2 : Word) :
    Records s (s.event code cls typ inst p0 p1 p2) := s.eventP_records _ _ _ _ _ _ _ _

theorem State.eventU_records (s : State) (pair : Bool) (code cls typ inst : Nat) (ps : List Word) :
    Records s (s.eventU pair code cls typ inst ps) := by
  have h2 := s.draw_records.trans (State.draw_records _)
  have h3 := h2.trans (State.draw_records _)
  unfold State.eventU
  split
  · exact h3.trans (State.eventP_records _ _ _ _ _ _ _ _ _)
  · exact h2.trans (State.eventP_records _ _ _ _ _ _ _ _ _)
  · exact s.draw_records.trans (State.eventP_records _ _ _ _ _ _ _ _ _)
  · exact s.eventP_records _ _ _ _ _ _ _ _

theorem State.statusEvent_records (s : State) (cls typ inst a : Nat) (bits tag : Word) :
    Records s (s.statusEvent cls typ inst a bits tag) := s.event_records _ _ _ _ _ _ _

/-- Raising a status bit sets it, and records. -/
theorem State.raise_records (s : State) (cls typ inst a : Nat) (f : Fld) (tag : Word) :
    Records (s.set1 a f) (s.raise cls typ inst a f tag) := State.statusEvent_records _ _ _ _ _ _ _

end Sys2Proof.Machine
end

