-- ==== Sys2Proof/Tests/Slice0.lean ====
section
/-! SUPPORT. Small tests of the model, and witnesses for its statements.

Three parts: words and values the spec prints (its check column, its worked examples), the commands each check of
WellFormed refuses, and for every statement that has hypotheses a concrete state and operands that meet them (one
theorem for each statement, one part of it for each clause). The states are built by the helpers of this file: a
controller after reset, running, with a few registers set. -/



namespace Sys2Proof.Machine
open Sys2Proof

set_option maxRecDepth 20000
set_option Elab.async false

/-- The nine ASCII bytes "123456789" of R476. -/
def digits : List Byte := [0x31, 0x32, 0x33, 0x34, 0x35, 0x36, 0x37, 0x38, 0x39]

/-- The check column of R476, POLY 0. -/
theorem test_crc32 : Crc.of 0 digits = 0xCBF43926 := by decide +kernel
/-- The check column of R476, POLY 1. -/
theorem test_crc32c : Crc.of 1 digits = 0xE3069283 := by decide +kernel
/-- The check column of R476, POLY 2. -/
theorem test_crc16 : Crc.of 2 digits = 0x29B1 := by decide +kernel
/-- The check column of R476, POLY 3. -/
theorem test_crc64 : Crc.of 3 digits = 0x6C40DF5F0B497347 := by decide +kernel
/-- The example of R478: the words that software writes are the bytes of the string. -/
theorem test_crc_words : Word.bytesAll [0x34333231, 0x38373635] = digits.take 8 := by decide +kernel
/-- The example of R55: reference 0x978A0 is field 0 of slot 3,013. -/
theorem test_reference : Ref.space 0x978A0 = 4 ∧ Ref.index 0x978A0 = 3013 * 32 := by decide +kernel
/-- The example printed for the PWM pairs (R277): the fraction 0.3137 of 256,000 ticks is 80,307 ticks. -/
theorem test_duty :
    (State.reset.setFld (R.PW_CFG 163) F.PW_CFG_DUTY_FRAC 1).pwOn 163 ⟨256000, 3137 * 2 ^ 31 / 10000, 0, 0⟩ = 80307 := by
  decide +kernel
/-- The table of R284's example: zones 1 to 5, and the stretched on-times 90 and 9,910. -/
theorem test_pwm_zones :
    [120, 70, 30, 9930, 9990].map (fun d => pwZone false d 10000 40 40 50) = [1, 2, 3, 4, 5] ∧
      pwZoneOn 2 true 70 10000 40 40 50 = 90 ∧ pwZoneOn 4 true 9930 10000 40 40 50 = 9910 := by decide
/-- The example of R401: port 4 of group 1 may take its bit times, and a nominal phase segment shorter than its jump
width may not. -/
theorem test_can_timing :
    canNbtOk 1 (Word.ofN (126 + 31 * 2 ^ 8 + 31 * 2 ^ 15)) = true ∧
    canDbtOk 1 (Word.ofN (13 + 4 * 2 ^ 5 + 4 * 2 ^ 9)) = true ∧
    canNbtOk 1 (Word.ofN (126 + 15 * 2 ^ 8 + 31 * 2 ^ 15)) = false := by
  decide +kernel

/-- Stages of given types. -/
def stagesOf (l : List Nat) : List Stage := l.map (fun t => ⟨t, false, 0, 0, 0, 0, []⟩)
/-- The example of R101: samples of 23, 25 and 32 cycles. -/
theorem test_law_cost : Law.cost (stagesOf [7, 0, 4, 1]) = 23 ∧ Law.cost (stagesOf [1, 0, 2, 4]) = 25 ∧
    Law.cost (stagesOf [3, 3, 4, 0]) = 32 := by decide +kernel

/-- The binary32 arithmetic of R199: 1.5 + 1.5 = 3, and 1 divided by 3 rounds to the nearest even. -/
theorem test_f32 : (F32.add 0x3FC00000 0x3FC00000).1 = 0x40400000 ∧ (F32.div 0x3F800000 0x40400000).1 = 0x3EAAAAAB := by
  decide +kernel


/-- A word of 32 bits as a field. -/
def word : Fld := ⟨0, 32⟩
/-- A state with some fields set. -/
def State.sets (s : State) (l : List (Nat × Fld × Nat)) : State := l.foldl (fun s e => s.setFld e.1 e.2.1 e.2.2) s
/-- A running controller: the four control dies are active, the loops have started, and the package has a mode. -/
def running (mode : Nat) : State :=
  { State.reset.sets [(R.HI_DIE_STATE, ⟨0, 8⟩, 0), (R.TK_CTL, word, 0), (R.TK_CTL, F.TK_CTL_MODE, mode), (R.BT_STAT, F.BT_STAT_PHASE, 7)] with
    boot := { (default : BootX) with up := true, started := true, loops := true, trained := true, keyed := true } }
/-- A running controller of a pair, in a pair state. -/
def paired (mode st : Nat) : State :=
  (running mode).sets [(R.XL_CFG, F.XL_CFG_PAIR_EN, 1), (R.XL_STATE, F.XL_STATE_STATE, st), (R.XL_EPOCH, word, 5),
    (R.XL_STATE, F.XL_STATE_LINK, 1)]
/-- A state with some words of DRAM data. -/
def State.stores (s : State) (l : List (Nat × Word)) : State := l.foldl (fun s e => s.setDword e.1 e.2) s

def cycRun : State := running 2
def cycCut : State := { cycRun with cyc := { cycRun.cyc with cut := true, sDone := true, closed := true }, canAge := [(3, 255), (9, 7)] }
def cycAge : State := { cycRun with canAge := [(3, 255), (9, 7)] }
def cycS : State := { cycRun with cyc := { cycRun.cyc with sDone := true } }
def cycOut : State := { cycRun.sets [(R.WORD_FALLOW 7, word, 0xF0F0)] with outMaster := [(7, 0x1234)] }
def cycRes : State := { cycOut with outMaster := [(0xF801, 0x1234)] }
-- a task 4 of region 0, ready, running and delayed
def taskIs (st : Nat) : State := (running 2).sets [(R.TK_CFG 0 4, F.TK_CFG_USED, 1), (R.TK_STATE 0 4, F.TK_STATE_STATE, st)]
def taskReady : State := (taskIs 3).setRsX 0 { (default : RsX) with ready := [4] }
def taskRun : State := (taskIs 4).setRsX 0 { (default : RsX) with run := some 4 }
def taskWaits : State := (taskIs 2).setTaskX (taskKey 0 4) { (default : TaskX) with wake := 1000 }
def stopped : State := (running 2).sets [(R.TK_CTL, F.TK_CTL_STOPPED, 1)]
-- a task 9 of a higher priority is ready while task 4 runs
def taskBoth : State := (taskIs 4).sets [(R.TK_CFG 0 9, F.TK_CFG_USED, 1), (R.TK_STATE 0 9, F.TK_STATE_STATE, 3), (R.TK_CFG 0 4, F.TK_CFG_PRIO, 5)] |>.setRsX 0
  { (default : RsX) with ready := [9], run := some 4 }

def slot5 : State := (running 1).sets [(R.LE_CFG 5, F.LE_CFG_USED, 1), (R.LE_PERIOD 5, word, 10000), (R.LE_STAT 5, ⟨11, 1⟩, 1)]
-- slot 5 as a field-synchronous one
def slotF : State := slot5.sets [(R.LE_CFG 5, F.LE_CFG_TIMING, 1), (R.LE_MAX_DELAY 5, word, 9)]
def last : SlotIx := 4095
-- a host write waits for the release of slot 5
def slotHost (a : Nat) (v m : Word) : State := slot5.setSlotX 5 { (default : SlotX) with fault := true, host := [(a, v, m, 0)] }
def slotRun : State := slotF.sets [(R.TK_CTL, F.TK_CTL_MODE, 3)]
def lawPort : State := (running 1).sets [(R.LC_LAW_ADDR 3, F.LC_LAW_ADDR_WORD, 4095), (R.LC_LAW_ADDR 3, F.LC_LAW_ADDR_AUTOINC, 1)]
def sampleReady : State := slot5.setSlotX 5 { (default : SlotX) with ready := [{ (default : Ready) with t := 100, rel := 100, deadline := 400 }, { (default : Ready) with t := 500, rel := 500, deadline := 600 }] }
def clusterFree : State := sampleReady.setClusterX 0 { (default : ClusterX) with free := 500, run := none }
def swatchOk : State := slot5.sets [(R.LE_STAT 5, word, 0), (R.LE_MODE 5, F.LE_MODE_EFF, 2), (R.CE_POOL_CFG 0, F.CE_POOL_CFG_SIZE_MIB, 2), (R.LC_SW_AMP 0, word, 0x3F800000),
  (R.LC_SW_LEN 0, F.LC_SW_LEN_SAMPLES, 10)]
def swatchGoes : State := swatchOk.sets [(R.LC_SW_STAT 0, F.LC_SW_STAT_STATE, 3)]

-- lane 0 of chamber 0, and recipe 0 of one step: valid, for the chamber, with an exit of type ADVANCE
def laneFree : State := ((running 2).sets [(R.SQ_CFG 0, F.SQ_CFG_USED, 1)]).stores [(0, 1), (4, 0x10000), (0x10000, 0x4000), (0x10010, 5)]
def laneIs (st : Nat) : State := laneFree.sets [(R.SQ_STATE 0, F.SQ_STATE_STATE, st)]
-- a command of the lane waits for Phase S
def laneCmd (st code arg : Nat) : State :=
  ((laneIs st).sets [(R.SQ_CMD_ARG 0, word, arg)]).setLaneX 0 { (default : LaneX) with host := [code] }
def laneRunMode : State := laneFree.sets [(R.TK_CTL, F.TK_CTL_MODE, 3)]
def laneStop : State := laneFree.sets [(R.TK_CTL, F.TK_CTL_MODE, 0)]
def rcpBusy : State := laneFree.sets [(R.SQ_RCP_STAT, F.SQ_RCP_STAT_BUSY, 1)]
def rcpGood : State := ((running 1).sets [(R.SQ_RCP_STAT, F.SQ_RCP_STAT_BUSY, 1)]).stores [(4, 0x10000), (24, 0x3C8EB67)]
def rcpUsed : State := laneFree.stores [(0, 3)]

def flowIs (st : Nat) : State := (taskIs 3).sets [(R.FL_CFG 7, F.FL_CFG_USED, 1), (R.FL_STAT 7, F.FL_STAT_STATE, st), (R.FL_STAT 7, F.FL_STAT_HOLDER, 4), (R.FL_HOLD 7, F.FL_HOLD_HOLD_MAX, 10), (R.TM_CYC_SEQ, word, 11)]
def flowFresh : State := (flowIs 1).sets [(R.TM_CYC_SEQ, word, 10)]
def forceOk : State := { (running 1).sets [(R.TK_FRC_REF, F.TK_FRC_REF_REF, 0x20007), (R.TK_FRC_MASK, word, 0xFF), (R.TK_FRC_VAL, word, 0x1234), (R.TK_FRC_PERM_HI 63, F.TK_FRC_PERM_HI_REF, 0xFFFFF)] with
  img := { (default : ImgDecl) with decls := [(0x20007, .u32)] } }
def forced : State := forceOk.sets [(R.FORCE 4095, word, 0x80020007), (R.FORCE 4095 + 4, word, 0xF0), (R.FORCE 4095 + 8, word, 0xFF)]
def olcOne : State := { (running 1).sets [(R.TK_OLC_CTRL, F.TK_OLC_CTRL_COUNT, 1), (R.TK_OLC_BUF 0, word, 1), (R.TK_OLC_BUF 1, word, 0x60003), (R.TK_OLC_BUF 3, word, 42)] with
  img := { (default : ImgDecl) with decls := [(0x60003, .u32)] } }
def olcMany : State := (running 2).sets [(R.TK_OLC_CTRL, F.TK_OLC_CTRL_COUNT, 257)]
def bankIs (mode st : Nat) : State := { running mode with boot := { (running mode).boot with dir0 := ⟨0, 0, (dirBank .bankB).put 0 st, true⟩ } }
def forcedAccepted : State := { forced with boot := (bankIs 1 3).boot }
def bankNotStarted : State := { bankIs 1 3 with boot := { (bankIs 1 3).boot with started := false } }
def bankReload : State := { bankIs 1 3 with boot := { (bankIs 1 3).boot with reload := some .bankB } }

def axisIs (st : Nat) : State := (running 2).sets [(R.AX_CFG 3, F.AX_CFG_USED, 1), (R.AX_CFG 3, F.AX_CFG_OUT, 2), (R.AX_STATE 3, F.AX_STATE_STATE, st),
  (R.AX_VMAX 3, word, 0x49742400), (R.AX_AMAX 3, word, 0x4CBEBC20), (R.AX_DMAX 3, word, 0x4CBEBC20), (R.AX_JMAX 3, word, 0x501502F9), (R.AX_DSTOP 3, word, 0x4CBEBC20), (R.AX_ST_STAT 3, F.AX_ST_STAT_ACTIVE, 1), (R.AX_ST_STAT 3, F.AX_ST_STAT_STALL_RUN, 1)]
-- the axis speeds up by its plan
def axisPlan : State := (axisIs 1).setAxisX 3 { (default : AxisX) with v := 1000, plan := [⟨1099511627776, 3⟩] }
def axisWrites (code : Word) : State := (axisIs 0).setAxisX 3 { (default : AxisX) with
  writes := [(R.AX_CMD_ARG_LO 3, (1 : BitVec 64).truncate 32, (0xFFFFFFFF : Word)), (R.AX_CMD_ARG_HI 3, ((1 : BitVec 64) >>> 32).truncate 32, 0xFFFFFFFF), (R.AX_CMD 3, code, 7)] }

-- pair 14 in region 1 is used, with its shadow set; its pins show low
def pwmUsed : State := (running 2).sets [(R.PW_CFG 14, F.PW_CFG_USED, 1), (R.PW_PER 14, F.PW_PER_TICKS, 2048), (R.PW_DUTY 14, word, 1000), (R.PW_DT 14, F.PW_DT_DT_MIN, 10), (R.PW_DT 14, F.PW_DT_DT_MAX, 100), (R.PW_GUARD 14, F.PW_GUARD_GUARD, 5)]
def pwmShort : State := pwmUsed.sets [(R.PW_PER 14, F.PW_PER_TICKS, 2047)]
def pwmPend : State := pwmUsed.setPairX 14 { (default : PairX) with pend := some ⟨4096, 1, 2, 3⟩, pendAt := 7 }
-- a CENTRE pair in mid-period
def pwmMid : State := (pwmUsed.sets [(R.PW_CFG 14, F.PW_CFG_MODE, 1), (R.PW_CFG 14, F.PW_CFG_RELOAD, 1)]).setPairX 14 { (default : PairX) with
  pend := some ⟨4096, 1, 2, 3⟩, pendAt := 7, cur := ⟨4096, 1, 2, 3⟩, start := some 0, ends := 64000 }
def pwmRuns : State := pwmUsed.setPairX 14 { (default : PairX) with start := some 0, ends := 64000, cur := ⟨4096, 1, 2, 3⟩ }
-- of two waiting sets the one committed earlier loads at tick 250
def pwmTwo : State := let s := pwmUsed.setPairX 14 { (default : PairX) with pend := some ⟨4096, 1, 2, 3⟩, earlier := some ⟨2048, 4, 5, 6⟩ }
  s.setPairX 14 { s.pairX 14 with pendAt := tagOf (s.now 250) }
-- the pair's high side is on and must turn off at tick 40, or its low side and must turn off at 30
def pwmHigh : State := pwmUsed.setPairX 14 { (default : PairX) with hi := true, fall := some 40 }
def pwmLow : State := pwmUsed.setPairX 14 { (default : PairX) with lo := true, rise := some 30 }
def pwmWait (up : Bool) : State := pwmUsed.setPairX 14 { (default : PairX) with wait := some up }
def pwmPinned : State := (pwmWait true).sets [(R.PW_STAT 14, F.PW_STAT_FORCED, 1)]
def pwmCft : State := (pwmHigh.sets [(R.PW_CFG 14, F.PW_CFG_MODE, 3), (R.PW_CFG 14, F.PW_CFG_TERM_EN, 1), (R.SD_STAT 14, F.SD_STAT_CMP_HI, 1)]).setPairX 14
  { (default : PairX) with hi := true, rise := some 0, fall := some 40 }
def sdiUsed : State := (running 2).sets [(R.SD_CFG 20, F.SD_CFG_USED, 1), (R.SD_CFG 20, F.SD_CFG_MAIN_OSR, 32), (R.SD_CFG 20, F.SD_CFG_FAST_OSR, 16), (R.SD_THR_HI 20, F.SD_THR_HI_VALUE, 1000), (R.SD_THR_LO 20, F.SD_THR_LO_VALUE, 0x8300), (R.SD_HYST 20, F.SD_HYST_VALUE, 10)]
def sdiMain : State := sdiUsed.setSdiX 20 { (default : SdiX) with nMain := 2 }
def sdiFault : State := sdiUsed.sets [(R.SD_STAT 20, F.SD_STAT_CLK_FAULT, 1)]
def ones (n : Nat) : List (Bool × Bool) := List.replicate n (true, false)
def tripLong : State := (running 2).sets [(R.PW_TRIP_CFG 15 2, F.PW_TRIP_CFG_N, 3)]
def dlStopped : State := (running 2).setDlX 0 { (default : DlX) with stopped := true }

def dieGone : State := (running 2).setDie 3 1
def dieAbsent : State := (running 2).setDie 2 2
-- term 40 latches, is a constant, and targets pair 14 by target word 9; terms of a state by its bit
def termIs (mode src latched : Nat) : State := pwmUsed.sets [(R.TK_CTL, F.TK_CTL_MODE, mode), (R.HG_TERM 40 0, word, 0x20F + 4 * latched - 4), (R.HG_TERM 40 1, word, src), (R.HG_TERM 40 5, word, 9 + 0x2000), (R.HG_TGT 9, word, 1 + 14 * 256)]
def termTrue : State := (termIs 2 0 1).sets [(R.HG_STATE 1, ⟨8, 1⟩, 1)]

-- a patch of one entry is staged
def patchOf (mode n new : Nat) : State := (running mode).sets [(R.HG_PATCH_CTRL, F.HG_PATCH_CTRL_COUNT, 1),
  (R.HG_PATCH_BUF 0, word, 4), (R.HG_PATCH_BUF 1, word, n), (R.HG_PATCH_BUF 3, word, new)]

-- the capture engine of region 2: one probe, rows every 10 µs, 4 rows after the trigger, 2 before
def ceSet (st : Nat) : State := (running 2).sets [(R.CE_CFG 2, F.CE_CFG_NPROBE, 1), (R.CE_PERIOD 2, F.CE_PERIOD_NS, 10000), (R.CE_POST 2, word, 4), (R.CE_PRE 2, F.CE_PRE_ROWS, 2), (R.CE_TRG 2, F.CE_TRG_SRC, 1), (R.CE_STAT 2, F.CE_STAT_STATE, st)]
def cePool (st mib : Nat) : State := (ceSet st).sets [(R.CE_POOL_CFG 2, F.CE_POOL_CFG_SIZE_MIB, mib)]
def ceWin (rows : List Row) (trig : Option (Nat × Nat)) : Win := { (default : Win) with cols := [0], period := 10000, pre := 2, post := 4, resv := 256, rows := rows, trig := trig }
def ceGoes (st : Nat) (rows : List Row) (trig : Option (Nat × Nat)) : State := (cePool st 2).setCeX 2 { (default : CeX) with win := some (ceWin rows trig) }
def ceRows : List Row := [⟨100, [1], false, false⟩, ⟨200, [2], false, false⟩, ⟨300, [3], false, false⟩]
def bigResv : Nat := 1048592
def ceLate : State := (ceSet 2).setCeX 2 { (default : CeX) with win := some (ceWin [] none), hoEnd := 6 }
def ceProbeUp : State := ((ceGoes 1 ceRows none).sets [(R.CE_TRG 2, F.CE_TRG_SRC, 0)]).setCeX 2 { (default : CeX) with win := some (ceWin ceRows none), up := true }
def ceSlot : State := (ceGoes 1 ceRows none).sets [(R.CE_CFG 2, F.CE_CFG_SYNC, 2)]
def ceHold (auto n mib : Nat) : State := ((cePool 4 mib).sets [(R.CE_CFG 2, F.CE_CFG_AUTO, auto), (R.CE_HOLDOFF 2, word, 1000), (R.CE_CFG 2, F.CE_CFG_HO_MODE, n)]).setCeX 2 { (default : CeX) with closed := true, hoT := 500, hoN := 1000 }
def busLast : State := { (running 2).sets [(R.TB_CFG 7, F.TB_CFG_PIN, 2), (R.TB_CFG 6, F.TB_CFG_PIN, 3), (R.TB_PIN_DLY 6, F.TB_PIN_DLY_PS, 20000)] with t0 := 1000000, tbLast := [(6, 999000), (7, 1000000)] }
def busCal : State := { busLast with tbShared := true }.sets [(R.XL_CFG, F.XL_CFG_UNIT, 1)]
def busPaired : State := { busLast with xl := { busLast.xl with partner := some { (default : Hello) with state := 3 } } }
def oneBlk : Blk := .mark 5 12 [1, 2, 3, 4]
def streamIs (on mib gap : Nat) (bs : List Blk) : State := ((running 2).sets [(R.RS_CTRL, F.RS_CTRL_ENABLE, on * 128), (R.RS_S_CFG 7, F.RS_S_CFG_SIZE_MIB, mib), (R.RS_S_STAT 7, F.RS_S_STAT_GAP_OPEN, gap), (R.RS_S_BSEQ 7, word, 0xFFFFFFFF)]).setStreamX 7 { (default : StreamX) with blocks := bs }
def specBlk : OpenBlk := ⟨7, 1, 9, 40, 0, [[1, 2], [3, 4]]⟩
def specOpen : State := { streamIs 1 1 0 [] with opens := [(9, specBlk)] }
def specGood : State := (running 2).sets [(R.RS_SPEC_IDX, F.RS_SPEC_IDX_INDEX, 65534), (R.RS_SPEC_D 0, word, 0x100), (R.RS_SPEC_D 0 + 4, word, 3), (R.RS_SPEC_D 0 + 8, word, 1)]
def specYoung : State := specOpen.sets [(R.RS_FLUSH, F.RS_FLUSH_MS, 9)]
def slotD : Desc := { (default : Desc) with own := true, len := 64, tag := 7, addr := 0x1000 }
def ringPosts (k : Nat) (ds : List Desc) (s : State) : State := (s.sets [(R.HI_RING_CTRL k, F.HI_RING_CTRL_EN, 1), (R.HI_RING_CFG k, F.HI_RING_CFG_LOG2, 8)]).setHringX k { (default : HRingX) with posted := ds }
def streamPosts : State := ringPosts 23 [slotD] (streamIs 1 1 0 [oneBlk, oneBlk])
def winPosts : State := { ringPosts 31 [slotD, slotD] (running 2) with winq := [(31, [⟨1, 0, 0, [5, 6, 7], true, 0⟩])] }

-- port 2 of ring 1 is used; station 2 of the ring (number 128) has two input words at input word 100
def fieldUsed : State := { (running 2).sets [(R.FP_CFG 2, F.FP_CFG_USED, 1), (R.FP_RING_CFG 1, F.FP_RING_CFG_USED, 1), (R.FP_S_LEN 128, F.FP_S_LEN_USED, 1), (R.FP_S_LEN 128, F.FP_S_LEN_ILEN, 8), (R.FP_S_MAP 128, F.FP_S_MAP_IN_BASE, 100), (R.TM_CYC_SEQ, word, 9), (R.FP_ETYPE 1, word, 0x88B5)] with cyc := default }
def fieldCut : State := { fieldUsed with cyc := { fieldUsed.cyc with cut := true } }
def fieldPair : State := (paired 2 3).sets [(R.FP_CFG 2, F.FP_CFG_USED, 1), (R.FP_RING_CFG 1, F.FP_RING_CFG_USED, 1), (R.FP_RING_CFG 1, F.FP_RING_CFG_PAIR, 1), (R.FP_ETYPE 1, word, 0x88B5), (R.TM_CYC_SEQ, word, 9), (R.XL_STATE, F.XL_STATE_HOLDER_ID, 1)]
def segW (wkc : Byte) : Seg := ⟨2, 0x55, 0x77, [11, 12], wkc⟩
def frameOf (ok fcs : Bool) (role : Nat) (segs : List Seg) : RxFrame := ⟨0x88B5, if ok then 64 else 63, fcs, false, true, role, 6, 9, 0, segs⟩
def stnIs (mode st : Nat) : State := fieldUsed.sets [(R.TK_CTL, F.TK_CTL_MODE, mode), (R.FP_S_STAT 128, F.FP_S_STAT_STATE, st), (R.FP_S_STAT 128, F.FP_S_STAT_SESSION, 65535), (R.FP_S_EUI_LO 128, word, 0xABC), (R.FP_S_TYPE 128, word, 3), (R.FP_S_CRC 128, word, 4)]
def stnAdm (tries : Nat) : State := (stnIs 2 1).setStnX 128 { (default : StnX) with adm := true, tries := tries }
def tailOpen : State := fieldUsed.setRingX 1 { (default : RingX) with prev := some (8, 5, none) }
def tailShut : State := tailOpen.sets [(R.FP_TAIL_START 1, F.FP_TAIL_START_OFFSET, 31200)]
def mailM : CmdMember := ⟨7, 3, slotD, false⟩
def mailX : MailX := ⟨128, false, 16, 2, [], mailM, 5, 6, true⟩
def mailOpen : State := { ringPosts 15 [slotD] (stnIs 2 3) with mails := [mailX] }

def timeIs (st : Nat) : State := (running 2).sets [(R.TM_STATE, F.TM_STATE_STATE, st), (R.TM_SRV_STEP_THR, word, 1000), (R.TM_SRV_LOCK, F.TM_SRV_LOCK_LOCK_THR, 100), (R.TM_SRV_LOCK, F.TM_SRV_LOCK_LOCK_N, 1), (R.TM_SRV_KI, word, 0x3F800000)]
-- an offset measured end to end: the times of Sync and Delay_Req with their stamps
def ptpOf (o : Int) : PtpMeas := ⟨0, (1000, (1000 + 2 * o).toNat), false, (2000, 2000), (0, 0), 0, 0⟩
def ptpFar : PtpMeas := { ptpOf 1000 with domain := 128 }
def timeSet (st ns : Nat) : State := { (timeIs st).sets [(R.TM_SET_NS, word, ns)] with t0 := 1000000000 }
def rtcIs : State := { running 2 with tm := { (running 2).tm with rtc := 65536000000000, rtcLo := 3 } }
def edgeIs : State := (running 2).sets [(R.TM_EDGE_CFG 63, F.TM_EDGE_CFG_USED, 1), (R.TM_EDGE_CFG 63, F.TM_EDGE_CFG_EDGE, 2), (R.TM_EDGE_CFG 63, F.TM_EDGE_CFG_FLOW_EN, 1), (R.TM_EDGE_CFG 63, F.TM_EDGE_CFG_IMAGE, 1)]
def edgeUp : State := (edgeIs.setEdgeX 63 { edgeIs.edgeX 63 with pin := true }).hgEval (edgeIs.now 5)

def canF (brs : Bool) (ident : Nat) : CanFrame := ⟨ident, false, brs, brs, false, false, [1, 2]⟩
def canIs (mode eff : Nat) : State := { ((running mode).sets [(R.CF_CFG 5, F.CF_CFG_USED, 1), (R.CF_MODE 5, F.CF_MODE_REQ, eff), (R.CF_MODE 5, F.CF_MODE_EFF, eff), (R.CF_ABD 5, F.CF_ABD_USED, 0x82), (R.CF_ABD_RATE 5 7, word, 0x1234)]).setCanX 5 { (default : CanX) with integ := true } with
  img := { (default : ImgDecl) with canRx := [(5, [⟨1, 0x7FF, false, .drop⟩, ⟨2, 0x7FF, false, .image 7⟩, ⟨3, 0x7FF, false, .host⟩])] } }
def canAbd (n cand : Nat) : State := (canIs 2 3).setCanX 5 { (default : CanX) with integ := true, abd := cand, abdN := n }
def canFull : State := (canIs 2 1).setCanX 5 { (default : CanX) with integ := true, rxOwn := List.range 256 }
def canStandby : State := { (paired 2 3).sets [(R.CF_CFG 5, F.CF_CFG_USED, 1), (R.CF_MODE 5, F.CF_MODE_EFF, 2)] with cans := [(5, { (default : CanX) with integ := true })] }
def canOff (recov : Bool) : State := ((canIs 2 1).sets [(R.CF_STAT 5, F.CF_STAT_STATE, 2)]).setCanX 5 { (default : CanX) with recov := recov }
def canClockBad : State := { canIs 2 0 with canBad := true }
def canSend (cancel : Bool) (entry st : Nat) : State := ((canIs 2 1).sets [(R.CF_TXE 5 entry, F.CF_TXE_STATE, st)]).setTxX 5 entry { (default : TxX) with cancel := cancel, frame := canF true 4 }
def canHolder : State := { (paired 2 2).sets [(R.CF_TXE 5 63, F.CF_TXE_STATE, 2), (R.CF_MODE 5, F.CF_MODE_EFF, 1)] with cans := (canIs 2 1).cans }
def canHostTx : State := ((canIs 2 1).sets [(R.CF_TXE 5 62, F.CF_TXE_STATE, 1), (R.CF_TXE 5 62, F.CF_TXE_KIND, 1)]).setTxX 5 62 { (default : TxX) with desc := some (3, default) }
def canHold : State := { canHolder.sets [(R.CF_TXE 5 62, F.CF_TXE_STATE, 1)] with log := [] }
def canSent : State := (canSend false 63 1).setTxX 5 63 { (default : TxX) with sent := true }
def hostSession (s : State) : State := { s with mg := { s.mg with sess := [(0, 3), (1, 2)] } }
def canTimed : State := (canIs 2 0).sets [(R.CF_NBT 5, word, 0x78F3E), (R.CF_DBT 5, word, 0x88D), (R.CF_ABD_RATE 5 1, word, 0x78F3E), (R.CF_ABD_RATE 5 7, word, 0x78F3E)]

def meets : State := (paired 2 2).sets [(R.FP_CFG 2, F.FP_CFG_USED, 1), (R.FP_ETYPE 1, word, 0x88B5), (R.TM_CYC_SEQ, word, 9)]
def partnerIs (st : Nat) (img : Word) : Hello := ⟨true, st, 5, img, 0, none, true⟩
def lone (st : Nat) : State := { paired 2 st with t0 := 100000000 }
def heldDig : State := { paired 2 3 with xl := { (paired 2 3).xl with held := true, matched := 70, partner := some (partnerIs 3 0), digs := [(0, 77)] } }
def fit : State := { paired 2 2 with xl := { (paired 2 2).xl with matched := 64, partner := some (partnerIs 3 0) } }
def unit1 (st : Nat) : State := (paired 2 st).sets [(R.XL_CFG, F.XL_CFG_UNIT, 1)]
def notUsed (st : Nat) : State := { paired 2 st with xl := { (paired 2 st).xl with unused := true } }
def proposed : State := { paired 2 3 with mg := { (paired 2 3).mg with props := [(1, ⟨.take, .host, 5, 5, 0, none⟩)] } }
def notStarted : State := { paired 2 1 with boot := default }
def lostHolder : State := { lone 3 with xl := { (lone 3).xl with seen := [(5, .expiry 7 0)] } }
def shadowed (n : Nat) : State := { paired 2 6 with t0 := 100000000, xl := { (paired 2 6).xl with shadow := n, digs := [(0, 77)], phase := 3 } }
def holderDig : State := { paired 2 2 with xl := { (paired 2 2).xl with digs := [(0, 77)] } }
def resyncIs (ph : Nat) : State := { paired 2 5 with xl := { (paired 2 5).xl with phase := ph } }
def bulkIs : Bulk := ⟨[(R.LOCAL 0 5, 6)], [(4, 5)], [(7, 8)], [], [], [], [], [], [], [], [], 5, 9, 0⟩

def ckptIs : Ckpt := ({ (default : Ckpt) with epoch := 0xFF000000, restores := 2 } : Ckpt).seal
def copying (b : Nat) : State := { (running 2).sets [(R.KA_CKPT_STAT, F.KA_CKPT_STAT_ACTIVE, b)] with boot := { (running 2).boot with copying := some ckptIs } }
def restarts (barred : Bool) : State := { running 2 with boot := { (running 2).boot with restart := some (2, false), bufB := some ckptIs }, mg := { (running 2).mg with barred := barred } }
def restores : State := { (running 2).sets [(R.BT_STAT, F.BT_STAT_PHASE, 6)] with boot := { (running 2).boot with use := some true, bufB := some ckptIs, loops := false } }
def restoresPaired (b : Nat) : State := { (restores.sets [(R.XL_CFG, F.XL_CFG_PAIR_EN, 1), (R.XL_STATE, F.XL_STATE_STATE, b)]) with xl := { restores.xl with partner := some { (default : Hello) with state := 2 } } }
def phaseIs (n : Nat) (trained : Bool) : State := { State.reset.sets [(R.BT_STAT, F.BT_STAT_PHASE, n)] with boot := { (default : BootX) with trained := trained } }
def hdrOk : Header := ⟨0x4C5A4248, 1, 0x4096, true, true, true, 0⟩
def secsGood : List SecCheck := [⟨false, true, true⟩, ⟨true, false, true⟩]
def secsBad : List SecCheck := [⟨true, true, true⟩, ⟨true, true, false⟩]
def imgIs : Image := { (default : Image) with part := 0x4096, placed := true, io := [(R.TM_CLOSE, Word.ofN 29250), (R.TM_PH_S_START, 50), (R.TM_PH_L_START, 400), (R.BT_RING_WAIT, 1300)] }
def imgUnplaced : Image := { imgIs with placed := false }
def dramRuns : State := { running 2 with boot := { (running 2).boot with dram := true } }
def streamsRun : State := { running 2 with boot := { (running 2).boot with streams := 0x82 } }

def hostGone : State := { running 2 with hostDown := true }
def smallUnit : State := { running 2 with lz2048 := true }
def ringIs (k : Nat) : State := (running 2).sets [(R.HI_RING_CTRL k, F.HI_RING_CTRL_EN, 1), (R.HI_RING_CFG k, F.HI_RING_CFG_LOG2, 8), (R.HI_RING_HEAD k, F.HI_RING_HEAD_INDEX, 0x1FF)]
def ringBoth : State := ringPosts 15 [slotD] (ringIs 7)
def slotNop : Desc := { slotD with opc := 1 }
def ringIrq (masked : Nat) : State := ((ringIs 20).sets [(R.HI_RING_CFG 20, F.HI_RING_CFG_VEC, 31), (R.HI_RING_IRQ 20, F.HI_RING_IRQ_TIME_US, 1), (0x8000 + 16 * 31 + 12, ⟨0, 1⟩, masked)]).setHringX 20 { (default : HRingX) with irqs := 1 }
def ring8 (mode : Nat) : State := ringPosts 8 [slotD, slotD] (running mode)
def flowOpen : State := (flowIs 1).sets [(R.TK_CFG 0 4, F.TK_CFG_KIND, 1), (R.TK_MASK_LO 0 4, word, 1)]
def flowIn : State := flowOpen.sets [(R.TM_CYC_SEQ, word, 10)]
def flowNone : State := (flowIs 0).sets [(R.TK_CFG 0 4, F.TK_CFG_KIND, 1), (R.TK_MASK_LO 0 4, word, 1)]
def flowLate : State := { flowIn with cyc := { flowIn.cyc with items := some [] } }

def memDouble : State := { running 2 with integ := { (running 2).integ with mems := [(0, 3, some 0)] } }
def bistIs : State := { slot5 with integ := { slot5.integ with bist := [15] } }
def senIs (n : Nat) : State := ((running 2).sets [(R.LC_SEN_STAT 0, F.LC_SEN_STAT_HELD, 1), (R.LE_CFG 5, F.LE_CFG_USED, 1)]).setPasses 0 n
def imgRuns : State := let s := (running 2).sets [(R.NE_CHK_POS 15, F.NE_CHK_POS_AREA, 64), (R.NE_CHK_POS 15, F.NE_CHK_POS_PASSES, 1)]; { s with img := { s.img with loaded := true } }
def imgGood : State := imgRuns.sets [(R.NE_BLK_CRC 15 0, word, 2760475471)]
def cvBusy : State := (running 1).sets [(R.CV_CTL, F.CV_CTL_BUSY, 1), (R.CV_DMA_LEN, F.CV_DMA_LEN_BYTES, 2), (R.CV_CTL, F.CV_CTL_MODE, 1)]
def chIs (busy : Nat) : State := cvBusy.sets [(R.CV_CH_STAT 7, F.CV_CH_STAT_BUSY, busy), (R.CV_CH_LEN 7, F.CV_CH_LEN_BYTES, 3)]

def coreDown : State := { running 2 with mg := { (running 2).mg with down := true } }
def itemX : PropX := ⟨.dieFence 3, .host, 5, 0, 0, none⟩
def itemU : PropX := ⟨.rtcWrite 5, .host, 5, 0, 0, none⟩
def mgIs (props : List (Nat × PropX)) : State := hostSession { running 1 with mg := { (running 1).mg with props := props, locked := false } }
def locked : State := { running 1 with mg := { (running 1).mg with locked := true } }
def failing : State := { running 1 with mg := { (running 1).mg with fails := [0, 0, 0, 0] } }
def itemConf : PropX := { itemU with conf := some .console }
def bankOpen (mode st : Nat) : State := hostSession (bankIs mode st)
def actIs (sec : Nat) : State := { bankIs 2 3 with mg := { (bankIs 2 3).mg with act := some (.bankB, sec, 0) }, t0 := 5000000000 }
def lifeIs (n : Nat) : State := (mgIs []).sets [(R.LF_STATE, F.LF_STATE_STATE, n)]
def erasing : State := { lifeIs 2 with mg := { (lifeIs 2).mg with erase := some 3 } }
def temps (v : Word) : List Word := List.replicate 20 v
def twoResets : State := { running 2 with mg := { (running 2).mg with resets := [0, 0] } }
def staged (n : Nat) : State := { running 2 with evStage := (List.range n).map (fun i => { (default : EvRec) with seq := Word.ofN (2044 + i) }) }

/-- States and operands that meet the hypotheses of the clauses of `Obligations.CycleStartAdvancesTime`. -/
theorem witness_CycleStartAdvancesTime :
    (cycRun.boot.up = true ∧ cycRun.boot.started = true ∧ cycRun.phase ≠ 6) ∧
    (cycRun.boot.up = true ∧
      cycRun.boot.started = true ∧
        cycRun.phase ≠ 6 ∧ cycRun.tbStep = none ∧ cycRun.tm.set = none ∧ cycRun.mg.props = []) ∧
    (cycRun.boot.started = true) ∧
    (State.reset.boot.up = false ∨ State.reset.phase = 6 ∧ State.reset.boot.use.isSome = true) := by
  refine ⟨?_, ?_, ?_, ?_⟩ <;> decide +kernel

/-- States and operands that meet the hypotheses of the clauses of `Obligations.CyclePhasesOpenOnce`. -/
theorem witness_CyclePhasesOpenOnce :
    (cycAge.boot.up = true ∧ cycAge.boot.started = true ∧ cycAge.cyc.cut = false) ∧
    (cycCut.cyc.cut = true) ∧
    (cycRun.cyc.sDone = false ∧
      cycRun.computes = true ∧
        cycRun.fld R.TM_PH_S_START F.TM_PH_S_START_OFFSET ≤ 0 ∧
          cycRun.activeRegions.all cycRun.regionDone = true) ∧
    (cycCut.cyc.sDone = true) ∧
    (cycS.cyc.sDone = true ∧
      cycS.cyc.lOpen = false ∧
        cycS.cyc.sOff ≤ 0 ∧ cycS.fld R.TM_PH_L_START F.TM_PH_L_START_OFFSET ≤ 0) ∧
    (cycRun.cyc.sDone = false ∨ cycRun.cyc.lOpen = true ∨ 0 < cycRun.cyc.sOff) ∧
    (cycRun.boot.up = true ∧ cycRun.boot.started = true ∧ cycRun.cyc.closed = false ∧ cycRun.computes = true) ∧
    (cycCut.cyc.closed = true) := by
  refine ⟨?_, ?_, ?_, ?_, ?_, ?_, ?_, ?_⟩ <;> decide +kernel

/-- States and operands that meet the hypotheses of the clauses of `Obligations.SnapshotTakesOwnersForcesAndFallow`. -/
theorem witness_SnapshotTakesOwnersForcesAndFallow :
    (7 ∈ cycOut.outWords ∧ 7 < 63488) ∧
    (63488 ≤ 63489 ∧ 63489 ∈ cycRes.outWords) := by
  refine ⟨?_, ?_⟩ <;> decide +kernel

/-- States and operands that meet the hypotheses of the clauses of `Obligations.TaskCommands`. -/
theorem witness_TaskCommands :
    (taskReady.stopped = false ∧
      taskReady.dieState ((↑(0 : RegionIx) : Nat) / 4) = 0 ∧
        taskReady.regionHeld (↑(0 : RegionIx) : Nat) = false ∧
          (taskReady.rsX (↑(0 : RegionIx) : Nat)).halt = false ∧
            (taskReady.rsX (↑(0 : RegionIx) : Nat)).run = none ∧
              taskReady.taskBest (↑(0 : RegionIx) : Nat) = some 4) ∧
    (taskBoth.stopped = false ∧
      taskBoth.dieState ((↑(0 : RegionIx) : Nat) / 4) = 0 ∧
        taskBoth.regionHeld (↑(0 : RegionIx) : Nat) = false ∧
          (taskBoth.rsX (↑(0 : RegionIx) : Nat)).halt = false ∧
            (taskBoth.rsX (↑(0 : RegionIx) : Nat)).run = some 4 ∧
              taskBoth.taskBest (↑(0 : RegionIx) : Nat) = some 9 ∧
                taskBoth.fld (R.TK_CFG (↑(0 : RegionIx) : Nat) 9) F.TK_CFG_PRIO <
                  taskBoth.fld (R.TK_CFG (↑(0 : RegionIx) : Nat) 4) F.TK_CFG_PRIO) ∧
    (stopped.stopped = true) ∧
    ((taskRun.rsX (↑(0 : RegionIx) : Nat)).run = some 4 ∧
      taskRun.taskInPhase (↑(0 : RegionIx) : Nat) 4 = false) ∧
    ((taskRun.rsX (↑(0 : RegionIx) : Nat)).run = some 4) ∧
    (((running 1).rsX (↑(15 : RegionIx) : Nat)).run = none) ∧
    (4 ∈ taskWaits.usedTasks (↑(0 : RegionIx) : Nat) ∧
      taskWaits.taskState (↑(0 : RegionIx) : Nat) 4 = 2 ∧
        (taskWaits.taskX (taskKey (↑(0 : RegionIx) : Nat) 4)).wake ≤ taskWaits.now 1000) ∧
    (∀ (b : Nat),
      b ∈ (running 1).usedTasks (↑(15 : RegionIx) : Nat) →
        (running 1).taskState (↑(15 : RegionIx) : Nat) b ≠ 2) := by
  refine ⟨?_, ?_, ?_, ?_, ?_, ?_, ?_, ?_⟩ <;> decide +kernel

/-- States and operands that meet the hypotheses of the clauses of `Obligations.SlotClearCommands`. -/
theorem witness_SlotClearCommands :
    (slotF.mode ≠ 3 ∧
      slotF.bit (R.LC_SEN_STAT ((↑(5 : SlotIx) : Nat) / 32)) F.LC_SEN_STAT_HELD = false ∧
        slotF.slotNow (↑(5 : SlotIx) : Nat)) ∧
    (slot5.mode ≠ 3 ∧ slot5.slotWaits (↑(5 : SlotIx) : Nat)) ∧
    (slotRun.lacks ((↑(5 : SlotIx) : Nat) / 256) = false ∧
      slotRun.mode = 3 ∧
        Instr.clrFault (5 : SlotIx) ∈ [Instr.clrFault (5 : SlotIx), Instr.reengage (5 : SlotIx)]) ∧
    (slotRun.lacks ((↑(5 : SlotIx) : Nat) / 256) = false ∧
      slotRun.mode = 3 ∧
        Instr.reengage (5 : SlotIx) ∈ [Instr.clrFault (5 : SlotIx), Instr.reengage (5 : SlotIx)]) ∧
    (slotRun.slotNow (↑(5 : SlotIx) : Nat)) ∧
    (slot5.slotWaits (↑(5 : SlotIx) : Nat)) ∧
    (slotF.mode ≠ 3 ∧
      Smap.find slotF.img.owners (Ref.slotField (↑(5 : SlotIx) : Nat) 31) = none ∧
        slotF.slotNow (↑(5 : SlotIx) : Nat)) ∧
    (slot5.mode ≠ 3 ∧
      Smap.find slot5.img.owners (Ref.slotField (↑(5 : SlotIx) : Nat) 31) = none ∧
        slot5.slotWaits (↑(5 : SlotIx) : Nat)) ∧
    ((slotHost (R.LE_CMD 5) (1 : Word) (1 : Word)).relDue (↑(5 : SlotIx) : Nat)
          ((slotHost (R.LE_CMD 5) (1 : Word) (1 : Word)).now 10000) =
        true ∧
      (slotHost (R.LE_CMD 5) (1 : Word) (1 : Word)).bit (R.LE_CFG (↑(5 : SlotIx) : Nat)) F.LE_CFG_CASC =
          false ∧
        ((0 : Word) ≠ (slotHost (R.LE_CMD 5) (1 : Word) (1 : Word)).seq ∨ 10000 ≠ 0) ∧
          ((slotHost (R.LE_CMD 5) (1 : Word) (1 : Word)).slotX (↑(5 : SlotIx) : Nat)).host =
              [(R.LE_CMD (↑(5 : SlotIx) : Nat), (1 : Word), (1 : Word), (0 : Word))] ∧
            (slotHost (R.LE_CMD 5) (1 : Word) (1 : Word)).bit
                (R.LC_SEN_STAT ((↑(5 : SlotIx) : Nat) / 32)) F.LC_SEN_STAT_HELD =
              false) ∧
    ((slotHost (R.LE_CMD 5) (2 : Word) (2 : Word)).relDue (↑(5 : SlotIx) : Nat)
          ((slotHost (R.LE_CMD 5) (2 : Word) (2 : Word)).now 10000) =
        true ∧
      (slotHost (R.LE_CMD 5) (2 : Word) (2 : Word)).bit (R.LE_CFG (↑(5 : SlotIx) : Nat)) F.LE_CFG_CASC =
          false ∧
        ((0 : Word) ≠ (slotHost (R.LE_CMD 5) (2 : Word) (2 : Word)).seq ∨ 10000 ≠ 0) ∧
          ((slotHost (R.LE_CMD 5) (2 : Word) (2 : Word)).slotX (↑(5 : SlotIx) : Nat)).host =
            [(R.LE_CMD (↑(5 : SlotIx) : Nat), (2 : Word), (2 : Word), (0 : Word))]) ∧
    ((slotHost (R.LE_SUP_CMD 5) (1 : Word) (1 : Word)).relDue (↑(5 : SlotIx) : Nat)
          ((slotHost (R.LE_SUP_CMD 5) (1 : Word) (1 : Word)).now 10000) =
        true ∧
      (slotHost (R.LE_SUP_CMD 5) (1 : Word) (1 : Word)).bit (R.LE_CFG (↑(5 : SlotIx) : Nat))
            F.LE_CFG_CASC =
          false ∧
        ((0 : Word) ≠ (slotHost (R.LE_SUP_CMD 5) (1 : Word) (1 : Word)).seq ∨ 10000 ≠ 0) ∧
          ((slotHost (R.LE_SUP_CMD 5) (1 : Word) (1 : Word)).slotX (↑(5 : SlotIx) : Nat)).host =
            [(R.LE_SUP_CMD (↑(5 : SlotIx) : Nat), (1 : Word), (1 : Word), (0 : Word))]) := by
  refine ⟨?_, ?_, ?_, ?_, ?_, ?_, ?_, ?_, ?_, ?_, ?_⟩ <;> decide +kernel

/-- States and operands that meet the hypotheses of the clauses of `Obligations.SlotModeAndParameterWrites`. -/
theorem witness_SlotModeAndParameterWrites :
    (slotF.mode ≠ 3 ∧
      Smap.find slotF.img.owners (Ref.slotField (↑(5 : SlotIx) : Nat) 4) = none ∧
        slotF.slotNow (↑(5 : SlotIx) : Nat) ∧ BitVec.toNat (3 : BitVec 3) ≤ 3) ∧
    (slotF.mode ≠ 3 ∧
      Smap.find slotF.img.owners (Ref.slotField (↑(5 : SlotIx) : Nat) 4) = none ∧
        slotF.slotNow (↑(5 : SlotIx) : Nat) ∧ BitVec.toNat (0 : BitVec 3) ≤ 3) ∧
    (slotF.mode ≠ 3 ∧
      Smap.find slotF.img.owners (Ref.slotField (↑last : Nat) 4) = none ∧
        slotF.slotNow (↑last : Nat) ∧
          BitVec.toNat (4 : BitVec 3) = 4 ∧
            slotF.bit (R.LE_CFG (↑last : Nat)) F.LE_CFG_USED = false) ∧
    (slotF.mode ≠ 3 ∧
      Smap.find slotF.img.owners (Ref.slotField (↑(5 : SlotIx) : Nat) 4) = none ∧
        slotF.slotNow (↑(5 : SlotIx) : Nat) ∧
          BitVec.toNat (4 : BitVec 3) = 4 ∧
            slotF.bit (R.LE_CFG (↑(5 : SlotIx) : Nat)) F.LE_CFG_USED = true) ∧
    (slotF.mode ≠ 3 ∧
      Smap.find slotF.img.owners (Ref.slotField (↑(5 : SlotIx) : Nat) 4) = none ∧
        slotF.slotNow (↑(5 : SlotIx) : Nat) ∧ 4 < BitVec.toNat (5 : BitVec 3)) ∧
    (slotF.mode ≠ 3 ∧
      Smap.find slotF.img.owners
            (Ref.slotField (↑(5 : SlotIx) : Nat) (13 + (↑(7 : Fin 8) : Nat))) =
          none ∧
        slotF.slotNow (↑(5 : SlotIx) : Nat) ∧ F32.finite (2139095039 : Word) = true) ∧
    (slotF.mode ≠ 3 ∧
      Smap.find slotF.img.owners
            (Ref.slotField (↑(5 : SlotIx) : Nat) (13 + (↑(7 : Fin 8) : Nat))) =
          none ∧
        slotF.slotNow (↑(5 : SlotIx) : Nat) ∧ F32.finite (2139095040 : Word) = false) ∧
    (slot5.mode ≠ 3 ∧
      Smap.find slot5.img.owners (Ref.slotField (↑(5 : SlotIx) : Nat) 4) = none ∧
        slot5.slotWaits (↑(5 : SlotIx) : Nat)) ∧
    (slot5.mode ≠ 3 ∧
      Smap.find slot5.img.owners
            (Ref.slotField (↑(5 : SlotIx) : Nat) (13 + (↑(7 : Fin 8) : Nat))) =
          none ∧
        slot5.slotWaits (↑(5 : SlotIx) : Nat)) ∧
    ((slotHost (R.LE_MODE 5) (Word.ofN 2) (7 : Word)).relDue (↑(5 : SlotIx) : Nat)
          ((slotHost (R.LE_MODE 5) (Word.ofN 2) (7 : Word)).now 10000) =
        true ∧
      (slotHost (R.LE_MODE 5) (Word.ofN 2) (7 : Word)).bit (R.LE_CFG (↑(5 : SlotIx) : Nat))
            F.LE_CFG_CASC =
          false ∧
        ((0 : Word) ≠ (slotHost (R.LE_MODE 5) (Word.ofN 2) (7 : Word)).seq ∨
            10000 ≠ 0) ∧
          BitVec.toNat (2 : BitVec 3) ≤ 3 ∧
            ((slotHost (R.LE_MODE 5) (Word.ofN 2) (7 : Word)).slotX (↑(5 : SlotIx) : Nat)).host =
              [(R.LE_MODE (↑(5 : SlotIx) : Nat), Word.ofN (BitVec.toNat (2 : BitVec 3)), (7 : Word),
                  (0 : Word))]) ∧
    ((slotHost (R.LE_TP 5 6) (1065353216 : Word) (4294967295 : Word)).relDue (↑(5 : SlotIx) : Nat)
          ((slotHost (R.LE_TP 5 6) (1065353216 : Word) (4294967295 : Word)).now 10000) =
        true ∧
      (slotHost (R.LE_TP 5 6) (1065353216 : Word) (4294967295 : Word)).bit
            (R.LE_CFG (↑(5 : SlotIx) : Nat)) F.LE_CFG_CASC =
          false ∧
        ((0 : Word) ≠ (slotHost (R.LE_TP 5 6) (1065353216 : Word) (4294967295 : Word)).seq ∨
            10000 ≠ 0) ∧
          F32.finite (1065353216 : Word) = true ∧
            ((slotHost (R.LE_TP 5 6) (1065353216 : Word) (4294967295 : Word)).slotX
                  (↑(5 : SlotIx) : Nat)).host =
              [(R.LE_TP (↑(5 : SlotIx) : Nat) (↑(6 : Fin 8) : Nat), (1065353216 : Word),
                  (4294967295 : Word), (0 : Word))]) ∧
    (slotRun.lacks ((↑(5 : SlotIx) : Nat) / 256) = false ∧
      (Instr.modeRequest (5 : SlotIx) (2 : BitVec 3) =
              Instr.modeRequest (5 : SlotIx) (2 : BitVec 3) ∧
            4 = 4 ∨
          Instr.modeRequest (5 : SlotIx) (2 : BitVec 3) =
              Instr.tpWrite (5 : SlotIx) (6 : Fin 8) (1065353216 : Word) ∧
            4 = 13 + (↑(6 : Fin 8) : Nat)) ∧
        (slotRun.mode = 3 ∨
          (Smap.find slotRun.img.owners (Ref.slotField (↑(5 : SlotIx) : Nat) 4)).isSome = true)) ∧
    (slotRun.lacks ((↑(5 : SlotIx) : Nat) / 256) = false ∧
      (Instr.tpWrite (5 : SlotIx) (6 : Fin 8) (1065353216 : Word) =
              Instr.modeRequest (5 : SlotIx) (2 : BitVec 3) ∧
            19 = 4 ∨
          Instr.tpWrite (5 : SlotIx) (6 : Fin 8) (1065353216 : Word) =
              Instr.tpWrite (5 : SlotIx) (6 : Fin 8) (1065353216 : Word) ∧
            19 = 13 + (↑(6 : Fin 8) : Nat)) ∧
        (slotRun.mode = 3 ∨
          (Smap.find slotRun.img.owners (Ref.slotField (↑(5 : SlotIx) : Nat) 19)).isSome = true)) := by
  refine ⟨?_, ?_, ?_, ?_, ?_, ?_, ?_, ?_, ?_, ?_, ?_, ?_, ?_⟩ <;> decide +kernel

/-- States and operands that meet the hypotheses of the clauses of `Obligations.LawMemoryPort`. -/
theorem witness_LawMemoryPort :
    ((running 1).lacks ((↑(127 : ClusterIx) : Nat) / 8) = false) ∧
    ((running 1).lacks ((↑(127 : ClusterIx) : Nat) / 8) = false ∧
      (running 1).mode = 1 ∧
        (running 1).fld
              (R.LE_MODE (lawSlot (↑(127 : ClusterIx) : Nat) (↑(4095 : Fin 4096) : Nat))) F.LE_MODE_EFF ≤
            1 ∧
          (12 ≤ (↑(4095 : Fin 4096) : Nat) % 16 ∨ F32.finite (2139095040 : Word) = true)) ∧
    ((running 1).lacks ((↑(127 : ClusterIx) : Nat) / 8) = false ∧
      (running 1).mode = 1 ∧
        (running 1).fld (R.LE_MODE (lawSlot (↑(127 : ClusterIx) : Nat) (↑(0 : Fin 4096) : Nat)))
              F.LE_MODE_EFF ≤
            1 ∧
          (12 ≤ (↑(0 : Fin 4096) : Nat) % 16 ∨ F32.finite (1065353216 : Word) = true)) ∧
    ((running 2).lacks ((↑(127 : ClusterIx) : Nat) / 8) = false ∧
      (running 2).mode ≠ 1) ∧
    (lawPort.lacks ((↑(3 : ClusterIx) : Nat) / 8) = false ∧
      (lawPort.clusterX (↑(3 : ClusterIx) : Nat)).latch = none) := by
  refine ⟨?_, ?_, ?_, ?_, ?_⟩ <;> decide +kernel

/-- States and operands that meet the hypotheses of the clauses of `Obligations.SampleReleaseSkipAndCompletion`. -/
theorem witness_SampleReleaseSkipAndCompletion :
    (slot5.relDue (↑(5 : SlotIx) : Nat) (slot5.now 20000) = true ∧
      slot5.bit (R.LE_CFG (↑(5 : SlotIx) : Nat)) F.LE_CFG_CASC = false) ∧
    (slot5.relDue (↑(5 : SlotIx) : Nat) (slot5.now 20001) = false) ∧
    ((clusterFree.slotX (↑(5 : SlotIx) : Nat)).ready =
        [(sampleReady.slotX 5).ready.head!, (sampleReady.slotX 5).ready.getLast!] ∧
      clusterFree.slotRuns (↑(5 : SlotIx) : Nat) = true ∧
        (↑(5 : SlotIx) : Nat) ∈ clusterFree.jobSlots (clusterFree.jobHead (↑(5 : SlotIx) : Nat)) ∧
          clusterFree.jobSkips (↑(5 : SlotIx) : Nat) (clusterFree.now 600)
              (sampleReady.slotX 5).ready.head! =
            true) ∧
    (sampleReady.engineJob ((↑(5 : SlotIx) : Nat) / 32) =
        some (5, (↑(5 : SlotIx) : Nat), (sampleReady.slotX 5).ready.head!) ∧
      sampleReady.slotRuns (↑(5 : SlotIx) : Nat) = true ∧ (sampleReady.slotX 5).ready.head!.dead = none) ∧
    (sampleReady.engineJob ((↑(5 : SlotIx) : Nat) / 32) =
        some (5, (↑(5 : SlotIx) : Nat), (sampleReady.slotX 5).ready.head!) ∧
      sampleReady.slotRuns (↑(5 : SlotIx) : Nat) = true) ∧
    (slot5.engineJob ((↑(5 : SlotIx) : Nat) / 32) = none) := by
  refine ⟨?_, ?_, ?_, ?_, ?_, ?_⟩ <;> decide +kernel

/-- States and operands that meet the hypotheses of the clauses of `Obligations.SwatchStartAndAbort`. -/
theorem witness_SwatchStartAndAbort :
    (swatchOk.lacks ((↑(0 : ClusterIx) : Nat) / 8) = false ∧
      (swatchOk.setFld (R.LC_SW_CTRL (↑(0 : ClusterIx) : Nat)) F.LC_SW_CTRL_SLOT
              (↑(5 : Fin 32) : Nat)).swatchRefuse
          (↑(0 : ClusterIx) : Nat) =
        0) ∧
    ((running 3).lacks ((↑(0 : ClusterIx) : Nat) / 8) = false ∧
      ((running 3).setFld (R.LC_SW_CTRL (↑(0 : ClusterIx) : Nat)) F.LC_SW_CTRL_SLOT
                (↑(31 : Fin 32) : Nat)).swatchRefuse
            (↑(0 : ClusterIx) : Nat) =
          1 ∧
        1 ≠ 0) ∧
    (swatchGoes.lacks ((↑(0 : ClusterIx) : Nat) / 8) = false ∧
      (swatchGoes.setFld (R.LC_SW_CTRL (↑(0 : ClusterIx) : Nat)) F.LC_SW_CTRL_SLOT
                (↑(5 : Fin 32) : Nat)).swatchRefuse
            (↑(0 : ClusterIx) : Nat) =
          2 ∧
        2 ≠ 0) ∧
    (swatchGoes.lacks ((↑(0 : ClusterIx) : Nat) / 8) = false ∧
      1 ≤ swatchGoes.fld (R.LC_SW_STAT (↑(0 : ClusterIx) : Nat)) F.LC_SW_STAT_STATE ∧
        swatchGoes.fld (R.LC_SW_STAT (↑(0 : ClusterIx) : Nat)) F.LC_SW_STAT_STATE ≤ 3) ∧
    ((running 1).lacks ((↑(127 : ClusterIx) : Nat) / 8) = false ∧
      ((running 1).fld (R.LC_SW_STAT (↑(127 : ClusterIx) : Nat)) F.LC_SW_STAT_STATE = 0 ∨
        4 ≤ (running 1).fld (R.LC_SW_STAT (↑(127 : ClusterIx) : Nat)) F.LC_SW_STAT_STATE)) := by
  refine ⟨?_, ?_, ?_, ?_, ?_⟩ <;> decide +kernel

/-- States and operands that meet the hypotheses of the clauses of `Obligations.LaneStartAdmitsARecipe`. -/
theorem witness_LaneStartAdmitsARecipe :
    (laneFree.laneUsed (↑(0 : LaneIx) : Nat) = true ∧ (laneFree.mode = 1 ∨ laneFree.mode = 2)) ∧
    ((laneCmd 0 1 0).laneWaits (↑(0 : LaneIx) : Nat) 1 ∧
      BitVec.toNat ((laneCmd 0 1 0).rd (R.SQ_CMD_ARG (↑(0 : LaneIx) : Nat))) %
            256 =
          0 ∧
        ((laneCmd 0 1 0).laneState (↑(0 : LaneIx) : Nat) = 0 ∨
            (laneCmd 0 1 0).laneState (↑(0 : LaneIx) : Nat) = 4) ∧
          (laneCmd 0 1 0).rcpValid 0 = true ∧
            (laneCmd 0 1 0).rcpChamber 0 =
              (laneCmd 0 1 0).fld (R.SQ_CFG (↑(0 : LaneIx) : Nat)) F.SQ_CFG_CHAMBER) ∧
    ((laneCmd 4 1 0).laneWaits (↑(0 : LaneIx) : Nat) 1 ∧
      BitVec.toNat ((laneCmd 4 1 0).rd (R.SQ_CMD_ARG (↑(0 : LaneIx) : Nat))) %
            256 =
          0 ∧
        ((laneCmd 4 1 0).laneState (↑(0 : LaneIx) : Nat) = 0 ∨
            (laneCmd 4 1 0).laneState (↑(0 : LaneIx) : Nat) = 4) ∧
          (laneCmd 4 1 0).rcpValid 0 = true ∧
            (laneCmd 4 1 0).rcpChamber 0 =
              (laneCmd 4 1 0).fld (R.SQ_CFG (↑(0 : LaneIx) : Nat)) F.SQ_CFG_CHAMBER) ∧
    ((laneCmd 4 1 255).laneWaits (↑(0 : LaneIx) : Nat) 1 ∧
      BitVec.toNat ((laneCmd 4 1 255).rd (R.SQ_CMD_ARG (↑(0 : LaneIx) : Nat))) %
            256 =
          255 ∧
        ((laneCmd 4 1 255).laneState (↑(0 : LaneIx) : Nat) = 0 ∨
            (laneCmd 4 1 255).laneState (↑(0 : LaneIx) : Nat) = 4) ∧
          ((laneCmd 4 1 255).rcpValid 255 = false ∨
            (laneCmd 4 1 255).rcpChamber 255 ≠
              (laneCmd 4 1 255).fld (R.SQ_CFG (↑(0 : LaneIx) : Nat)) F.SQ_CFG_CHAMBER)) ∧
    ((laneCmd 3 1 0).laneWaits (↑(0 : LaneIx) : Nat) 1 ∧
      (laneCmd 3 1 0).laneState (↑(0 : LaneIx) : Nat) ≠ 0 ∧
        (laneCmd 3 1 0).laneState (↑(0 : LaneIx) : Nat) ≠ 4) ∧
    ((laneCmd 2 1 0).laneWaits (↑(0 : LaneIx) : Nat) 1 ∧
      (laneCmd 2 1 0).laneState (↑(0 : LaneIx) : Nat) ≠ 0 ∧
        (laneCmd 2 1 0).laneState (↑(0 : LaneIx) : Nat) ≠ 4) := by
  refine ⟨?_, ?_, ?_, ?_, ?_, ?_⟩ <;> decide +kernel

/-- States and operands that meet the hypotheses of the clauses of `Obligations.LaneHoldResumeAbortAdvanceClearGoto`. -/
theorem witness_LaneHoldResumeAbortAdvanceClearGoto :
    (laneRunMode.laneUsed (↑(0 : LaneIx) : Nat) = true ∧
      (Instr.laneHold (0 : LaneIx), 2) ∈
          [(Instr.laneHold (0 : LaneIx), 2), (Instr.laneResume (0 : LaneIx), 3),
            (Instr.laneAbort (0 : LaneIx), 4),
            (Instr.laneAdvance (0 : LaneIx) (3 : Fin 4), 5),
            (Instr.laneClear (0 : LaneIx), 6),
            (Instr.laneGoto (0 : LaneIx) (4095 : Fin 4096), 7)] ∧
        (laneRunMode.mode = 1 ∨
          laneRunMode.mode = 2 ∨
            laneRunMode.mode = 3 ∧ (2 = 2 ∨ 2 = 4))) ∧
    (laneFree.laneUsed (↑(0 : LaneIx) : Nat) = true ∧
      (Instr.laneResume (0 : LaneIx), 3) ∈
          [(Instr.laneHold (0 : LaneIx), 2), (Instr.laneResume (0 : LaneIx), 3),
            (Instr.laneAbort (0 : LaneIx), 4),
            (Instr.laneAdvance (0 : LaneIx) (3 : Fin 4), 5),
            (Instr.laneClear (0 : LaneIx), 6),
            (Instr.laneGoto (0 : LaneIx) (4095 : Fin 4096), 7)] ∧
        (laneFree.mode = 1 ∨
          laneFree.mode = 2 ∨ laneFree.mode = 3 ∧ (3 = 2 ∨ 3 = 4))) ∧
    (laneFree.laneUsed (↑(0 : LaneIx) : Nat) = true ∧
      (Instr.laneAbort (0 : LaneIx), 4) ∈
          [(Instr.laneHold (0 : LaneIx), 2), (Instr.laneResume (0 : LaneIx), 3),
            (Instr.laneAbort (0 : LaneIx), 4),
            (Instr.laneAdvance (0 : LaneIx) (3 : Fin 4), 5),
            (Instr.laneClear (0 : LaneIx), 6),
            (Instr.laneGoto (0 : LaneIx) (4095 : Fin 4096), 7)] ∧
        (laneFree.mode = 1 ∨
          laneFree.mode = 2 ∨ laneFree.mode = 3 ∧ (4 = 2 ∨ 4 = 4))) ∧
    (laneFree.laneUsed (↑(0 : LaneIx) : Nat) = true ∧
      (Instr.laneAdvance (0 : LaneIx) (3 : Fin 4), 5) ∈
          [(Instr.laneHold (0 : LaneIx), 2), (Instr.laneResume (0 : LaneIx), 3),
            (Instr.laneAbort (0 : LaneIx), 4),
            (Instr.laneAdvance (0 : LaneIx) (3 : Fin 4), 5),
            (Instr.laneClear (0 : LaneIx), 6),
            (Instr.laneGoto (0 : LaneIx) (4095 : Fin 4096), 7)] ∧
        (laneFree.mode = 1 ∨
          laneFree.mode = 2 ∨ laneFree.mode = 3 ∧ (5 = 2 ∨ 5 = 4))) ∧
    (laneFree.laneUsed (↑(0 : LaneIx) : Nat) = true ∧
      (Instr.laneClear (0 : LaneIx), 6) ∈
          [(Instr.laneHold (0 : LaneIx), 2), (Instr.laneResume (0 : LaneIx), 3),
            (Instr.laneAbort (0 : LaneIx), 4),
            (Instr.laneAdvance (0 : LaneIx) (3 : Fin 4), 5),
            (Instr.laneClear (0 : LaneIx), 6),
            (Instr.laneGoto (0 : LaneIx) (4095 : Fin 4096), 7)] ∧
        (laneFree.mode = 1 ∨
          laneFree.mode = 2 ∨ laneFree.mode = 3 ∧ (6 = 2 ∨ 6 = 4))) ∧
    (laneFree.laneUsed (↑(0 : LaneIx) : Nat) = true ∧
      (Instr.laneGoto (0 : LaneIx) (4095 : Fin 4096), 7) ∈
          [(Instr.laneHold (0 : LaneIx), 2), (Instr.laneResume (0 : LaneIx), 3),
            (Instr.laneAbort (0 : LaneIx), 4),
            (Instr.laneAdvance (0 : LaneIx) (3 : Fin 4), 5),
            (Instr.laneClear (0 : LaneIx), 6),
            (Instr.laneGoto (0 : LaneIx) (4095 : Fin 4096), 7)] ∧
        (laneFree.mode = 1 ∨
          laneFree.mode = 2 ∨ laneFree.mode = 3 ∧ (7 = 2 ∨ 7 = 4))) ∧
    ((laneCmd 1 2 0).laneWaits (↑(0 : LaneIx) : Nat) 2 ∧
      (laneCmd 1 2 0).laneState (↑(0 : LaneIx) : Nat) = 1) ∧
    ((laneCmd 2 3 0).laneWaits (↑(0 : LaneIx) : Nat) 3 ∧
      (laneCmd 2 3 0).laneState (↑(0 : LaneIx) : Nat) = 2) ∧
    ((laneCmd 1 4 0).laneWaits (↑(0 : LaneIx) : Nat) 4 ∧
      (laneCmd 1 4 0).laneState (↑(0 : LaneIx) : Nat) = 1 ∧
        (laneCmd 1 4 0).bit (R.SQ_ABORT_ENT (↑(0 : LaneIx) : Nat)) F.SQ_ABORT_ENT_HELD =
          false) ∧
    (((laneCmd 1 4 0).sets
            [(R.SQ_ABORT_ENT 0, F.SQ_ABORT_ENT_HELD, 1)]).laneWaits
        (↑(0 : LaneIx) : Nat) 4 ∧
      ((laneCmd 1 4 0).sets
                [(R.SQ_ABORT_ENT 0, F.SQ_ABORT_ENT_HELD, 1)]).laneState
            (↑(0 : LaneIx) : Nat) =
          1 ∧
        ((laneCmd 1 4 0).sets
                [(R.SQ_ABORT_ENT 0, F.SQ_ABORT_ENT_HELD, 1)]).bit
            (R.SQ_ABORT_ENT (↑(0 : LaneIx) : Nat)) F.SQ_ABORT_ENT_HELD =
          true) ∧
    ((laneCmd 1 5 0).laneWaits (↑(0 : LaneIx) : Nat) 5 ∧
      (laneCmd 1 5 0).laneState (↑(0 : LaneIx) : Nat) = 1 ∧
        (laneCmd 1 5 0).lanePend (↑(0 : LaneIx) : Nat) = false ∧
          ((laneCmd 1 5 0).laneX (↑(0 : LaneIx) : Nat)).abort = false ∧
            ((laneCmd 1 5 0).laneX (↑(0 : LaneIx) : Nat)).kept = none ∧
              BitVec.toNat ((laneCmd 1 5 0).rd (R.SQ_CMD_ARG (↑(0 : LaneIx) : Nat))) =
                  (↑(0 : Fin 4) : Nat) ∧
                (↑(0 : Fin 4) : Nat) <
                    (laneCmd 1 5 0).stepExits
                      ((laneCmd 1 5 0).laneRecipe (↑(0 : LaneIx) : Nat))
                      ((laneCmd 1 5 0).laneStep (↑(0 : LaneIx) : Nat)) ∧
                  ((laneCmd 1 5 0).stepExit
                        ((laneCmd 1 5 0).laneRecipe (↑(0 : LaneIx) : Nat))
                        ((laneCmd 1 5 0).laneStep (↑(0 : LaneIx) : Nat))
                        (↑(0 : Fin 4) : Nat)).typ =
                    5) ∧
    ((laneCmd 4 6 0).laneWaits (↑(0 : LaneIx) : Nat) 6 ∧
      (laneCmd 4 6 0).laneState (↑(0 : LaneIx) : Nat) = 4) ∧
    ((laneCmd 2 7 0).laneWaits (↑(0 : LaneIx) : Nat) 7 ∧
      (laneCmd 2 7 0).laneState (↑(0 : LaneIx) : Nat) = 2 ∧
        BitVec.toNat ((laneCmd 2 7 0).rd (R.SQ_CMD_ARG (↑(0 : LaneIx) : Nat))) %
            4096 <
          (laneCmd 2 7 0).rcpSteps
            ((laneCmd 2 7 0).laneRecipe (↑(0 : LaneIx) : Nat))) := by
  refine ⟨?_, ?_, ?_, ?_, ?_, ?_, ?_, ?_, ?_, ?_, ?_, ?_, ?_⟩ <;> decide +kernel

/-- States and operands that meet the hypotheses of the clauses of `Obligations.LaneCommandsKeepToModeAndConfiguration`. -/
theorem witness_LaneCommandsKeepToModeAndConfiguration :
    (laneRunMode.laneUsed (↑(0 : LaneIx) : Nat) = true ∧
      (Instr.laneStart (0 : LaneIx) (255 : Fin 256), 1) ∈
          [(Instr.laneStart (0 : LaneIx) (255 : Fin 256), 1),
            (Instr.laneHold (0 : LaneIx), 2), (Instr.laneResume (0 : LaneIx), 3),
            (Instr.laneAbort (0 : LaneIx), 4),
            (Instr.laneAdvance (0 : LaneIx) (3 : Fin 4), 5),
            (Instr.laneClear (0 : LaneIx), 6),
            (Instr.laneGoto (0 : LaneIx) (4095 : Fin 4096), 7)] ∧
        (laneRunMode.mode = 0 ∨
          laneRunMode.mode = 3 ∧ 1 ≠ 2 ∧ 1 ≠ 4)) ∧
    (laneStop.laneUsed (↑(0 : LaneIx) : Nat) = true ∧
      (Instr.laneHold (0 : LaneIx), 2) ∈
          [(Instr.laneStart (0 : LaneIx) (255 : Fin 256), 1),
            (Instr.laneHold (0 : LaneIx), 2), (Instr.laneResume (0 : LaneIx), 3),
            (Instr.laneAbort (0 : LaneIx), 4),
            (Instr.laneAdvance (0 : LaneIx) (3 : Fin 4), 5),
            (Instr.laneClear (0 : LaneIx), 6),
            (Instr.laneGoto (0 : LaneIx) (4095 : Fin 4096), 7)] ∧
        (laneStop.mode = 0 ∨ laneStop.mode = 3 ∧ 2 ≠ 2 ∧ 2 ≠ 4)) ∧
    (laneRunMode.laneUsed (↑(0 : LaneIx) : Nat) = true ∧
      (Instr.laneAdvance (0 : LaneIx) (3 : Fin 4), 5) ∈
          [(Instr.laneStart (0 : LaneIx) (255 : Fin 256), 1),
            (Instr.laneHold (0 : LaneIx), 2), (Instr.laneResume (0 : LaneIx), 3),
            (Instr.laneAbort (0 : LaneIx), 4),
            (Instr.laneAdvance (0 : LaneIx) (3 : Fin 4), 5),
            (Instr.laneClear (0 : LaneIx), 6),
            (Instr.laneGoto (0 : LaneIx) (4095 : Fin 4096), 7)] ∧
        (laneRunMode.mode = 0 ∨
          laneRunMode.mode = 3 ∧ 5 ≠ 2 ∧ 5 ≠ 4)) ∧
    (laneRunMode.laneUsed (↑(0 : LaneIx) : Nat) = true ∧
      (Instr.laneGoto (0 : LaneIx) (4095 : Fin 4096), 7) ∈
          [(Instr.laneStart (0 : LaneIx) (255 : Fin 256), 1),
            (Instr.laneHold (0 : LaneIx), 2), (Instr.laneResume (0 : LaneIx), 3),
            (Instr.laneAbort (0 : LaneIx), 4),
            (Instr.laneAdvance (0 : LaneIx) (3 : Fin 4), 5),
            (Instr.laneClear (0 : LaneIx), 6),
            (Instr.laneGoto (0 : LaneIx) (4095 : Fin 4096), 7)] ∧
        (laneRunMode.mode = 0 ∨
          laneRunMode.mode = 3 ∧ 7 ≠ 2 ∧ 7 ≠ 4)) ∧
    ((running 1).laneUsed (↑(15 : LaneIx) : Nat) = false ∧
      Instr.laneStart (15 : LaneIx) (255 : Fin 256) ∈
        [Instr.laneStart (15 : LaneIx) (255 : Fin 256), Instr.laneHold (15 : LaneIx),
          Instr.laneResume (15 : LaneIx), Instr.laneAbort (15 : LaneIx),
          Instr.laneAdvance (15 : LaneIx) (3 : Fin 4), Instr.laneClear (15 : LaneIx),
          Instr.laneGoto (15 : LaneIx) (4095 : Fin 4096)]) := by
  refine ⟨?_, ?_, ?_, ?_, ?_⟩ <;> decide +kernel

/-- States and operands that meet the hypotheses of the clauses of `Obligations.RecipeValidation`. -/
theorem witness_RecipeValidation :
    (laneFree.bit R.SQ_RCP_STAT F.SQ_RCP_STAT_BUSY = false) ∧
    (rcpBusy.bit R.SQ_RCP_STAT F.SQ_RCP_STAT_BUSY = true) ∧
    (rcpBusy.bit R.SQ_RCP_STAT F.SQ_RCP_STAT_BUSY = true ∧ rcpBusy.rcpCheck rcpBusy.validating = 1) ∧
    (rcpGood.bit R.SQ_RCP_STAT F.SQ_RCP_STAT_BUSY = true ∧ rcpGood.rcpCheck rcpGood.validating = 0) ∧
    (laneFree.rcpInUse (↑(0 : Fin 256) : Nat) = false) ∧
    (rcpUsed.rcpInUse (↑(0 : Fin 256) : Nat) = true) := by
  refine ⟨?_, ?_, ?_, ?_, ?_, ?_⟩ <;> decide +kernel

/-- States and operands that meet the hypotheses of the clauses of `Obligations.KeyAndStopCommands`. -/
theorem witness_KeyAndStopCommands :
    ((running 1).role ≠ 2 ∧ (running 1).fld R.BT_STAT F.BT_STAT_PHASE = 7) ∧
    ((paired 1 3).role = 2) ∧
    ((running 1).mode = 1 ∨ (running 1).mode = 2) ∧
    ((running 2).mode = 1 ∨ (running 2).mode = 2) ∧
    ((running 3).mode = 0 ∨ (running 3).mode = 3) ∧
    ((running 0).mode = 0 ∨ (running 0).mode = 3) := by
  refine ⟨?_, ?_, ?_, ?_, ?_, ?_⟩ <;> decide +kernel

/-- States and operands that meet the hypotheses of the clauses of `Obligations.KillEnableAndFlowExpiry`. -/
theorem witness_KillEnableAndFlowExpiry :
    (((taskIs 3).mode = 1 ∨ (taskIs 3).mode = 2) ∧
      (taskIs 3).bit (R.TK_CFG (↑(0 : RegionIx) : Nat) (↑(4 : Fin 256) : Nat)) F.TK_CFG_USED =
          true ∧
        (taskIs 3).taskState (↑(0 : RegionIx) : Nat) (↑(4 : Fin 256) : Nat) ≠ 0) ∧
    (((taskIs 0).mode = 1 ∨ (taskIs 0).mode = 2) ∧
      (taskIs 0).bit (R.TK_CFG (↑(0 : RegionIx) : Nat) (↑(4 : Fin 256) : Nat)) F.TK_CFG_USED =
          true ∧
        (taskIs 0).taskState (↑(0 : RegionIx) : Nat) (↑(4 : Fin 256) : Nat) = 0) ∧
    ((flowIs 2).flowState (↑(7 : FlowIx) : Nat) = 2 ∧ (flowIs 2).role ≠ 2) ∧
    ((flowIs 1).flowState (↑(7 : FlowIx) : Nat) ≠ 0 ∧
      (flowIs 1).fld (R.FL_HOLD (↑(7 : FlowIx) : Nat)) F.FL_HOLD_HOLD_MAX <
          BitVec.toNat ((flowIs 1).seq - ((flowIs 1).flowX (↑(7 : FlowIx) : Nat)).last) ∧
        (flowIs 1).bit
            (R.TK_CFG ((flowIs 1).flowRegion (↑(7 : FlowIx) : Nat))
              ((flowIs 1).flowHolder (↑(7 : FlowIx) : Nat)))
            F.TK_CFG_USED =
          true) ∧
    (flowFresh.flowState (↑(7 : FlowIx) : Nat) = 0 ∨
      BitVec.toNat (flowFresh.seq - (flowFresh.flowX (↑(7 : FlowIx) : Nat)).last) ≤
        flowFresh.fld (R.FL_HOLD (↑(7 : FlowIx) : Nat)) F.FL_HOLD_HOLD_MAX) ∧
    ((running 1).flowState (↑(1023 : FlowIx) : Nat) = 0 ∨
      BitVec.toNat ((running 1).seq - ((running 1).flowX (↑(1023 : FlowIx) : Nat)).last) ≤
        (running 1).fld (R.FL_HOLD (↑(1023 : FlowIx) : Nat)) F.FL_HOLD_HOLD_MAX) := by
  refine ⟨?_, ?_, ?_, ?_, ?_, ?_⟩ <;> decide +kernel

/-- States and operands that meet the hypotheses of the clauses of `Obligations.ForceCommands`. -/
theorem witness_ForceCommands :
    (forceOk.Canonical ∧
      forceOk.forceCheck (↑(4095 : Fin 4096) : Nat) (forceOk.fld R.TK_FRC_REF F.TK_FRC_REF_REF)
          (forceOk.rd R.TK_FRC_MASK) =
        0) ∧
    ((running 2).forceCheck (↑(0 : Fin 4096) : Nat)
          ((running 2).fld R.TK_FRC_REF F.TK_FRC_REF_REF) ((running 2).rd R.TK_FRC_MASK) =
        1 ∧
      1 ≠ 0) ∧
    (forced.forceCheck (↑(0 : Fin 4096) : Nat) (forced.fld R.TK_FRC_REF F.TK_FRC_REF_REF)
          (forced.rd R.TK_FRC_MASK) =
        4 ∧
      4 ≠ 0) ∧
    (forced.Canonical) := by
  refine ⟨?_, ?_, ?_, ?_⟩ <;> (try simp only [State.Canonical]) <;> decide +kernel

/-- States and operands that meet the hypotheses of the clauses of `Obligations.OnLineChangeAndReload`. -/
theorem witness_OnLineChangeAndReload :
    ((running 3).mode = 0 ∨ (running 3).mode = 3) ∧
    (((running 1).mode = 1 ∨ (running 1).mode = 2) ∧
      ((running 1).fld R.TK_OLC_CTRL F.TK_OLC_CTRL_COUNT = 0 ∨
        256 < (running 1).fld R.TK_OLC_CTRL F.TK_OLC_CTRL_COUNT)) ∧
    ((olcMany.mode = 1 ∨ olcMany.mode = 2) ∧
      (olcMany.fld R.TK_OLC_CTRL F.TK_OLC_CTRL_COUNT = 0 ∨
        256 < olcMany.fld R.TK_OLC_CTRL F.TK_OLC_CTRL_COUNT)) ∧
    ((olcOne.mode = 1 ∨ olcOne.mode = 2) ∧
      olcOne.fld R.TK_OLC_CTRL F.TK_OLC_CTRL_COUNT = 1 ∧
        (olcOne.olcEntry 0).kind = 1 ∧ olcOne.olcCause [] (olcOne.olcEntry 0) = 0) ∧
    ((olcOne.mode = 1 ∨ olcOne.mode = 2) ∧
      olcOne.fld R.TK_OLC_CTRL F.TK_OLC_CTRL_COUNT = 1 ∧
        1 ≤ 1 ∧
          1 ≤ 256 ∧
            olcOne.olcCheck 0 [] (List.map olcOne.olcEntry (List.range 1)) = none) ∧
    (1 = 1 ∧ (running 2).mode ≠ 1 ∨
      1 = 2 ∧
          (running 2).mode = 1 ∧
            ((running 2).bankState Bank.bankA < 3 ∨
              (running 2).role = 1 ∧ true = false) ∨
        1 = 3 ∧
          (running 2).mode = 1 ∧
            3 ≤ (running 2).bankState Bank.bankA ∧
              ((running 2).role = 1 → true = true) ∧
                (running 2).forceForeign default = true) ∧
    (2 = 1 ∧ (bankIs 1 2).mode ≠ 1 ∨
      2 = 2 ∧
          (bankIs 1 2).mode = 1 ∧
            ((bankIs 1 2).bankState Bank.bankB < 3 ∨
              (bankIs 1 2).role = 1 ∧ true = false) ∨
        2 = 3 ∧
          (bankIs 1 2).mode = 1 ∧
            3 ≤ (bankIs 1 2).bankState Bank.bankB ∧
              ((bankIs 1 2).role = 1 → true = true) ∧
                (bankIs 1 2).forceForeign default = true) ∧
    (3 = 1 ∧ forcedAccepted.mode ≠ 1 ∨
      3 = 2 ∧
          forcedAccepted.mode = 1 ∧
            (forcedAccepted.bankState Bank.bankB < 3 ∨ forcedAccepted.role = 1 ∧ true = false) ∨
        3 = 3 ∧
          forcedAccepted.mode = 1 ∧
            3 ≤ forcedAccepted.bankState Bank.bankB ∧
              (forcedAccepted.role = 1 → true = true) ∧ forcedAccepted.forceForeign default = true) ∧
    ((bankIs 1 3).mode = 1 ∧
      3 ≤ (bankIs 1 3).bankState Bank.bankB ∧
        ((bankIs 1 3).role = 1 → false = true) ∧
          (bankIs 1 3).forceForeign default = false ∧
            (bankIs 1 3).boot.up = true ∧ (bankIs 1 3).boot.started = true) ∧
    (bankNotStarted.mode = 1 ∧
      3 ≤ bankNotStarted.bankState Bank.bankB ∧
        (bankNotStarted.role = 1 → false = true) ∧
          bankNotStarted.forceForeign default = false ∧
            (bankNotStarted.boot.up = false ∨ bankNotStarted.boot.started = false)) ∧
    (bankReload.boot.reload = some Bank.bankB) := by
  refine ⟨?_, ?_, ?_, ?_, ?_, ?_, ?_, ?_, ?_, ?_, ?_⟩ <;> decide +kernel

/-- States and operands that meet the hypotheses of the clauses of `Obligations.AxisCommands`. -/
theorem witness_AxisCommands :
    ((axisIs 1).bit (R.AX_CFG (↑(3 : AxisIx) : Nat)) F.AX_CFG_USED = true ∧
      (Instr.axisStop (3 : AxisIx), (1 : Word)) ∈
        [(Instr.axisStop (3 : AxisIx), (1 : Word)), (Instr.axisResume (3 : AxisIx), (2 : Word)),
          (Instr.axisReplan (3 : AxisIx), (3 : Word)), (Instr.axisClrFault (3 : AxisIx), (4 : Word))]) ∧
    ((axisIs 1).bit (R.AX_CFG (↑(3 : AxisIx) : Nat)) F.AX_CFG_USED = true ∧
      (Instr.axisResume (3 : AxisIx), (2 : Word)) ∈
        [(Instr.axisStop (3 : AxisIx), (1 : Word)), (Instr.axisResume (3 : AxisIx), (2 : Word)),
          (Instr.axisReplan (3 : AxisIx), (3 : Word)), (Instr.axisClrFault (3 : AxisIx), (4 : Word))]) ∧
    ((axisIs 1).bit (R.AX_CFG (↑(3 : AxisIx) : Nat)) F.AX_CFG_USED = true ∧
      (Instr.axisReplan (3 : AxisIx), (3 : Word)) ∈
        [(Instr.axisStop (3 : AxisIx), (1 : Word)), (Instr.axisResume (3 : AxisIx), (2 : Word)),
          (Instr.axisReplan (3 : AxisIx), (3 : Word)), (Instr.axisClrFault (3 : AxisIx), (4 : Word))]) ∧
    ((axisIs 1).bit (R.AX_CFG (↑(3 : AxisIx) : Nat)) F.AX_CFG_USED = true ∧
      (Instr.axisClrFault (3 : AxisIx), (4 : Word)) ∈
        [(Instr.axisStop (3 : AxisIx), (1 : Word)), (Instr.axisResume (3 : AxisIx), (2 : Word)),
          (Instr.axisReplan (3 : AxisIx), (3 : Word)), (Instr.axisClrFault (3 : AxisIx), (4 : Word))]) ∧
    ((axisIs 0).bit (R.AX_CFG (↑(3 : AxisIx) : Nat)) F.AX_CFG_USED = true) ∧
    ((axisIs 0).bit (R.AX_CFG (↑(127 : AxisIx) : Nat)) F.AX_CFG_USED = false ∧
      Instr.axisStop (127 : AxisIx) ∈
        [Instr.axisStop (127 : AxisIx), Instr.axisResume (127 : AxisIx), Instr.axisReplan (127 : AxisIx),
          Instr.axisClrFault (127 : AxisIx), Instr.setPos (127 : AxisIx) (1 : BitVec 64)]) ∧
    ((axisIs 0).bit (R.AX_CFG (↑(127 : AxisIx) : Nat)) F.AX_CFG_USED = false ∧
      Instr.setPos (127 : AxisIx) (1 : BitVec 64) ∈
        [Instr.axisStop (127 : AxisIx), Instr.axisResume (127 : AxisIx), Instr.axisReplan (127 : AxisIx),
          Instr.axisClrFault (127 : AxisIx), Instr.setPos (127 : AxisIx) (1 : BitVec 64)]) ∧
    (1 ≤ BitVec.toNat (1 : Word) ∧
      BitVec.toNat (1 : Word) ≤ 5 ∧
        ((axisWrites (1 : Word)).axisX (↑(3 : AxisIx) : Nat)).writes =
          [(R.AX_CMD_ARG_LO (↑(3 : AxisIx) : Nat), BitVec.truncate 32 (1 : BitVec 64),
              (4294967295 : Word)),
            (R.AX_CMD_ARG_HI (↑(3 : AxisIx) : Nat),
              BitVec.truncate 32 ((1 : BitVec 64) >>> 32), (4294967295 : Word)),
            (R.AX_CMD (↑(3 : AxisIx) : Nat), (1 : Word), (7 : Word))]) ∧
    (1 ≤ BitVec.toNat (5 : Word) ∧
      BitVec.toNat (5 : Word) ≤ 5 ∧
        ((axisWrites (5 : Word)).axisX (↑(3 : AxisIx) : Nat)).writes =
          [(R.AX_CMD_ARG_LO (↑(3 : AxisIx) : Nat), BitVec.truncate 32 (1 : BitVec 64),
              (4294967295 : Word)),
            (R.AX_CMD_ARG_HI (↑(3 : AxisIx) : Nat),
              BitVec.truncate 32 ((1 : BitVec 64) >>> 32), (4294967295 : Word)),
            (R.AX_CMD (↑(3 : AxisIx) : Nat), (5 : Word), (7 : Word))]) ∧
    (axisPlan.axState (↑(3 : AxisIx) : Nat) = 1 ∧
      (axisPlan.axisX (↑(3 : AxisIx) : Nat)).causes.testBit 0 = false ∧
        limitOk (axisPlan.rd (R.AX_DSTOP (↑(3 : AxisIx) : Nat)))
              (limitA axisPlan.period (axisPlan.rd (R.AX_DSTOP (↑(3 : AxisIx) : Nat)))) =
            true ∧
          axisPlan.axSlows (↑(3 : AxisIx) : Nat)
              (limitA axisPlan.period (axisPlan.rd (R.AX_DSTOP (↑(3 : AxisIx) : Nat)))) =
            false) ∧
    ((axisIs 3).axState (↑(3 : AxisIx) : Nat) = 3 ∧
      (axisIs 3).stopped = false ∧
        ((axisIs 3).axCause (↑(3 : AxisIx) : Nat)).testBit 3 = false) ∧
    ((axisIs 2).axState (↑(3 : AxisIx) : Nat) ≠ 3 ∧
        (axisIs 2).axState (↑(3 : AxisIx) : Nat) ≠ 4 ∨
      false = true ∨
        (axisIs 2).stopped = true ∨
          ((axisIs 2).axCause (↑(3 : AxisIx) : Nat)).testBit 3 = true) ∧
    ((axisIs 3).axState (↑(3 : AxisIx) : Nat) ≠ 3 ∧
        (axisIs 3).axState (↑(3 : AxisIx) : Nat) ≠ 4 ∨
      true = true ∨
        (axisIs 3).stopped = true ∨
          ((axisIs 3).axCause (↑(3 : AxisIx) : Nat)).testBit 3 = true) ∧
    ((axisIs 3).axState (↑(3 : AxisIx) : Nat) = 3 ∧
      (axisIs 3).axLimitsOk (↑(3 : AxisIx) : Nat) = true) ∧
    ((axisIs 3).axState (↑(3 : AxisIx) : Nat) = 0 ∨
      (axisIs 3).axState (↑(3 : AxisIx) : Nat) = 3) := by
  refine ⟨?_, ?_, ?_, ?_, ?_, ?_, ?_, ?_, ?_, ?_, ?_, ?_, ?_, ?_, ?_⟩ <;> decide +kernel

/-- States and operands that meet the hypotheses of the clauses of `Obligations.StepperEvents`. -/
theorem witness_StepperEvents :
    ((axisIs 1).stRuns (↑(3 : AxisIx) : Nat) = true) ∧
    ((axisIs 1).stRuns (↑(3 : AxisIx) : Nat) = true ∧
      (axisIs 1).bit (R.AX_ST_STAT (↑(3 : AxisIx) : Nat)) F.AX_ST_STAT_STALL_RUN = true ∧
        (axisIs 1).role ≠ 2) ∧
    ((axisIs 3).stRuns (↑(3 : AxisIx) : Nat) = true ∧
      ((axisIs 3).axState (↑(3 : AxisIx) : Nat) = 0 ∨
        (axisIs 3).axState (↑(3 : AxisIx) : Nat) = 3)) ∧
    ((axisIs 1).stRuns (↑(127 : AxisIx) : Nat) = false ∧
      Instr.stall (127 : AxisIx) ∈
        [Instr.stepperTick (127 : AxisIx) 1000, Instr.stall (127 : AxisIx),
          Instr.holdDelayExpiry (127 : AxisIx)]) := by
  refine ⟨?_, ?_, ?_, ?_⟩ <;> decide +kernel

/-- States and operands that meet the hypotheses of the clauses of `Obligations.PwmCommitAndReload`. -/
theorem witness_PwmCommitAndReload :
    (pwmUsed.lacks ((↑(14 : PairIx) : Nat) / 12) = false ∧
      pwmUsed.pwOwn (↑(14 : PairIx) : Nat) = true ∧
        pwmUsed.pwCheck (↑(14 : PairIx) : Nat) [(↑(14 : PairIx) : Nat)]
            (pwmUsed.pwShadow (↑(14 : PairIx) : Nat)) =
          0) ∧
    (pwmShort.lacks ((↑(14 : PairIx) : Nat) / 12) = false ∧
      pwmShort.pwOwn (↑(14 : PairIx) : Nat) = true ∧
        pwmShort.pwCheck (↑(14 : PairIx) : Nat) [(↑(14 : PairIx) : Nat)]
              (pwmShort.pwShadow (↑(14 : PairIx) : Nat)) =
            1 ∧
          1 ≠ 0) ∧
    (pwmUsed.lacks ((↑(191 : PairIx) : Nat) / 12) = false ∧ pwmUsed.pwOwn (↑(191 : PairIx) : Nat) = false) ∧
    (pwmUsed.lacks (↑(1 : RegionIx) : Nat) = false ∧
      BitVec.getLsbD (4 : BitVec 12) (↑(2 : Fin 12) : Nat) = true ∧
        pwmUsed.pwOwn ((↑(1 : RegionIx) : Nat) * 12 + (↑(2 : Fin 12) : Nat)) = true ∧
          pwmUsed.pwCheck ((↑(1 : RegionIx) : Nat) * 12 + (↑(2 : Fin 12) : Nat))
              (List.map (fun i => (↑(1 : RegionIx) : Nat) * 12 + i)
                (List.filter (fun i => (BitVec.toNat (4 : BitVec 12)).testBit i) (List.range 12)))
              (pwmUsed.pwShadow ((↑(1 : RegionIx) : Nat) * 12 + (↑(2 : Fin 12) : Nat))) =
            0) ∧
    (pwmPend.pwOwn (↑(14 : PairIx) : Nat) = true ∧
      pwmPend.dieRuns ((↑(14 : PairIx) : Nat) / 48) = true ∧
        (pwmPend.pairX (↑(14 : PairIx) : Nat)).pend =
            some { per := 4096, duty := 1, toff := 2, phase := 3 : PwmSet } ∧
          (pwmPend.pairX (↑(14 : PairIx) : Nat)).pendAt ≠ tagOf (pwmPend.now 250) ∧
            { per := 4096, duty := 1, toff := 2, phase := 3 : PwmSet }.per ≠
                0 ∧
              (false = false →
                  (pwmPend.pwStartAt (↑(14 : PairIx) : Nat) (pwmPend.now 250)).isSome = true ∧
                    (pwmPend.fld (R.PW_CFG (↑(14 : PairIx) : Nat)) F.PW_CFG_MODE ≠ 1 ∨
                      pwmPend.fld (R.PW_CFG (↑(14 : PairIx) : Nat)) F.PW_CFG_RELOAD ≠ 1 ∨
                        (pwmPend.pairX (↑(14 : PairIx) : Nat)).cur.per = 0)) ∧
                (false = true →
                  pwmPend.pwMiddle (↑(14 : PairIx) : Nat) (pwmPend.now 250) = true ∧
                    pwmPend.fld (R.PW_CFG (↑(14 : PairIx) : Nat)) F.PW_CFG_RELOAD ≠ 0)) ∧
    (pwmMid.pwOwn (↑(14 : PairIx) : Nat) = true ∧
      pwmMid.dieRuns ((↑(14 : PairIx) : Nat) / 48) = true ∧
        (pwmMid.pairX (↑(14 : PairIx) : Nat)).pend =
            some { per := 4096, duty := 1, toff := 2, phase := 3 : PwmSet } ∧
          (pwmMid.pairX (↑(14 : PairIx) : Nat)).pendAt ≠ tagOf (pwmMid.now 250) ∧
            { per := 4096, duty := 1, toff := 2, phase := 3 : PwmSet }.per ≠
                0 ∧
              (true = false →
                  (pwmMid.pwStartAt (↑(14 : PairIx) : Nat) (pwmMid.now 250)).isSome = true ∧
                    (pwmMid.fld (R.PW_CFG (↑(14 : PairIx) : Nat)) F.PW_CFG_MODE ≠ 1 ∨
                      pwmMid.fld (R.PW_CFG (↑(14 : PairIx) : Nat)) F.PW_CFG_RELOAD ≠ 1 ∨
                        (pwmMid.pairX (↑(14 : PairIx) : Nat)).cur.per = 0)) ∧
                (true = true →
                  pwmMid.pwMiddle (↑(14 : PairIx) : Nat) (pwmMid.now 250) = true ∧
                    pwmMid.fld (R.PW_CFG (↑(14 : PairIx) : Nat)) F.PW_CFG_RELOAD ≠ 0)) ∧
    (pwmTwo.pwOwn (↑(14 : PairIx) : Nat) = true ∧
      pwmTwo.dieRuns ((↑(14 : PairIx) : Nat) / 48) = true ∧
        (pwmTwo.pairX (↑(14 : PairIx) : Nat)).pend =
            some { per := 4096, duty := 1, toff := 2, phase := 3 : PwmSet } ∧
          (pwmTwo.pairX (↑(14 : PairIx) : Nat)).pendAt = tagOf (pwmTwo.now 250) ∧
            (pwmTwo.pairX (↑(14 : PairIx) : Nat)).earlier =
                some { per := 2048, duty := 4, toff := 5, phase := 6 : PwmSet } ∧
              { per := 2048, duty := 4, toff := 5, phase := 6 : PwmSet }.per ≠
                  0 ∧
                (pwmTwo.pwStartAt (↑(14 : PairIx) : Nat) (pwmTwo.now 250)).isSome = true ∧
                  (pwmTwo.fld (R.PW_CFG (↑(14 : PairIx) : Nat)) F.PW_CFG_MODE ≠ 1 ∨
                    pwmTwo.fld (R.PW_CFG (↑(14 : PairIx) : Nat)) F.PW_CFG_RELOAD ≠ 1 ∨
                      (pwmTwo.pairX (↑(14 : PairIx) : Nat)).cur.per = 0)) ∧
    (pwmRuns.pwStartAt (↑(14 : PairIx) : Nat) (pwmRuns.now 100) = none) ∧
    (pwmRuns.pwMiddle (↑(14 : PairIx) : Nat) (pwmRuns.now 100) = false) := by
  refine ⟨?_, ?_, ?_, ?_, ?_, ?_, ?_, ?_, ?_⟩ <;> decide +kernel

/-- States and operands that meet the hypotheses of the clauses of `Obligations.PwmTransitionsNeverShortTheBridge`. -/
theorem witness_PwmTransitionsNeverShortTheBridge :
    (pwmHigh.bit (R.PW_CFG (↑(14 : PairIx) : Nat)) F.PW_CFG_USED = true ∧
      pwmHigh.dieRuns ((↑(14 : PairIx) : Nat) / 48) = true ∧
        pwmHigh.pwPinned (↑(14 : PairIx) : Nat) = false ∧
          pwmHigh.pwDue (↑(14 : PairIx) : Nat) 40 false = true ∧
            (pwmHigh.pairX (↑(14 : PairIx) : Nat)).has false = false) ∧
    (pwmLow.bit (R.PW_CFG (↑(14 : PairIx) : Nat)) F.PW_CFG_USED = true ∧
      pwmLow.dieRuns ((↑(14 : PairIx) : Nat) / 48) = true ∧
        pwmLow.pwPinned (↑(14 : PairIx) : Nat) = false ∧
          pwmLow.pwDue (↑(14 : PairIx) : Nat) 30 true = true ∧
            (pwmLow.pairX (↑(14 : PairIx) : Nat)).has true = false) ∧
    (pwmCft.bit (R.PW_CFG (↑(14 : PairIx) : Nat)) F.PW_CFG_USED = true ∧
      pwmCft.dieRuns ((↑(14 : PairIx) : Nat) / 48) = true ∧
        pwmCft.bit (R.PW_STAT (↑(14 : PairIx) : Nat)) F.PW_STAT_STEPPER = false ∧
          pwmCft.pairAxis (↑(14 : PairIx) : Nat) = none ∧
            pwmCft.pwPinned (↑(14 : PairIx) : Nat) = false ∧
              pwmCft.fld (R.PW_CFG (↑(14 : PairIx) : Nat)) F.PW_CFG_MODE = 3 ∧
                pwmCft.bit (R.PW_CFG (↑(14 : PairIx) : Nat)) F.PW_CFG_TERM_EN = true ∧
                  pwmCft.bit (R.SD_STAT (↑(14 : PairIx) : Nat)) F.SD_STAT_CMP_HI = true ∧
                    (pwmCft.pairX (↑(14 : PairIx) : Nat)).rise.isSome = true ∧
                      35 ≤ (pwmCft.pairX (↑(14 : PairIx) : Nat)).fall.getD 0 ∧
                        pwmCft.fld (R.PW_PWMIN (↑(14 : PairIx) : Nat)) F.PW_PWMIN_TICKS +
                              pwmCft.fld (R.PW_DT_RISE (↑(14 : PairIx) : Nat)) F.PW_DT_RISE_TICKS ≤
                            35 ∧
                          (pwmCft.pairX (↑(14 : PairIx) : Nat)).has false = false) ∧
    (((pwmWait true).pairX (↑(14 : PairIx) : Nat)).wait = some true ∧
      (pwmWait true).pwPinned (↑(14 : PairIx) : Nat) = false) ∧
    (((pwmWait false).pairX (↑(14 : PairIx) : Nat)).wait = some false ∧
      (pwmWait false).pwPinned (↑(14 : PairIx) : Nat) = false) ∧
    ((pwmPinned.pairX (↑(14 : PairIx) : Nat)).wait = some true ∧ pwmPinned.pwPinned (↑(14 : PairIx) : Nat) = true) ∧
    ((Instr.commandedTransition (14 : PairIx) 30 true false =
          Instr.commandedTransition (14 : PairIx) 30 true false ∨
        Instr.commandedTransition (14 : PairIx) 30 true false =
            Instr.swnEdge (14 : PairIx) 30 true ∨
          Instr.commandedTransition (14 : PairIx) 30 true false = Instr.dtMaxExpiry (14 : PairIx) true) ∧
      ¬((pwmLow.pairX (↑(14 : PairIx) : Nat)).hi = true ∧ (pwmLow.pairX (↑(14 : PairIx) : Nat)).lo = true) ∧
        ((pwmLow.pairX (↑(14 : PairIx) : Nat)).wait = some true →
            (pwmLow.pairX (↑(14 : PairIx) : Nat)).lo = false) ∧
          ((pwmLow.pairX (↑(14 : PairIx) : Nat)).wait = some false →
            (pwmLow.pairX (↑(14 : PairIx) : Nat)).hi = false)) ∧
    ((Instr.dtMaxExpiry (14 : PairIx) true = Instr.commandedTransition (14 : PairIx) 30 true false ∨
        Instr.dtMaxExpiry (14 : PairIx) true = Instr.swnEdge (14 : PairIx) 30 true ∨
          Instr.dtMaxExpiry (14 : PairIx) true = Instr.dtMaxExpiry (14 : PairIx) true) ∧
      ¬(((pwmWait true).pairX (↑(14 : PairIx) : Nat)).hi = true ∧
            ((pwmWait true).pairX (↑(14 : PairIx) : Nat)).lo = true) ∧
        (((pwmWait true).pairX (↑(14 : PairIx) : Nat)).wait = some true →
            ((pwmWait true).pairX (↑(14 : PairIx) : Nat)).lo = false) ∧
          (((pwmWait true).pairX (↑(14 : PairIx) : Nat)).wait = some false →
            ((pwmWait true).pairX (↑(14 : PairIx) : Nat)).hi = false)) := by
  refine ⟨?_, ?_, ?_, ?_, ?_, ?_, ?_, ?_⟩ <;> decide +kernel

/-- States and operands that meet the hypotheses of the clauses of `Obligations.SdiOutputsAndComparators`. -/
theorem witness_SdiOutputsAndComparators :
    (sdiMain.sdiRuns (↑(20 : PairIx) : Nat) = true ∧ 2 ≤ (sdiMain.sdiX (↑(20 : PairIx) : Nat)).nMain) ∧
    (sdiUsed.sdiRuns (↑(20 : PairIx) : Nat) = true ∧ (sdiUsed.sdiX (↑(20 : PairIx) : Nat)).nMain < 2) ∧
    (sdiUsed.sdiRuns (↑(20 : PairIx) : Nat) = true) ∧
    (sdiUsed.sdiRuns (↑(20 : PairIx) : Nat) = true ∧ (sdiUsed.sdiX (↑(20 : PairIx) : Nat)).held = false) ∧
    ((running 2).dieState ((↑(47 : Fin 48) : Nat) / 12) = 0 ∧
      (running 2).tripN (↑(47 : Fin 48) : Nat) ≤ 1 ∧
        ((running 2).fld (R.PW_TRIP_STAT ((↑(47 : Fin 48) : Nat) / 3))
                  F.PW_TRIP_STAT_RAW).testBit
              ((↑(47 : Fin 48) : Nat) % 3) ≠
            true ∧
          ((running 2).fld (R.PW_TRIP_STAT ((↑(47 : Fin 48) : Nat) / 3))
                  F.PW_TRIP_STAT_FILT).testBit
              ((↑(47 : Fin 48) : Nat) % 3) ≠
            true) ∧
    (tripLong.dieState ((↑(47 : Fin 48) : Nat) / 12) = 0 ∧
      0 < 2 ∧
        2 < tripLong.tripN (↑(47 : Fin 48) : Nat) ∧
          (tripLong.fld (R.PW_TRIP_STAT ((↑(47 : Fin 48) : Nat) / 3)) F.PW_TRIP_STAT_RAW).testBit
              ((↑(47 : Fin 48) : Nat) % 3) ≠
            true) ∧
    (sdiFault.dieRuns ((↑(5 : Fin 48) : Nat) / 12) = true ∧
      sdiFault.bit (R.SD_STAT (4 * (↑(5 : Fin 48) : Nat) + (↑(0 : Fin 4) : Nat)))
          F.SD_STAT_CLK_FAULT =
        true) := by
  refine ⟨?_, ?_, ?_, ?_, ?_, ?_, ?_⟩ <;> decide +kernel

/-- States and operands that meet the hypotheses of the clauses of `Obligations.DelayLineCalibration`. -/
theorem witness_DelayLineCalibration :
    ((running 2).dieRuns ((↑(15 : RegionIx) : Nat) / 4) = true ∧
      ((running 2).dlX (↑(15 : RegionIx) : Nat)).stopped = false ∧
        ((running 2).dlX (↑(15 : RegionIx) : Nat)).ready = false ∧
          32 ≤ 32 ∧ 32 ≤ 63 ∧ dlRising 32 = true) ∧
    ((running 2).dieRuns ((↑(15 : RegionIx) : Nat) / 4) = true ∧
      ((running 2).dlX (↑(15 : RegionIx) : Nat)).stopped = false ∧
        ((running 2).dlX (↑(15 : RegionIx) : Nat)).ready = false ∧
          32 ≤ 63 ∧ 63 ≤ 63 ∧ dlRising 63 = true) ∧
    ((running 2).dieRuns ((↑(15 : RegionIx) : Nat) / 4) = true ∧
      ((running 2).dlX (↑(15 : RegionIx) : Nat)).stopped = false ∧
        ((running 2).dlX (↑(15 : RegionIx) : Nat)).ready = false ∧
          (31 < 32 ∨ 63 < 31 ∨ dlRising 31 = false)) ∧
    ((running 2).dieRuns ((↑(15 : RegionIx) : Nat) / 4) = true ∧
      ((running 2).dlX (↑(15 : RegionIx) : Nat)).stopped = false ∧
        ((running 2).dlX (↑(15 : RegionIx) : Nat)).ready = false ∧
          (64 < 32 ∨ 63 < 64 ∨ dlRising 64 = false)) ∧
    ((dlStopped.dlX (↑(0 : RegionIx) : Nat)).stopped = true ∨ (dlStopped.dlX (↑(0 : RegionIx) : Nat)).ready = true) := by
  refine ⟨?_, ?_, ?_, ?_, ?_⟩ <;> decide +kernel

/-- States and operands that meet the hypotheses of the clauses of `Obligations.DieFenceCommands`. -/
theorem witness_DieFenceCommands :
    (Instr.linkHung (3 : DieIx) ∈
        [Instr.linkHung (3 : DieIx), Instr.dieSupplyFault (3 : DieIx), Instr.dieOvertemp (3 : DieIx),
          Instr.dieFence (3 : DieIx)] ∧
      (running 2).dieState (↑(3 : DieIx) : Nat) = 0) ∧
    (Instr.dieFence (3 : DieIx) ∈
        [Instr.linkHung (3 : DieIx), Instr.dieSupplyFault (3 : DieIx), Instr.dieOvertemp (3 : DieIx),
          Instr.dieFence (3 : DieIx)] ∧
      (running 2).dieState (↑(3 : DieIx) : Nat) = 0) ∧
    (Instr.dieSupplyFault (3 : DieIx) ∈
        [Instr.linkHung (3 : DieIx), Instr.dieSupplyFault (3 : DieIx), Instr.dieOvertemp (3 : DieIx),
          Instr.dieFence (3 : DieIx)] ∧
      (dieGone.dieState (↑(3 : DieIx) : Nat) = 1 ∨ dieGone.dieState (↑(3 : DieIx) : Nat) = 2)) ∧
    (Instr.dieOvertemp (2 : DieIx) ∈
        [Instr.linkHung (2 : DieIx), Instr.dieSupplyFault (2 : DieIx), Instr.dieOvertemp (2 : DieIx),
          Instr.dieFence (2 : DieIx)] ∧
      (dieAbsent.dieState (↑(2 : DieIx) : Nat) = 1 ∨ dieAbsent.dieState (↑(2 : DieIx) : Nat) = 2)) := by
  refine ⟨?_, ?_, ?_, ?_⟩ <;> decide +kernel

/-- States and operands that meet the hypotheses of the clauses of `Obligations.ClockAndPortFaults`. -/
theorem witness_ClockAndPortFaults :
    (Domain.hub ∈ [Domain.hub, Domain.mem, Domain.mgmt]) ∧
    (Domain.mgmt ∈ [Domain.hub, Domain.mem, Domain.mgmt]) ∧
    ((running 1).dieRuns ((↑(47 : Fin 48) : Nat) / 12) = true) ∧
    ((Domain.core (3 : DieIx) = Domain.core (3 : DieIx) ∨ Domain.core (3 : DieIx) = Domain.pwm (3 : DieIx)) ∧
      (running 1).dieState (↑(3 : DieIx) : Nat) = 0) ∧
    ((Domain.pwm (0 : DieIx) = Domain.core (0 : DieIx) ∨ Domain.pwm (0 : DieIx) = Domain.pwm (0 : DieIx)) ∧
      (running 1).dieState (↑(0 : DieIx) : Nat) = 0) ∧
    ((running 1).dieState ((↑(15 : RegionIx) : Nat) / 4) = 0 ∧
      (running 1).bit (R.CE_STAT (↑(15 : RegionIx) : Nat)) F.CE_STAT_FENCED = false) := by
  refine ⟨?_, ?_, ?_, ?_, ?_, ?_⟩ <;> decide +kernel

/-- States and operands that meet the hypotheses of the clauses of `Obligations.TermsFollowTheirSources`. -/
theorem witness_TermsFollowTheirSources :
    (40 ∈ (termIs 2 32768 1).hgTerms) ∧
    (40 ∈ (termIs 2 0 1).hgTerms) ∧
    (40 ∈ (termIs 2 32768 1).hgTerms ∧
      (termIs 2 32768 1).hgTrue 40 = false ∧
        (termIs 2 32768 1).hgRaw 40 = true ∧
          { kind := 1, bit := 0, index := 14 : HgTgt } ∈
              (termIs 2 32768 1).hgTargets 40 ∧
            { kind := 1, bit := 0, index := 14 : HgTgt }.kind = 1 ∧
              ¬{ kind := 1, bit := 0, index := 14 : HgTgt } ∈
                    (termIs 2 32768 1).hgAllTargets
                      (termIs 2 32768 1).hgTrues ∧
                (termIs 2 32768 1).bit
                      (R.PW_CFG { kind := 1, bit := 0, index := 14 : HgTgt }.index)
                      F.PW_CFG_USED =
                    true ∧
                  { kind := 1, bit := 0, index := 14 : HgTgt }.index < 192) := by
  refine ⟨?_, ?_, ?_⟩ <;> decide +kernel

/-- States and operands that meet the hypotheses of the clauses of `Obligations.HedgerowResetsAndPatch`. -/
theorem witness_HedgerowResetsAndPatch :
    (termTrue.bit (R.HG_TERM (↑(40 : TermIx) : Nat) 0) { lsb := 0, len := 1 : Fld } =
        true ∧
      termTrue.bit (R.HG_TERM (↑(40 : TermIx) : Nat) 0) { lsb := 2, len := 1 : Fld } =
          true ∧
        termTrue.hgRaw (↑(40 : TermIx) : Nat) = false) ∧
    ((termIs 2 0 1).hgRaw (↑(40 : TermIx) : Nat) = true ∨
      (termIs 2 0 1).hgTrue (↑(40 : TermIx) : Nat) = false ∨
        (termIs 2 0 1).bit (R.HG_TERM (↑(40 : TermIx) : Nat) 0)
            { lsb := 2, len := 1 : Fld } =
          false) ∧
    ((running 2).hgRaw (↑(2047 : TermIx) : Nat) = true ∨
      (running 2).hgTrue (↑(2047 : TermIx) : Nat) = false ∨
        (running 2).bit (R.HG_TERM (↑(2047 : TermIx) : Nat) 0)
            { lsb := 2, len := 1 : Fld } =
          false) ∧
    ((patchOf 2 5 1).mode ≠ 1 ∧
      (patchOf 2 5 1).fld R.HG_PATCH_CTRL F.HG_PATCH_CTRL_COUNT ≤ 64 ∧
        (patchOf 2 5 1).patchBuf = [((4 : Word), (5 : Word), (0 : Word), (1 : Word))]) ∧
    ((running 2).fld R.HG_PATCH_CTRL F.HG_PATCH_CTRL_COUNT = 0 ∨
      64 < (running 2).fld R.HG_PATCH_CTRL F.HG_PATCH_CTRL_COUNT) ∧
    ((patchOf 1 65535 77).mode = 1 ∧
      (patchOf 1 65535 77).rd (R.WORD_FALLOW (↑(65535 : Fin 65536) : Nat)) =
          (0 : Word) ∧
        (patchOf 1 65535 77).hgPlaced = true ∧
          (patchOf 1 65535 77).patchBuf =
            [((4 : Word), Word.ofN (↑(65535 : Fin 65536) : Nat), (0 : Word), (77 : Word))]) ∧
    ((patchOf 1 0 77).mode = 1 ∧
      (patchOf 1 0 77).rd (R.WORD_FALLOW (↑(0 : Fin 65536) : Nat)) = (0 : Word) ∧
        (patchOf 1 0 77).hgPlaced = true ∧
          (patchOf 1 0 77).patchBuf =
            [((4 : Word), Word.ofN (↑(0 : Fin 65536) : Nat), (0 : Word), (77 : Word))]) := by
  refine ⟨?_, ?_, ?_, ?_, ?_, ?_, ?_⟩ <;> decide +kernel

/-- States and operands that meet the hypotheses of the clauses of `Obligations.CaptureEngineCommands`. -/
theorem witness_CaptureEngineCommands :
    (((running 2).sets [(R.CE_STAT 15, F.CE_STAT_STATE, 5)]).lacks
          (↑(15 : RegionIx) : Nat) =
        false ∧
      ((running 2).sets [(R.CE_STAT 15, F.CE_STAT_STATE, 5)]).ceState
            (↑(15 : RegionIx) : Nat) =
          5 ∧
        (5 = 0 ∨ 5 = 5) ∧
          (((running 2).sets [(R.CE_STAT 15, F.CE_STAT_STATE, 5)]).ceX
                  (↑(15 : RegionIx) : Nat)).arm =
              false ∧
            ((running 2).sets [(R.CE_STAT 15, F.CE_STAT_STATE, 5)]).bit
                  (R.CE_STAT (↑(15 : RegionIx) : Nat)) F.CE_STAT_FENCED =
                false ∧
              ((running 2).sets [(R.CE_STAT 15, F.CE_STAT_STATE, 5)]).dieState
                    ((↑(15 : RegionIx) : Nat) / 4) =
                  0 ∧
                ((running 2).sets [(R.CE_STAT 15, F.CE_STAT_STATE, 5)]).ceBad
                    (↑(15 : RegionIx) : Nat) =
                  true) ∧
    ((ceSet 5).lacks (↑(2 : RegionIx) : Nat) = false ∧
      (ceSet 5).ceState (↑(2 : RegionIx) : Nat) = 5 ∧
        (5 = 0 ∨ 5 = 5) ∧
          ((ceSet 5).ceX (↑(2 : RegionIx) : Nat)).arm = false ∧
            (ceSet 5).bit (R.CE_STAT (↑(2 : RegionIx) : Nat)) F.CE_STAT_FENCED = false ∧
              (ceSet 5).dieState ((↑(2 : RegionIx) : Nat) / 4) = 0 ∧
                (ceSet 5).ceBad (↑(2 : RegionIx) : Nat) = false ∧
                  (ceSet 5).poolAsk (↑(2 : RegionIx) : Nat)
                      ((ceSet 5).fld (R.CE_PRE (↑(2 : RegionIx) : Nat)) F.CE_PRE_ROWS)
                      (BitVec.toNat ((ceSet 5).rd (R.CE_POST (↑(2 : RegionIx) : Nat))))
                      (4 + 4 * (ceSet 5).ceProbes (↑(2 : RegionIx) : Nat)) =
                    none) ∧
    ((cePool 0 2).lacks (↑(2 : RegionIx) : Nat) = false ∧
      (cePool 0 2).ceState (↑(2 : RegionIx) : Nat) = 0 ∧
        (0 = 0 ∨ 0 = 5) ∧
          ((cePool 0 2).ceX (↑(2 : RegionIx) : Nat)).arm = false ∧
            (cePool 0 2).bit (R.CE_STAT (↑(2 : RegionIx) : Nat)) F.CE_STAT_FENCED = false ∧
              (cePool 0 2).dieState ((↑(2 : RegionIx) : Nat) / 4) = 0 ∧
                (cePool 0 2).ceBad (↑(2 : RegionIx) : Nat) = false ∧
                  (cePool 0 2).poolAsk (↑(2 : RegionIx) : Nat)
                      ((cePool 0 2).fld (R.CE_PRE (↑(2 : RegionIx) : Nat)) F.CE_PRE_ROWS)
                      (BitVec.toNat ((cePool 0 2).rd (R.CE_POST (↑(2 : RegionIx) : Nat))))
                      (4 + 4 * (cePool 0 2).ceProbes (↑(2 : RegionIx) : Nat)) =
                    some (false, 256)) ∧
    (((cePool 5 2).sets [(R.CE_POST 2, word, 300000)]).lacks
          (↑(2 : RegionIx) : Nat) =
        false ∧
      ((cePool 5 2).sets [(R.CE_POST 2, word, 300000)]).ceState
            (↑(2 : RegionIx) : Nat) =
          5 ∧
        (5 = 0 ∨ 5 = 5) ∧
          (((cePool 5 2).sets [(R.CE_POST 2, word, 300000)]).ceX
                  (↑(2 : RegionIx) : Nat)).arm =
              false ∧
            ((cePool 5 2).sets [(R.CE_POST 2, word, 300000)]).bit
                  (R.CE_STAT (↑(2 : RegionIx) : Nat)) F.CE_STAT_FENCED =
                false ∧
              ((cePool 5 2).sets [(R.CE_POST 2, word, 300000)]).dieState
                    ((↑(2 : RegionIx) : Nat) / 4) =
                  0 ∧
                ((cePool 5 2).sets [(R.CE_POST 2, word, 300000)]).ceBad
                      (↑(2 : RegionIx) : Nat) =
                    false ∧
                  ((cePool 5 2).sets [(R.CE_POST 2, word, 300000)]).poolAsk
                      (↑(2 : RegionIx) : Nat)
                      (((cePool 5 2).sets [(R.CE_POST 2, word, 300000)]).fld
                        (R.CE_PRE (↑(2 : RegionIx) : Nat)) F.CE_PRE_ROWS)
                      (BitVec.toNat
                        (((cePool 5 2).sets [(R.CE_POST 2, word, 300000)]).rd
                          (R.CE_POST (↑(2 : RegionIx) : Nat))))
                      (4 +
                        4 *
                          ((cePool 5 2).sets
                                [(R.CE_POST 2, word, 300000)]).ceProbes
                            (↑(2 : RegionIx) : Nat)) =
                    some (true, bigResv)) ∧
    ((ceSet 1).lacks (↑(2 : RegionIx) : Nat) = false ∧
      ((ceSet 1).ceState (↑(2 : RegionIx) : Nat) ≠ 0 ∧
          (ceSet 1).ceState (↑(2 : RegionIx) : Nat) ≠ 5 ∨
        ((ceSet 1).ceX (↑(2 : RegionIx) : Nat)).arm = true ∨
          (ceSet 1).bit (R.CE_STAT (↑(2 : RegionIx) : Nat)) F.CE_STAT_FENCED = true ∨
            (ceSet 1).dieState ((↑(2 : RegionIx) : Nat) / 4) ≠ 0)) ∧
    ((ceSet 4).lacks (↑(2 : RegionIx) : Nat) = false ∧
      ((ceSet 4).ceState (↑(2 : RegionIx) : Nat) ≠ 0 ∧
          (ceSet 4).ceState (↑(2 : RegionIx) : Nat) ≠ 5 ∨
        ((ceSet 4).ceX (↑(2 : RegionIx) : Nat)).arm = true ∨
          (ceSet 4).bit (R.CE_STAT (↑(2 : RegionIx) : Nat)) F.CE_STAT_FENCED = true ∨
            (ceSet 4).dieState ((↑(2 : RegionIx) : Nat) / 4) ≠ 0)) ∧
    ((ceGoes 1 [] none).lacks (↑(2 : RegionIx) : Nat) = false) ∧
    ((ceGoes 1 [] none).lacks (↑(2 : RegionIx) : Nat) = false ∧
      ((ceGoes 1 [] none).ceState (↑(2 : RegionIx) : Nat) = 1 ∨
          (ceGoes 1 [] none).ceState (↑(2 : RegionIx) : Nat) = 2) ∧
        ((ceGoes 1 [] none).ceX (↑(2 : RegionIx) : Nat)).win = some (ceWin [] none) ∧
          ((ceGoes 1 [] none).ceX (↑(2 : RegionIx) : Nat)).hoEnd ≤
            (ceGoes 1 [] none).now 5) ∧
    ((ceGoes 2 ceRows none).lacks (↑(2 : RegionIx) : Nat) = false ∧
      ((ceGoes 2 ceRows none).ceState (↑(2 : RegionIx) : Nat) = 1 ∨
          (ceGoes 2 ceRows none).ceState (↑(2 : RegionIx) : Nat) = 2) ∧
        ((ceGoes 2 ceRows none).ceX (↑(2 : RegionIx) : Nat)).win = some (ceWin ceRows none) ∧
          ((ceGoes 2 ceRows none).ceX (↑(2 : RegionIx) : Nat)).hoEnd ≤
            (ceGoes 2 ceRows none).now 5) ∧
    ((ceGoes 3 ceRows (some (50, 1))).lacks (↑(2 : RegionIx) : Nat) = false ∧
      (((ceGoes 3 ceRows (some (50, 1))).ceState (↑(2 : RegionIx) : Nat) = 3 ∧
          ∀ (w : Win),
            w ∈ ((ceGoes 3 ceRows (some (50, 1))).ceX (↑(2 : RegionIx) : Nat)).win →
              w.inRow ((ceGoes 3 ceRows (some (50, 1))).now 500) = false) ∨
        (ceGoes 3 ceRows (some (50, 1))).ceState (↑(2 : RegionIx) : Nat) = 4 ∨
          (ceGoes 3 ceRows (some (50, 1))).ceState (↑(2 : RegionIx) : Nat) ≠ 3 ∧
            (ceGoes 3 ceRows (some (50, 1))).now 500 <
              ((ceGoes 3 ceRows (some (50, 1))).ceX (↑(2 : RegionIx) : Nat)).hoEnd)) ∧
    ((ceGoes 4 ceRows none).lacks (↑(2 : RegionIx) : Nat) = false ∧
      (((ceGoes 4 ceRows none).ceState (↑(2 : RegionIx) : Nat) = 3 ∧
          ∀ (w : Win),
            w ∈ ((ceGoes 4 ceRows none).ceX (↑(2 : RegionIx) : Nat)).win →
              w.inRow ((ceGoes 4 ceRows none).now 5) = false) ∨
        (ceGoes 4 ceRows none).ceState (↑(2 : RegionIx) : Nat) = 4 ∨
          (ceGoes 4 ceRows none).ceState (↑(2 : RegionIx) : Nat) ≠ 3 ∧
            (ceGoes 4 ceRows none).now 5 <
              ((ceGoes 4 ceRows none).ceX (↑(2 : RegionIx) : Nat)).hoEnd)) ∧
    (ceLate.lacks (↑(2 : RegionIx) : Nat) = false ∧
      ((ceLate.ceState (↑(2 : RegionIx) : Nat) = 3 ∧
          ∀ (w : Win), w ∈ (ceLate.ceX (↑(2 : RegionIx) : Nat)).win → w.inRow (ceLate.now 5) = false) ∨
        ceLate.ceState (↑(2 : RegionIx) : Nat) = 4 ∨
          ceLate.ceState (↑(2 : RegionIx) : Nat) ≠ 3 ∧
            ceLate.now 5 < (ceLate.ceX (↑(2 : RegionIx) : Nat)).hoEnd)) ∧
    ((ceGoes 3 ceRows (some (50, 1))).lacks (↑(2 : RegionIx) : Nat) = false ∧
      (ceGoes 3 ceRows (some (50, 1))).ceState (↑(2 : RegionIx) : Nat) = 3 ∧
        ((ceGoes 3 ceRows (some (50, 1))).ceX (↑(2 : RegionIx) : Nat)).win =
            some (ceWin ceRows (some (50, 1))) ∧
          (ceWin ceRows (some (50, 1))).inRow
              ((ceGoes 3 ceRows (some (50, 1))).now 80) =
            true) ∧
    ((ceSet 0).lacks (↑(2 : RegionIx) : Nat) = false ∧
      (ceSet 0).ceState (↑(2 : RegionIx) : Nat) ≠ 1 ∧
        (ceSet 0).ceState (↑(2 : RegionIx) : Nat) ≠ 2 ∧
          (ceSet 0).ceState (↑(2 : RegionIx) : Nat) ≠ 3 ∧
            (ceSet 0).ceState (↑(2 : RegionIx) : Nat) ≠ 4 ∧
              ((ceSet 0).ceX (↑(2 : RegionIx) : Nat)).hoEnd ≤ (ceSet 0).now 5) ∧
    ((ceSet 5).lacks (↑(2 : RegionIx) : Nat) = false ∧
      (ceSet 5).ceState (↑(2 : RegionIx) : Nat) ≠ 1 ∧
        (ceSet 5).ceState (↑(2 : RegionIx) : Nat) ≠ 2 ∧
          (ceSet 5).ceState (↑(2 : RegionIx) : Nat) ≠ 3 ∧
            (ceSet 5).ceState (↑(2 : RegionIx) : Nat) ≠ 4 ∧
              ((ceSet 5).ceX (↑(2 : RegionIx) : Nat)).hoEnd ≤ (ceSet 5).now 5) := by
  refine ⟨?_, ?_, ?_, ?_, ?_, ?_, ?_, ?_, ?_, ?_, ?_, ?_, ?_, ?_, ?_⟩ <;> decide +kernel

/-- States and operands that meet the hypotheses of the clauses of `Obligations.CaptureRows`. -/
theorem witness_CaptureRows :
    ((ceGoes 1 ceRows none).fld (R.CE_CFG (↑(2 : RegionIx) : Nat)) F.CE_CFG_SYNC = 0 ∧
      (ceGoes 1 ceRows none).fld (R.CE_PERIOD (↑(2 : RegionIx) : Nat)) F.CE_PERIOD_NS = 10000 ∧
        10000 ≠ 0 ∧
          ((ceGoes 1 ceRows none).now 20000 + 10000 -
                  (ceGoes 1 ceRows none).fld (R.CE_PHASE (↑(2 : RegionIx) : Nat)) F.CE_PHASE_NS %
                    10000) %
                10000 =
              0 ∧
            ((ceGoes 1 ceRows none).ceX (↑(2 : RegionIx) : Nat)).arm = false ∧
              ((ceGoes 1 ceRows none).ceX (↑(2 : RegionIx) : Nat)).win = some (ceWin ceRows none) ∧
                (∀ (i : Nat × Nat),
                    i ∈ ((ceGoes 1 ceRows none).ceX (↑(2 : RegionIx) : Nat)).rels →
                      (ceGoes 1 ceRows none).now 20000 < i.fst ∨
                        i.snd < (ceGoes 1 ceRows none).now 20000) ∧
                  (ceGoes 1 ceRows none).bit (R.CE_STAT (↑(2 : RegionIx) : Nat)) F.CE_STAT_FENCED =
                      false ∧
                    (ceGoes 1 ceRows none).dieState ((↑(2 : RegionIx) : Nat) / 4) = 0 ∧
                      { t := 20000, vals := [(0 : Word)], spacer := false, step := false : Row } =
                          { t := (ceGoes 1 ceRows none).now 20000,
                            vals :=
                              List.map ((ceGoes 1 ceRows none).probeVal (↑(2 : RegionIx) : Nat))
                                (List.range ((ceGoes 1 ceRows none).ceProbes (↑(2 : RegionIx) : Nat))),
                            spacer := false, step := (ceWin ceRows none).stepPend : Row } ∧
                        ceRows ++
                              [{ t := 20000, vals := [(0 : Word)], spacer := false, step := false :
                                  Row }] =
                            (ceWin ceRows none).rows ++
                              [{ t := 20000, vals := [(0 : Word)], spacer := false, step := false :
                                  Row }] ∧
                          false =
                              (decide
                                  ((ceGoes 1 ceRows none).fld (R.CE_TRG (↑(2 : RegionIx) : Nat))
                                      F.CE_TRG_SRC =
                                    0) &&
                                (probeFire
                                    ((ceGoes 1 ceRows none).fld (R.CE_TRG (↑(2 : RegionIx) : Nat))
                                      F.CE_TRG_DIR)
                                    ((ceGoes 1 ceRows none).probeF32 (↑(2 : RegionIx) : Nat)
                                      ((ceGoes 1 ceRows none).fld (R.CE_TRG (↑(2 : RegionIx) : Nat))
                                        F.CE_TRG_INDEX))
                                    ((ceGoes 1 ceRows none).rd (R.CE_LEVEL (↑(2 : RegionIx) : Nat)))
                                    ((ceGoes 1 ceRows none).rd (R.CE_HYST (↑(2 : RegionIx) : Nat)))
                                    ((ceGoes 1 ceRows none).ceX (↑(2 : RegionIx) : Nat)).up
                                    ((ceGoes 1 ceRows none).ceX (↑(2 : RegionIx) : Nat)).dn).fst) ∧
                            ((ceGoes 1 ceRows none).ceState (↑(2 : RegionIx) : Nat) = 1 ∨
                                (ceGoes 1 ceRows none).ceState (↑(2 : RegionIx) : Nat) = 2) ∧
                              (ceWin ceRows none).trig = none ∧ false = false) ∧
    ((ceGoes 2 [] none).fld (R.CE_CFG (↑(2 : RegionIx) : Nat)) F.CE_CFG_SYNC = 0 ∧
      (ceGoes 2 [] none).fld (R.CE_PERIOD (↑(2 : RegionIx) : Nat)) F.CE_PERIOD_NS = 10000 ∧
        10000 ≠ 0 ∧
          ((ceGoes 2 [] none).now 20000 + 10000 -
                  (ceGoes 2 [] none).fld (R.CE_PHASE (↑(2 : RegionIx) : Nat)) F.CE_PHASE_NS %
                    10000) %
                10000 =
              0 ∧
            ((ceGoes 2 [] none).ceX (↑(2 : RegionIx) : Nat)).arm = false ∧
              ((ceGoes 2 [] none).ceX (↑(2 : RegionIx) : Nat)).win = some (ceWin [] none) ∧
                (∀ (i : Nat × Nat),
                    i ∈ ((ceGoes 2 [] none).ceX (↑(2 : RegionIx) : Nat)).rels →
                      (ceGoes 2 [] none).now 20000 < i.fst ∨
                        i.snd < (ceGoes 2 [] none).now 20000) ∧
                  (ceGoes 2 [] none).bit (R.CE_STAT (↑(2 : RegionIx) : Nat)) F.CE_STAT_FENCED = false ∧
                    (ceGoes 2 [] none).dieState ((↑(2 : RegionIx) : Nat) / 4) = 0 ∧
                      { t := 20000, vals := [(0 : Word)], spacer := false, step := false : Row } =
                          { t := (ceGoes 2 [] none).now 20000,
                            vals :=
                              List.map ((ceGoes 2 [] none).probeVal (↑(2 : RegionIx) : Nat))
                                (List.range ((ceGoes 2 [] none).ceProbes (↑(2 : RegionIx) : Nat))),
                            spacer := false, step := (ceWin [] none).stepPend : Row } ∧
                        [{ t := 20000, vals := [(0 : Word)], spacer := false, step := false : Row }] =
                            (ceWin [] none).rows ++
                              [{ t := 20000, vals := [(0 : Word)], spacer := false, step := false :
                                  Row }] ∧
                          false =
                              (decide
                                  ((ceGoes 2 [] none).fld (R.CE_TRG (↑(2 : RegionIx) : Nat))
                                      F.CE_TRG_SRC =
                                    0) &&
                                (probeFire
                                    ((ceGoes 2 [] none).fld (R.CE_TRG (↑(2 : RegionIx) : Nat))
                                      F.CE_TRG_DIR)
                                    ((ceGoes 2 [] none).probeF32 (↑(2 : RegionIx) : Nat)
                                      ((ceGoes 2 [] none).fld (R.CE_TRG (↑(2 : RegionIx) : Nat))
                                        F.CE_TRG_INDEX))
                                    ((ceGoes 2 [] none).rd (R.CE_LEVEL (↑(2 : RegionIx) : Nat)))
                                    ((ceGoes 2 [] none).rd (R.CE_HYST (↑(2 : RegionIx) : Nat)))
                                    ((ceGoes 2 [] none).ceX (↑(2 : RegionIx) : Nat)).up
                                    ((ceGoes 2 [] none).ceX (↑(2 : RegionIx) : Nat)).dn).fst) ∧
                            ((ceGoes 2 [] none).ceState (↑(2 : RegionIx) : Nat) = 1 ∨
                                (ceGoes 2 [] none).ceState (↑(2 : RegionIx) : Nat) = 2) ∧
                              (ceWin [] none).trig = none ∧ false = false) ∧
    ((ceGoes 3 ceRows (some (50, 1))).fld (R.CE_CFG (↑(2 : RegionIx) : Nat))
          F.CE_CFG_SYNC =
        0 ∧
      (ceGoes 3 ceRows (some (50, 1))).fld (R.CE_PERIOD (↑(2 : RegionIx) : Nat))
            F.CE_PERIOD_NS =
          10000 ∧
        10000 ≠ 0 ∧
          ((ceGoes 3 ceRows (some (50, 1))).now 20000 + 10000 -
                  (ceGoes 3 ceRows (some (50, 1))).fld
                      (R.CE_PHASE (↑(2 : RegionIx) : Nat)) F.CE_PHASE_NS %
                    10000) %
                10000 =
              0 ∧
            ((ceGoes 3 ceRows (some (50, 1))).ceX (↑(2 : RegionIx) : Nat)).arm = false ∧
              ((ceGoes 3 ceRows (some (50, 1))).ceX (↑(2 : RegionIx) : Nat)).win =
                  some (ceWin ceRows (some (50, 1))) ∧
                (∀ (i : Nat × Nat),
                    i ∈
                        ((ceGoes 3 ceRows (some (50, 1))).ceX
                            (↑(2 : RegionIx) : Nat)).rels →
                      (ceGoes 3 ceRows (some (50, 1))).now 20000 < i.fst ∨
                        i.snd < (ceGoes 3 ceRows (some (50, 1))).now 20000) ∧
                  (ceGoes 3 ceRows (some (50, 1))).bit (R.CE_STAT (↑(2 : RegionIx) : Nat))
                        F.CE_STAT_FENCED =
                      false ∧
                    (ceGoes 3 ceRows (some (50, 1))).dieState
                          ((↑(2 : RegionIx) : Nat) / 4) =
                        0 ∧
                      { t := 20000, vals := [(0 : Word)], spacer := false, step := false : Row } =
                          { t := (ceGoes 3 ceRows (some (50, 1))).now 20000,
                            vals :=
                              List.map
                                ((ceGoes 3 ceRows (some (50, 1))).probeVal
                                  (↑(2 : RegionIx) : Nat))
                                (List.range
                                  ((ceGoes 3 ceRows (some (50, 1))).ceProbes
                                    (↑(2 : RegionIx) : Nat))),
                            spacer := false, step := (ceWin ceRows (some (50, 1))).stepPend :
                            Row } ∧
                        ceRows ++
                              [{ t := 20000, vals := [(0 : Word)], spacer := false, step := false :
                                  Row }] =
                            (ceWin ceRows (some (50, 1))).rows ++
                              [{ t := 20000, vals := [(0 : Word)], spacer := false, step := false :
                                  Row }] ∧
                          false =
                              (decide
                                  ((ceGoes 3 ceRows (some (50, 1))).fld
                                      (R.CE_TRG (↑(2 : RegionIx) : Nat)) F.CE_TRG_SRC =
                                    0) &&
                                (probeFire
                                    ((ceGoes 3 ceRows (some (50, 1))).fld
                                      (R.CE_TRG (↑(2 : RegionIx) : Nat)) F.CE_TRG_DIR)
                                    ((ceGoes 3 ceRows (some (50, 1))).probeF32
                                      (↑(2 : RegionIx) : Nat)
                                      ((ceGoes 3 ceRows (some (50, 1))).fld
                                        (R.CE_TRG (↑(2 : RegionIx) : Nat)) F.CE_TRG_INDEX))
                                    ((ceGoes 3 ceRows (some (50, 1))).rd
                                      (R.CE_LEVEL (↑(2 : RegionIx) : Nat)))
                                    ((ceGoes 3 ceRows (some (50, 1))).rd
                                      (R.CE_HYST (↑(2 : RegionIx) : Nat)))
                                    ((ceGoes 3 ceRows (some (50, 1))).ceX
                                        (↑(2 : RegionIx) : Nat)).up
                                    ((ceGoes 3 ceRows (some (50, 1))).ceX
                                        (↑(2 : RegionIx) : Nat)).dn).fst) ∧
                            (ceGoes 3 ceRows (some (50, 1))).ceState
                                  (↑(2 : RegionIx) : Nat) =
                                3 ∧
                              (ceWin ceRows (some (50, 1))).trig.isSome = true ∧
                                (ceGoes 3 ceRows (some (50, 1))).winFull
                                    (ceWin ceRows (some (50, 1))) =
                                  false) ∧
    ((ceGoes 3 [] (some (50, 1))).fld (R.CE_CFG (↑(2 : RegionIx) : Nat)) F.CE_CFG_SYNC =
        0 ∧
      (ceGoes 3 [] (some (50, 1))).fld (R.CE_PERIOD (↑(2 : RegionIx) : Nat))
            F.CE_PERIOD_NS =
          10000 ∧
        10000 ≠ 0 ∧
          ((ceGoes 3 [] (some (50, 1))).now 20000 + 10000 -
                  (ceGoes 3 [] (some (50, 1))).fld (R.CE_PHASE (↑(2 : RegionIx) : Nat))
                      F.CE_PHASE_NS %
                    10000) %
                10000 =
              0 ∧
            ((ceGoes 3 [] (some (50, 1))).ceX (↑(2 : RegionIx) : Nat)).arm = false ∧
              ((ceGoes 3 [] (some (50, 1))).ceX (↑(2 : RegionIx) : Nat)).win =
                  some (ceWin [] (some (50, 1))) ∧
                (∀ (i : Nat × Nat),
                    i ∈ ((ceGoes 3 [] (some (50, 1))).ceX (↑(2 : RegionIx) : Nat)).rels →
                      (ceGoes 3 [] (some (50, 1))).now 20000 < i.fst ∨
                        i.snd < (ceGoes 3 [] (some (50, 1))).now 20000) ∧
                  (ceGoes 3 [] (some (50, 1))).bit (R.CE_STAT (↑(2 : RegionIx) : Nat))
                        F.CE_STAT_FENCED =
                      false ∧
                    (ceGoes 3 [] (some (50, 1))).dieState
                          ((↑(2 : RegionIx) : Nat) / 4) =
                        0 ∧
                      { t := 20000, vals := [(0 : Word)], spacer := false, step := false : Row } =
                          { t := (ceGoes 3 [] (some (50, 1))).now 20000,
                            vals :=
                              List.map
                                ((ceGoes 3 [] (some (50, 1))).probeVal
                                  (↑(2 : RegionIx) : Nat))
                                (List.range
                                  ((ceGoes 3 [] (some (50, 1))).ceProbes
                                    (↑(2 : RegionIx) : Nat))),
                            spacer := false, step := (ceWin [] (some (50, 1))).stepPend : Row } ∧
                        [{ t := 20000, vals := [(0 : Word)], spacer := false, step := false : Row }] =
                            (ceWin [] (some (50, 1))).rows ++
                              [{ t := 20000, vals := [(0 : Word)], spacer := false, step := false :
                                  Row }] ∧
                          false =
                              (decide
                                  ((ceGoes 3 [] (some (50, 1))).fld
                                      (R.CE_TRG (↑(2 : RegionIx) : Nat)) F.CE_TRG_SRC =
                                    0) &&
                                (probeFire
                                    ((ceGoes 3 [] (some (50, 1))).fld
                                      (R.CE_TRG (↑(2 : RegionIx) : Nat)) F.CE_TRG_DIR)
                                    ((ceGoes 3 [] (some (50, 1))).probeF32
                                      (↑(2 : RegionIx) : Nat)
                                      ((ceGoes 3 [] (some (50, 1))).fld
                                        (R.CE_TRG (↑(2 : RegionIx) : Nat)) F.CE_TRG_INDEX))
                                    ((ceGoes 3 [] (some (50, 1))).rd
                                      (R.CE_LEVEL (↑(2 : RegionIx) : Nat)))
                                    ((ceGoes 3 [] (some (50, 1))).rd
                                      (R.CE_HYST (↑(2 : RegionIx) : Nat)))
                                    ((ceGoes 3 [] (some (50, 1))).ceX
                                        (↑(2 : RegionIx) : Nat)).up
                                    ((ceGoes 3 [] (some (50, 1))).ceX
                                        (↑(2 : RegionIx) : Nat)).dn).fst) ∧
                            (ceGoes 3 [] (some (50, 1))).ceState (↑(2 : RegionIx) : Nat) =
                                3 ∧
                              (ceWin [] (some (50, 1))).trig.isSome = true ∧
                                (ceGoes 3 [] (some (50, 1))).winFull
                                    (ceWin [] (some (50, 1))) =
                                  false) ∧
    (ceProbeUp.fld (R.CE_CFG (↑(2 : RegionIx) : Nat)) F.CE_CFG_SYNC = 0 ∧
      ceProbeUp.fld (R.CE_PERIOD (↑(2 : RegionIx) : Nat)) F.CE_PERIOD_NS = 10000 ∧
        10000 ≠ 0 ∧
          (ceProbeUp.now 20000 + 10000 -
                  ceProbeUp.fld (R.CE_PHASE (↑(2 : RegionIx) : Nat)) F.CE_PHASE_NS % 10000) %
                10000 =
              0 ∧
            (ceProbeUp.ceX (↑(2 : RegionIx) : Nat)).arm = false ∧
              (ceProbeUp.ceX (↑(2 : RegionIx) : Nat)).win = some (ceWin ceRows none) ∧
                (∀ (i : Nat × Nat),
                    i ∈ (ceProbeUp.ceX (↑(2 : RegionIx) : Nat)).rels →
                      ceProbeUp.now 20000 < i.fst ∨ i.snd < ceProbeUp.now 20000) ∧
                  ceProbeUp.bit (R.CE_STAT (↑(2 : RegionIx) : Nat)) F.CE_STAT_FENCED = false ∧
                    ceProbeUp.dieState ((↑(2 : RegionIx) : Nat) / 4) = 0 ∧
                      { t := 20000, vals := [(0 : Word)], spacer := false, step := false : Row } =
                          { t := ceProbeUp.now 20000,
                            vals :=
                              List.map (ceProbeUp.probeVal (↑(2 : RegionIx) : Nat))
                                (List.range (ceProbeUp.ceProbes (↑(2 : RegionIx) : Nat))),
                            spacer := false, step := (ceWin ceRows none).stepPend : Row } ∧
                        ceRows ++
                              [{ t := 20000, vals := [(0 : Word)], spacer := false, step := false :
                                  Row }] =
                            (ceWin ceRows none).rows ++
                              [{ t := 20000, vals := [(0 : Word)], spacer := false, step := false :
                                  Row }] ∧
                          true =
                              (decide
                                  (ceProbeUp.fld (R.CE_TRG (↑(2 : RegionIx) : Nat)) F.CE_TRG_SRC = 0) &&
                                (probeFire (ceProbeUp.fld (R.CE_TRG (↑(2 : RegionIx) : Nat)) F.CE_TRG_DIR)
                                    (ceProbeUp.probeF32 (↑(2 : RegionIx) : Nat)
                                      (ceProbeUp.fld (R.CE_TRG (↑(2 : RegionIx) : Nat)) F.CE_TRG_INDEX))
                                    (ceProbeUp.rd (R.CE_LEVEL (↑(2 : RegionIx) : Nat)))
                                    (ceProbeUp.rd (R.CE_HYST (↑(2 : RegionIx) : Nat)))
                                    (ceProbeUp.ceX (↑(2 : RegionIx) : Nat)).up
                                    (ceProbeUp.ceX (↑(2 : RegionIx) : Nat)).dn).fst) ∧
                            (ceProbeUp.ceState (↑(2 : RegionIx) : Nat) = 1 ∨
                                ceProbeUp.ceState (↑(2 : RegionIx) : Nat) = 2) ∧
                              (ceWin ceRows none).trig = none ∧
                                true = true ∧
                                  (ceProbeUp.ceX (↑(2 : RegionIx) : Nat)).hoEnd ≤ ceProbeUp.now 20000) ∧
    ((ceGoes 3 ceRows none).fld (R.CE_CFG (↑(2 : RegionIx) : Nat)) F.CE_CFG_SYNC ≠ 0 ∨
      ((ceGoes 3 ceRows none).now 20001 +
                (ceGoes 3 ceRows none).fld (R.CE_PERIOD (↑(2 : RegionIx) : Nat)) F.CE_PERIOD_NS -
              (ceGoes 3 ceRows none).fld (R.CE_PHASE (↑(2 : RegionIx) : Nat)) F.CE_PHASE_NS %
                (ceGoes 3 ceRows none).fld (R.CE_PERIOD (↑(2 : RegionIx) : Nat)) F.CE_PERIOD_NS) %
            (ceGoes 3 ceRows none).fld (R.CE_PERIOD (↑(2 : RegionIx) : Nat)) F.CE_PERIOD_NS ≠
          0 ∨
        ∃ i,
          i ∈ ((ceGoes 3 ceRows none).ceX (↑(2 : RegionIx) : Nat)).rels ∧
            i.fst ≤ (ceGoes 3 ceRows none).now 20001 ∧
              (ceGoes 3 ceRows none).now 20001 ≤ i.snd) ∧
    (ceSlot.fld (R.CE_CFG (↑(2 : RegionIx) : Nat)) F.CE_CFG_SYNC = 2 ∧
      (ceSlot.ceX (↑(2 : RegionIx) : Nat)).win = some (ceWin ceRows none) ∧
        (ceWin ceRows none).rows.getLast? =
            some { t := 300, vals := [(3 : Word)], spacer := false, step := false : Row } ∧
          ceSlot.now 2100000300 =
              { t := 300, vals := [(3 : Word)], spacer := false, step := false : Row }.t +
                2100000000 ∧
            (ceSlot.ceX (↑(2 : RegionIx) : Nat)).arm = false ∧
              ceSlot.bit (R.CE_STAT (↑(2 : RegionIx) : Nat)) F.CE_STAT_FENCED = false ∧
                ceSlot.dieState ((↑(2 : RegionIx) : Nat) / 4) = 0 ∧
                  (ceSlot.ceState (↑(2 : RegionIx) : Nat) = 1 ∨
                      ceSlot.ceState (↑(2 : RegionIx) : Nat) = 2) ∧
                    (ceWin ceRows none).trig = none ∧
                      ceSlot.fld (R.CE_TRG (↑(2 : RegionIx) : Nat)) F.CE_TRG_SRC ≠ 0) ∧
    (((running 2).ceX (↑(15 : RegionIx) : Nat)).win = none ∧
      ∀ (i : Nat),
        i < 8 → ((running 2).clusterX (8 * (↑(15 : RegionIx) : Nat) + i)).win = none) := by
  refine ⟨?_, ?_, ?_, ?_, ?_, ?_, ?_, ?_⟩ <;> decide +kernel

/-- States and operands that meet the hypotheses of the clauses of `Obligations.HoldOffEndsAsItsModeSays`. -/
theorem witness_HoldOffEndsAsItsModeSays :
    ((ceGoes 2 ceRows none).lacks (↑(2 : RegionIx) : Nat) = false ∧
      ((ceGoes 2 ceRows none).ceState (↑(2 : RegionIx) : Nat) = 1 ∨
          (ceGoes 2 ceRows none).ceState (↑(2 : RegionIx) : Nat) = 2) ∧
        ((ceGoes 2 ceRows none).ceX (↑(2 : RegionIx) : Nat)).win = some (ceWin ceRows none) ∧
          ((ceGoes 2 ceRows none).ceX (↑(2 : RegionIx) : Nat)).hoEnd ≤
            (ceGoes 2 ceRows none).now 5) ∧
    ((ceGoes 3 ceRows (some (50, 1))).lacks (↑(2 : RegionIx) : Nat) = false ∧
      (((ceGoes 3 ceRows (some (50, 1))).ceState (↑(2 : RegionIx) : Nat) = 3 ∧
          ∀ (w : Win),
            w ∈ ((ceGoes 3 ceRows (some (50, 1))).ceX (↑(2 : RegionIx) : Nat)).win →
              w.inRow ((ceGoes 3 ceRows (some (50, 1))).now 500) = false) ∨
        (ceGoes 3 ceRows (some (50, 1))).ceState (↑(2 : RegionIx) : Nat) = 4)) ∧
    ((False ↔
        ((ceHold 0 0 2).ceX (↑(2 : RegionIx) : Nat)).closed = true ∧
          ((ceHold 0 0 2).bit (R.CE_CFG (↑(2 : RegionIx) : Nat)) F.CE_CFG_HO_MODE =
                false ∧
              (ceHold 0 0 2).now 1499 ≥
                ((ceHold 0 0 2).ceX (↑(2 : RegionIx) : Nat)).hoT +
                  BitVec.toNat
                    ((ceHold 0 0 2).rd (R.CE_HOLDOFF (↑(2 : RegionIx) : Nat))) ∨
            (ceHold 0 0 2).bit (R.CE_CFG (↑(2 : RegionIx) : Nat)) F.CE_CFG_HO_MODE =
                true ∧
              ((ceHold 0 0 2).ceX (↑(2 : RegionIx) : Nat)).hoN ≥
                BitVec.toNat
                  ((ceHold 0 0 2).rd (R.CE_HOLDOFF (↑(2 : RegionIx) : Nat))))) ∧
      (ceHold 0 0 2).ceState (↑(2 : RegionIx) : Nat) = 4 ∧ ¬False) ∧
    ((True ↔
        ((ceHold 0 0 2).ceX (↑(2 : RegionIx) : Nat)).closed = true ∧
          ((ceHold 0 0 2).bit (R.CE_CFG (↑(2 : RegionIx) : Nat)) F.CE_CFG_HO_MODE =
                false ∧
              (ceHold 0 0 2).now 1500 ≥
                ((ceHold 0 0 2).ceX (↑(2 : RegionIx) : Nat)).hoT +
                  BitVec.toNat
                    ((ceHold 0 0 2).rd (R.CE_HOLDOFF (↑(2 : RegionIx) : Nat))) ∨
            (ceHold 0 0 2).bit (R.CE_CFG (↑(2 : RegionIx) : Nat)) F.CE_CFG_HO_MODE =
                true ∧
              ((ceHold 0 0 2).ceX (↑(2 : RegionIx) : Nat)).hoN ≥
                BitVec.toNat
                  ((ceHold 0 0 2).rd (R.CE_HOLDOFF (↑(2 : RegionIx) : Nat))))) ∧
      (ceHold 0 0 2).ceState (↑(2 : RegionIx) : Nat) = 4 ∧
        True ∧ (ceHold 0 0 2).bit (R.CE_CFG (↑(2 : RegionIx) : Nat)) F.CE_CFG_AUTO = false) ∧
    ((True ↔
        ((ceHold 0 1 2).ceX (↑(2 : RegionIx) : Nat)).closed = true ∧
          ((ceHold 0 1 2).bit (R.CE_CFG (↑(2 : RegionIx) : Nat)) F.CE_CFG_HO_MODE =
                false ∧
              (ceHold 0 1 2).now 0 ≥
                ((ceHold 0 1 2).ceX (↑(2 : RegionIx) : Nat)).hoT +
                  BitVec.toNat
                    ((ceHold 0 1 2).rd (R.CE_HOLDOFF (↑(2 : RegionIx) : Nat))) ∨
            (ceHold 0 1 2).bit (R.CE_CFG (↑(2 : RegionIx) : Nat)) F.CE_CFG_HO_MODE =
                true ∧
              ((ceHold 0 1 2).ceX (↑(2 : RegionIx) : Nat)).hoN ≥
                BitVec.toNat
                  ((ceHold 0 1 2).rd (R.CE_HOLDOFF (↑(2 : RegionIx) : Nat))))) ∧
      (ceHold 0 1 2).ceState (↑(2 : RegionIx) : Nat) = 4 ∧
        True ∧ (ceHold 0 1 2).bit (R.CE_CFG (↑(2 : RegionIx) : Nat)) F.CE_CFG_AUTO = false) ∧
    ((True ↔
        ((ceHold 1 0 2).ceX (↑(2 : RegionIx) : Nat)).closed = true ∧
          ((ceHold 1 0 2).bit (R.CE_CFG (↑(2 : RegionIx) : Nat)) F.CE_CFG_HO_MODE =
                false ∧
              (ceHold 1 0 2).now 1500 ≥
                ((ceHold 1 0 2).ceX (↑(2 : RegionIx) : Nat)).hoT +
                  BitVec.toNat
                    ((ceHold 1 0 2).rd (R.CE_HOLDOFF (↑(2 : RegionIx) : Nat))) ∨
            (ceHold 1 0 2).bit (R.CE_CFG (↑(2 : RegionIx) : Nat)) F.CE_CFG_HO_MODE =
                true ∧
              ((ceHold 1 0 2).ceX (↑(2 : RegionIx) : Nat)).hoN ≥
                BitVec.toNat
                  ((ceHold 1 0 2).rd (R.CE_HOLDOFF (↑(2 : RegionIx) : Nat))))) ∧
      (ceHold 1 0 2).ceState (↑(2 : RegionIx) : Nat) = 4 ∧
        True ∧
          (ceHold 1 0 2).bit (R.CE_CFG (↑(2 : RegionIx) : Nat)) F.CE_CFG_AUTO = true ∧
            ((ceHold 1 0 2).poolAsk (↑(2 : RegionIx) : Nat)
                  ((ceHold 1 0 2).fld (R.CE_PRE (↑(2 : RegionIx) : Nat)) F.CE_PRE_ROWS)
                  (BitVec.toNat ((ceHold 1 0 2).rd (R.CE_POST (↑(2 : RegionIx) : Nat))))
                  (4 +
                    4 * (ceHold 1 0 2).ceProbes (↑(2 : RegionIx) : Nat))).isSome =
              true) ∧
    ((True ↔
        ((ceHold 1 1 0).ceX (↑(2 : RegionIx) : Nat)).closed = true ∧
          ((ceHold 1 1 0).bit (R.CE_CFG (↑(2 : RegionIx) : Nat)) F.CE_CFG_HO_MODE =
                false ∧
              (ceHold 1 1 0).now 0 ≥
                ((ceHold 1 1 0).ceX (↑(2 : RegionIx) : Nat)).hoT +
                  BitVec.toNat
                    ((ceHold 1 1 0).rd (R.CE_HOLDOFF (↑(2 : RegionIx) : Nat))) ∨
            (ceHold 1 1 0).bit (R.CE_CFG (↑(2 : RegionIx) : Nat)) F.CE_CFG_HO_MODE =
                true ∧
              ((ceHold 1 1 0).ceX (↑(2 : RegionIx) : Nat)).hoN ≥
                BitVec.toNat
                  ((ceHold 1 1 0).rd (R.CE_HOLDOFF (↑(2 : RegionIx) : Nat))))) ∧
      (ceHold 1 1 0).ceState (↑(2 : RegionIx) : Nat) = 4 ∧
        True ∧
          (ceHold 1 1 0).bit (R.CE_CFG (↑(2 : RegionIx) : Nat)) F.CE_CFG_AUTO = true ∧
            (ceHold 1 1 0).poolAsk (↑(2 : RegionIx) : Nat)
                ((ceHold 1 1 0).fld (R.CE_PRE (↑(2 : RegionIx) : Nat)) F.CE_PRE_ROWS)
                (BitVec.toNat ((ceHold 1 1 0).rd (R.CE_POST (↑(2 : RegionIx) : Nat))))
                (4 +
                  4 * (ceHold 1 1 0).ceProbes (↑(2 : RegionIx) : Nat)) =
              none) ∧
    ((ceSet 5).ceState (↑(2 : RegionIx) : Nat) ≠ 4) := by
  refine ⟨?_, ?_, ?_, ?_, ?_, ?_, ?_, ?_⟩ <;> decide +kernel

/-- States and operands that meet the hypotheses of the clauses of `Obligations.TriggerBusEvents`. -/
theorem witness_TriggerBusEvents :
    (∀ (o : Nat),
      o ∈ Smap.find busLast.tbLast (↑(7 : Fin 8) : Nat) → o + 1000 ≤ busLast.now 1000) ∧
    (∀ (o : Nat),
      o ∈ Smap.find (running 2).tbLast (↑(0 : Fin 8) : Nat) →
        o + 1000 ≤ (running 2).now 0) ∧
    (Smap.find busLast.tbLast (↑(7 : Fin 8) : Nat) = some 1000000 ∧
      busLast.now 999 < 1000000 + 1000) ∧
    ((busLast.fld (R.TB_CFG (↑(6 : Fin 8) : Nat)) F.TB_CFG_PIN = 2 ∧
          1000000 = busLast.now 60 - Config.padLatency ∨
        busLast.fld (R.TB_CFG (↑(6 : Fin 8) : Nat)) F.TB_CFG_PIN = 3 ∧
          busLast.tbShared = false ∧
            1000000 =
              busLast.now 60 - 40 -
                (busLast.fld (R.TB_PIN_DLY (↑(6 : Fin 8) : Nat)) F.TB_PIN_DLY_PS + 500) /
                  1000) ∧
      ∀ (o : Nat), o ∈ Smap.find busLast.tbLast (↑(6 : Fin 8) : Nat) → o + 1000 ≤ 1000000) ∧
    (busCal.fld (R.TB_CFG (↑(6 : Fin 8) : Nat)) F.TB_CFG_PIN = 3 ∧ busCal.tbShared = true) ∧
    (busLast.fld (R.TB_CFG (↑(1 : Fin 8) : Nat)) F.TB_CFG_PIN = 0 ∨
      busLast.fld (R.TB_CFG (↑(1 : Fin 8) : Nat)) F.TB_CFG_PIN = 1) ∧
    (busPaired.fld (R.TB_CFG (↑(6 : Fin 8) : Nat)) F.TB_CFG_PIN = 3 ∧
      busPaired.xl.partner.isSome = true) ∧
    ({ ps := 65535, tap := 255, matched := true : Branch }.matched = true ∧
      { ps := 65535, tap := 255, matched := true : Branch }.ps < 65536 ∧
        { ps := 65535, tap := 255, matched := true : Branch }.tap < 256) := by
  refine ⟨?_, ?_, ?_, ?_, ?_, ?_, ?_, ?_⟩ <;> decide +kernel

/-- States and operands that meet the hypotheses of the clauses of `Obligations.StreamsTakeTheirMarks`. -/
theorem witness_StreamsTakeTheirMarks :
    ((Instr.userMark (43981 : Word) 50 = Instr.userMark (43981 : Word) 50 ∧
          Blk.mark 50 12 [(43981 : Word), (255 : Word), (0 : Word), (0 : Word)] =
            Blk.mark ((streamIs 1 1 0 [oneBlk]).now 50) 12
              [(43981 : Word), (255 : Word), (0 : Word), (0 : Word)] ∨
        Instr.userMark (43981 : Word) 50 = Instr.epoch 50 ∧
          (streamIs 1 1 0 [oneBlk]).now 50 % 1000000000 = 0 ∧
            Blk.mark 50 12 [(43981 : Word), (255 : Word), (0 : Word), (0 : Word)] =
              (streamIs 1 1 0 [oneBlk]).epochBlk
                ((streamIs 1 1 0 [oneBlk]).now 50) false false) ∧
      (streamIs 1 1 0 [oneBlk]).streamOn (↑(7 : Fin 8) : Nat) = true) ∧
    ((Instr.epoch 1000000000 = Instr.userMark (0 : Word) 1000000000 ∧
          (streamIs 1 1 1 []).epochBlk 1000000000 false false =
            Blk.mark ((streamIs 1 1 1 []).now 1000000000) 12
              [(0 : Word), (255 : Word), (0 : Word), (0 : Word)] ∨
        Instr.epoch 1000000000 = Instr.epoch 1000000000 ∧
          (streamIs 1 1 1 []).now 1000000000 % 1000000000 = 0 ∧
            (streamIs 1 1 1 []).epochBlk 1000000000 false false =
              (streamIs 1 1 1 []).epochBlk
                ((streamIs 1 1 1 []).now 1000000000) false false) ∧
      (streamIs 1 1 1 []).streamOn (↑(7 : Fin 8) : Nat) = true) ∧
    ((streamIs 1 1 0 []).now 1000000000 % 1000000000 = 0) ∧
    ((streamIs 1 1 0 []).now 50 % 1000000000 ≠ 0) ∧
    ((streamIs 0 1 0 []).streamOn (↑(7 : Fin 8) : Nat) = false ∧
      ((streamIs 0 1 0 []).streamX (↑(7 : Fin 8) : Nat)).blocks = [] ∧
        0 < (streamIs 0 1 0 []).streamCap (↑(7 : Fin 8) : Nat) ∧
          (streamIs 0 1 0 []).bit (R.RS_S_STAT (↑(7 : Fin 8) : Nat))
              F.RS_S_STAT_GAP_OPEN =
            false) ∧
    ((streamIs 1 1 0 []).streamOn (↑(7 : Fin 8) : Nat) = true) ∧
    ((streamIs 1 1 1 []).streamOn (↑(7 : Fin 8) : Nat) = true ∧
      (streamIs 1 1 1 []).bit (R.RS_S_STAT (↑(7 : Fin 8) : Nat))
            F.RS_S_STAT_GAP_OPEN =
          true ∧
        ((streamIs 1 1 1 []).streamX (↑(7 : Fin 8) : Nat)).blocks.length +
            16384 ≤
          (streamIs 1 1 1 []).streamCap (↑(7 : Fin 8) : Nat)) ∧
    ((streamIs 1 1 1 [oneBlk]).bit (R.RS_S_STAT (↑(7 : Fin 8) : Nat))
          F.RS_S_STAT_GAP_OPEN =
        false ∨
      (streamIs 1 1 1 [oneBlk]).streamCap (↑(7 : Fin 8) : Nat) <
        ((streamIs 1 1 1 [oneBlk]).streamX (↑(7 : Fin 8) : Nat)).blocks.length +
          16384) := by
  refine ⟨?_, ?_, ?_, ?_, ?_, ?_, ?_, ?_⟩ <;> decide +kernel

/-- States and operands that meet the hypotheses of the clauses of `Obligations.BlocksAndDelivery`. -/
theorem witness_BlocksAndDelivery :
    (∀ (o : OpenBlk),
      o ∈ Smap.find (running 2).opens ((running 2).specKey (↑(65534 : Fin 65535) : Nat)) →
        (running 2).t0 + (running 2).period ≤
          o.t + (running 2).fld R.RS_FLUSH F.RS_FLUSH_MS * 1000000) ∧
    (∀ (o : OpenBlk),
      o ∈ Smap.find specYoung.opens (specYoung.specKey (↑(9 : Fin 65535) : Nat)) →
        specYoung.t0 + specYoung.period ≤ o.t + specYoung.fld R.RS_FLUSH F.RS_FLUSH_MS * 1000000) ∧
    (Smap.find specOpen.opens (specOpen.specKey (↑(9 : Fin 65535) : Nat)) = some specBlk ∧
      specBlk.t + specOpen.fld R.RS_FLUSH F.RS_FLUSH_MS * 1000000 < specOpen.t0 + specOpen.period) ∧
    (specGood.specOk (specGood.fld R.RS_SPEC_IDX F.RS_SPEC_IDX_INDEX)
        (specGood.rdAll (R.RS_SPEC_D 0) 4) =
      true) ∧
    ((running 2).specOk ((running 2).fld R.RS_SPEC_IDX F.RS_SPEC_IDX_INDEX)
        ((running 2).rdAll (R.RS_SPEC_D 0) 4) =
      false) ∧
    (16 ≤ (↑(23 : HRingIx) : Nat) ∧
      (↑(23 : HRingIx) : Nat) < 24 ∧
        (streamPosts.hringX (↑(23 : HRingIx) : Nat)).posted = [slotD] ∧
          (streamPosts.streamX ((↑(23 : HRingIx) : Nat) - 16)).blocks = [oneBlk, oneBlk] ∧
            [oneBlk, oneBlk] ≠ [] ∧
              64 ≤ slotD.len ∧
                64 ≤ 64 ∧
                  streamPosts.ringServed (↑(23 : HRingIx) : Nat) = true ∧
                    1 = min (min 64 slotD.len / 64) [oneBlk, oneBlk].length) ∧
    (24 ≤ (↑(31 : HRingIx) : Nat) ∧
      (↑(31 : HRingIx) : Nat) < 32 ∧
        (winPosts.hringX (↑(31 : HRingIx) : Nat)).posted = [slotD, slotD] ∧
          winPosts.winQ (↑(31 : HRingIx) : Nat) =
              [{ id := (1 : Word), region := 0, off := 0,
                  words := [(5 : Word), (6 : Word), (7 : Word)], done := true, resv := 0 : Chunk }] ∧
            { id := (1 : Word), region := 0, off := 0,
                    words := [(5 : Word), (6 : Word), (7 : Word)], done := true, resv := 0 :
                    Chunk }.words ≠
                [] ∧
              4 ≤ slotD.len ∧
                4 ≤ 4 ∧
                  winPosts.ringServed (↑(31 : HRingIx) : Nat) = true ∧
                    1 =
                      min (min 4 slotD.len / 4)
                        { id := (1 : Word), region := 0, off := 0,
                              words := [(5 : Word), (6 : Word), (7 : Word)], done := true, resv := 0 :
                              Chunk }.words.length) ∧
    ((↑(15 : HRingIx) : Nat) < 16 ∨ 32 ≤ (↑(15 : HRingIx) : Nat)) ∧
    ((↑(32 : HRingIx) : Nat) < 16 ∨ 32 ≤ (↑(32 : HRingIx) : Nat)) := by
  refine ⟨?_, ?_, ?_, ?_, ?_, ?_, ?_, ?_, ?_⟩ <;> decide +kernel

/-- States and operands that meet the hypotheses of the clauses of `Obligations.CyclicFramesLand`. -/
theorem witness_CyclicFramesLand :
    (fieldUsed.bit (R.FP_CFG (↑(7 : PortIx) : Nat)) F.FP_CFG_USED = false) ∧
    (fieldUsed.bit (R.FP_CFG (↑(2 : PortIx) : Nat)) F.FP_CFG_USED = true ∧
      (frameOf true false 0 []).fcsOk = false) ∧
    (fieldUsed.bit (R.FP_CFG (↑(2 : PortIx) : Nat)) F.FP_CFG_USED = true ∧
      (frameOf false true 0 []).fcsOk = true ∧
        fieldUsed.frameWhole (↑(2 : PortIx) : Nat) (frameOf false true 0 []) = false) ∧
    (fieldUsed.bit (R.FP_CFG (↑(2 : PortIx) : Nat)) F.FP_CFG_USED = true ∧
      (frameOf true true 0 [segW (129 : Byte)]).fcsOk = true ∧
        fieldUsed.frameWhole (↑(2 : PortIx) : Nat) (frameOf true true 0 [segW (129 : Byte)]) = true ∧
          (frameOf true true 0 [segW (129 : Byte)]).seq = fieldUsed.seq ∧
            (frameOf true true 0 [segW (129 : Byte)]).segs = [segW (129 : Byte)] ∧
              (segW (129 : Byte)).stn < 126 ∧
                128 = 126 * ((↑(2 : PortIx) : Nat) / 2) + (segW (129 : Byte)).stn ∧
                  fieldUsed.stnUsed 128 = true ∧
                    (fieldUsed.stnX 128).got = none ∧
                      100 = fieldUsed.fld (R.FP_S_MAP 128) F.FP_S_MAP_IN_BASE ∧
                        2 = fieldUsed.fld (R.FP_S_LEN 128) F.FP_S_LEN_ILEN / 4 ∧
                          (segW (129 : Byte)).wkc = (129 : Byte) ∧ fieldUsed.cyc.cut = false) ∧
    (fieldCut.bit (R.FP_CFG (↑(2 : PortIx) : Nat)) F.FP_CFG_USED = true ∧
      (frameOf true true 0 [segW (129 : Byte)]).fcsOk = true ∧
        fieldCut.frameWhole (↑(2 : PortIx) : Nat) (frameOf true true 0 [segW (129 : Byte)]) = true ∧
          (frameOf true true 0 [segW (129 : Byte)]).seq = fieldCut.seq ∧
            (frameOf true true 0 [segW (129 : Byte)]).segs = [segW (129 : Byte)] ∧
              (segW (129 : Byte)).stn < 126 ∧
                128 = 126 * ((↑(2 : PortIx) : Nat) / 2) + (segW (129 : Byte)).stn ∧
                  fieldCut.stnUsed 128 = true ∧
                    (fieldCut.stnX 128).got = none ∧
                      100 = fieldCut.fld (R.FP_S_MAP 128) F.FP_S_MAP_IN_BASE ∧
                        2 = fieldCut.fld (R.FP_S_LEN 128) F.FP_S_LEN_ILEN / 4 ∧
                          (segW (129 : Byte)).wkc = (129 : Byte) ∧ fieldCut.cyc.cut = true) ∧
    (fieldUsed.bit (R.FP_CFG (↑(2 : PortIx) : Nat)) F.FP_CFG_USED = true ∧
      (frameOf true true 0 [segW (128 : Byte)]).fcsOk = true ∧
        fieldUsed.frameWhole (↑(2 : PortIx) : Nat) (frameOf true true 0 [segW (128 : Byte)]) = true ∧
          (frameOf true true 0 [segW (128 : Byte)]).seq = fieldUsed.seq ∧
            (frameOf true true 0 [segW (128 : Byte)]).segs = [segW (128 : Byte)] ∧
              (segW (128 : Byte)).stn < 126 ∧
                128 = 126 * ((↑(2 : PortIx) : Nat) / 2) + (segW (128 : Byte)).stn ∧
                  fieldUsed.stnUsed 128 = true ∧
                    (fieldUsed.stnX 128).got = none ∧
                      100 = fieldUsed.fld (R.FP_S_MAP 128) F.FP_S_MAP_IN_BASE ∧
                        2 = fieldUsed.fld (R.FP_S_LEN 128) F.FP_S_LEN_ILEN / 4 ∧
                          (segW (128 : Byte)).wkc ≠ (129 : Byte) ∧ (segW (128 : Byte)).wkc ≠ (0 : Byte)) ∧
    (fieldPair.bit (R.FP_CFG (↑(2 : PortIx) : Nat)) F.FP_CFG_USED = true ∧
      (frameOf true true 0 []).fcsOk = true ∧
        fieldPair.frameWhole (↑(2 : PortIx) : Nat) (frameOf true true 0 []) = true ∧
          fieldPair.bit (R.FP_RING_CFG ((↑(2 : PortIx) : Nat) / 2)) F.FP_RING_CFG_PAIR = true) ∧
    (fieldPair.frameLands (↑(2 : PortIx) : Nat) false (frameOf true true 1 []) = true ∧
      (frameOf true true 1 []).role = 1 ∧
        fieldPair.paired = true ∧
          fieldPair.role ≠ 1 ∧
            fieldPair.pairState ≠ 1 ∧
              (frameOf true true 1 []).unit = fieldPair.bit R.XL_STATE F.XL_STATE_HOLDER_ID) := by
  refine ⟨?_, ?_, ?_, ?_, ?_, ?_, ?_, ?_⟩ <;> decide +kernel

/-- States and operands that meet the hypotheses of the clauses of `Obligations.StationsAreCommandedAndAdmitted`. -/
theorem witness_StationsAreCommandedAndAdmitted :
    ((Instr.stnHold (128 : StnIx), 1) ∈
        [(Instr.stnHold (128 : StnIx), 1), (Instr.stnFallow (128 : StnIx), 2),
          (Instr.stnResume (128 : StnIx), 3), (Instr.readmit (128 : StnIx), 4)] ∧
      R.FP_STN_CMD_STAT 1 = R.FP_STN_CMD_STAT ((↑(128 : StnIx) : Nat) / 126) ∧
        (1 = 2 ∨
            (stnIs 1 2).mode = 1 ∨ (stnIs 1 2).mode = 2) ∧
          (stnIs 1 2).stnUsed (↑(128 : StnIx) : Nat) = true ∧
            2 ≤ (stnIs 1 2).stnState (↑(128 : StnIx) : Nat)) ∧
    ((Instr.stnFallow (128 : StnIx), 2) ∈
        [(Instr.stnHold (128 : StnIx), 1), (Instr.stnFallow (128 : StnIx), 2),
          (Instr.stnResume (128 : StnIx), 3), (Instr.readmit (128 : StnIx), 4)] ∧
      R.FP_STN_CMD_STAT 1 = R.FP_STN_CMD_STAT ((↑(128 : StnIx) : Nat) / 126) ∧
        (2 = 2 ∨
            (stnIs 3 3).mode = 1 ∨ (stnIs 3 3).mode = 2) ∧
          (stnIs 3 3).stnUsed (↑(128 : StnIx) : Nat) = true ∧
            2 ≤ (stnIs 3 3).stnState (↑(128 : StnIx) : Nat)) ∧
    ((Instr.stnResume (128 : StnIx), 3) ∈
        [(Instr.stnHold (128 : StnIx), 1), (Instr.stnFallow (128 : StnIx), 2),
          (Instr.stnResume (128 : StnIx), 3), (Instr.readmit (128 : StnIx), 4)] ∧
      R.FP_STN_CMD_STAT 1 = R.FP_STN_CMD_STAT ((↑(128 : StnIx) : Nat) / 126) ∧
        (3 = 2 ∨
            (stnIs 2 3).mode = 1 ∨ (stnIs 2 3).mode = 2) ∧
          (stnIs 2 3).stnUsed (↑(128 : StnIx) : Nat) = true ∧
            2 ≤ (stnIs 2 3).stnState (↑(128 : StnIx) : Nat)) ∧
    ((Instr.readmit (128 : StnIx), 4) ∈
        [(Instr.stnHold (128 : StnIx), 1), (Instr.stnFallow (128 : StnIx), 2),
          (Instr.stnResume (128 : StnIx), 3), (Instr.readmit (128 : StnIx), 4)] ∧
      R.FP_STN_CMD_STAT 1 = R.FP_STN_CMD_STAT ((↑(128 : StnIx) : Nat) / 126) ∧
        (4 = 2 ∨
            (stnIs 2 2).mode = 1 ∨ (stnIs 2 2).mode = 2) ∧
          (stnIs 2 2).stnUsed (↑(128 : StnIx) : Nat) = true ∧
            2 ≤ (stnIs 2 2).stnState (↑(128 : StnIx) : Nat)) ∧
    ((Instr.readmit (128 : StnIx), 4) ∈
        [(Instr.stnHold (128 : StnIx), 1), (Instr.stnFallow (128 : StnIx), 2),
          (Instr.stnResume (128 : StnIx), 3), (Instr.readmit (128 : StnIx), 4)] ∧
      R.FP_STN_CMD_STAT 1 = R.FP_STN_CMD_STAT ((↑(128 : StnIx) : Nat) / 126) ∧
        ¬((4 = 2 ∨
              (stnIs 3 2).mode = 1 ∨ (stnIs 3 2).mode = 2) ∧
            (stnIs 3 2).stnUsed (↑(128 : StnIx) : Nat) = true ∧
              2 ≤ (stnIs 3 2).stnState (↑(128 : StnIx) : Nat))) ∧
    ((Instr.stnFallow (128 : StnIx), 2) ∈
        [(Instr.stnHold (128 : StnIx), 1), (Instr.stnFallow (128 : StnIx), 2),
          (Instr.stnResume (128 : StnIx), 3), (Instr.readmit (128 : StnIx), 4)] ∧
      R.FP_STN_CMD_STAT 1 = R.FP_STN_CMD_STAT ((↑(128 : StnIx) : Nat) / 126) ∧
        ¬((2 = 2 ∨
              (stnIs 3 1).mode = 1 ∨ (stnIs 3 1).mode = 2) ∧
            (stnIs 3 1).stnUsed (↑(128 : StnIx) : Nat) = true ∧
              2 ≤ (stnIs 3 1).stnState (↑(128 : StnIx) : Nat))) ∧
    ((Instr.stnHold (503 : StnIx), 1) ∈
        [(Instr.stnHold (503 : StnIx), 1), (Instr.stnFallow (503 : StnIx), 2),
          (Instr.stnResume (503 : StnIx), 3), (Instr.readmit (503 : StnIx), 4)] ∧
      R.FP_STN_CMD_STAT 3 = R.FP_STN_CMD_STAT ((↑(503 : StnIx) : Nat) / 126) ∧
        ¬((1 = 2 ∨
              (stnIs 2 3).mode = 1 ∨ (stnIs 2 3).mode = 2) ∧
            (stnIs 2 3).stnUsed (↑(503 : StnIx) : Nat) = true ∧
              2 ≤ (stnIs 2 3).stnState (↑(503 : StnIx) : Nat))) ∧
    ((paired 2 3).acts = false) ∧
    (fieldUsed.acts = true) ∧
    ((stnIs 2 1).acts = true ∧
      List.find?
          (fun k =>
            decide
              ((stnIs 2 1).rd64 (R.FP_S_EUI_LO k) =
                { eui := 2749, stype := (3 : Word), crc := (4 : Word), hold := (0 : Byte) :
                    DiscEntry }.eui))
          ((stnIs 2 1).ringStns (↑(1 : FRingIx) : Nat)) =
        none) ∧
    ((stnIs 2 2).acts = true ∧
      List.find?
            (fun k =>
              decide
                ((stnIs 2 2).rd64 (R.FP_S_EUI_LO k) =
                  { eui := 2748, stype := (3 : Word), crc := (4 : Word), hold := (1 : Byte) :
                      DiscEntry }.eui))
            ((stnIs 2 2).ringStns (↑(1 : FRingIx) : Nat)) =
          some 128 ∧
        (stnIs 2 2).rd (R.FP_S_TYPE 128) =
            { eui := 2748, stype := (3 : Word), crc := (4 : Word), hold := (1 : Byte) :
                DiscEntry }.stype ∧
          (stnIs 2 2).rd (R.FP_S_CRC 128) =
            { eui := 2748, stype := (3 : Word), crc := (4 : Word), hold := (1 : Byte) : DiscEntry }.crc) ∧
    ((stnIs 2 1).acts = true ∧
      List.find?
            (fun k =>
              decide
                ((stnIs 2 1).rd64 (R.FP_S_EUI_LO k) =
                  { eui := 2748, stype := (3 : Word), crc := (4 : Word), hold := (1 : Byte) :
                      DiscEntry }.eui))
            ((stnIs 2 1).ringStns (↑(1 : FRingIx) : Nat)) =
          some 128 ∧
        (stnIs 2 1).rd (R.FP_S_TYPE 128) =
            { eui := 2748, stype := (3 : Word), crc := (4 : Word), hold := (1 : Byte) :
                DiscEntry }.stype ∧
          (stnIs 2 1).rd (R.FP_S_CRC 128) =
            { eui := 2748, stype := (3 : Word), crc := (4 : Word), hold := (1 : Byte) : DiscEntry }.crc) ∧
    ((stnIs 2 0).acts = true ∧
      List.find?
            (fun k =>
              decide
                ((stnIs 2 0).rd64 (R.FP_S_EUI_LO k) =
                  { eui := 2748, stype := (5 : Word), crc := (4 : Word), hold := (2 : Byte) :
                      DiscEntry }.eui))
            ((stnIs 2 0).ringStns (↑(1 : FRingIx) : Nat)) =
          some 128 ∧
        ((stnIs 2 0).rd (R.FP_S_TYPE 128) ≠
            { eui := 2748, stype := (5 : Word), crc := (4 : Word), hold := (2 : Byte) :
                DiscEntry }.stype ∨
          (stnIs 2 0).rd (R.FP_S_CRC 128) ≠
            { eui := 2748, stype := (5 : Word), crc := (4 : Word), hold := (2 : Byte) : DiscEntry }.crc)) ∧
    ((stnIs 2 1).acts = true ∧
      R.FP_RX_CNT 3 =
          R.FP_RX_CNT ((stnIs 2 1).tailPort ((↑(128 : StnIx) : Nat) / 126)) ∧
        ((stnIs 2 1).stnX (↑(128 : StnIx) : Nat)).adm = false) ∧
    ((stnAdm 0).acts = true ∧
      R.FP_RX_CNT 3 = R.FP_RX_CNT ((stnAdm 0).tailPort ((↑(128 : StnIx) : Nat) / 126)) ∧
        ((stnAdm 0).stnX (↑(128 : StnIx) : Nat)).adm = true) ∧
    ((stnAdm 14).acts = true ∧
      R.FP_RX_CNT 3 = R.FP_RX_CNT ((stnAdm 14).tailPort ((↑(128 : StnIx) : Nat) / 126)) ∧
        ((stnAdm 14).stnX (↑(128 : StnIx) : Nat)).adm = true ∧
          ((stnAdm 14).stnX (↑(128 : StnIx) : Nat)).tries + 1 < 16) ∧
    ((stnAdm 15).acts = true ∧
      R.FP_RX_CNT 3 = R.FP_RX_CNT ((stnAdm 15).tailPort ((↑(128 : StnIx) : Nat) / 126)) ∧
        ((stnAdm 15).stnX (↑(128 : StnIx) : Nat)).adm = true ∧
          16 ≤ ((stnAdm 15).stnX (↑(128 : StnIx) : Nat)).tries + 1) ∧
    (tailOpen.ringUsed (↑(1 : FRingIx) : Nat) = true ∧
      tailOpen.acts = true ∧ (tailOpen.ringX (↑(1 : FRingIx) : Nat)).times = []) ∧
    (tailShut.ringUsed (↑(1 : FRingIx) : Nat) = true ∧
      tailShut.acts = true ∧ (tailShut.ringX (↑(1 : FRingIx) : Nat)).times = []) ∧
    (tailOpen.ringUsed (↑(3 : FRingIx) : Nat) = false ∨ tailOpen.acts = false) ∧
    (((running 1).sets [(R.FP_STAT 2, F.FP_STAT_LINK, 1)]).bit
        (R.FP_STAT (↑(2 : PortIx) : Nat)) F.FP_STAT_LINK =
      true) ∧
    ((running 1).bit (R.FP_STAT (↑(7 : PortIx) : Nat)) F.FP_STAT_LINK = false) := by
  refine ⟨?_, ?_, ?_, ?_, ?_, ?_, ?_, ?_, ?_, ?_, ?_, ?_, ?_, ?_, ?_, ?_, ?_, ?_, ?_, ?_, ?_, ?_⟩ <;> decide +kernel

/-- States and operands that meet the hypotheses of the clauses of `Obligations.MailboxRequestsComplete`. -/
theorem witness_MailboxRequestsComplete :
    (16 % 4 = 0 ∧
      1 ≤ 1024 ∧
        1024 ≤ 1024 ∧
          mailOpen.stnUsed (↑(128 : StnIx) : Nat) = true ∧ mailOpen.stnState (↑(128 : StnIx) : Nat) = 3) ∧
    (((16 % 4 ≠ 0 ∨ 0 < 1 ∨ 1024 < 0) ∧
          5 = 5 ∨
        16 % 4 = 0 ∧
          1 ≤ 0 ∧
            0 ≤ 1024 ∧
              (mailOpen.stnUsed (↑(128 : StnIx) : Nat) = false ∨
                  mailOpen.stnState (↑(128 : StnIx) : Nat) ≠ 3) ∧
                5 = 8) ∧
      (mailOpen.hringX (8 + mailM.ring)).posted = [slotD] ∧
        mailOpen.ringServed (8 + mailM.ring) = true ∧ mailM.ring < 8) ∧
    (((16 % 4 ≠ 0 ∨ 1025 < 1 ∨ 1024 < 1025) ∧
          5 = 5 ∨
        16 % 4 = 0 ∧
          1 ≤ 1025 ∧
            1025 ≤ 1024 ∧
              (mailOpen.stnUsed (↑(128 : StnIx) : Nat) = false ∨
                  mailOpen.stnState (↑(128 : StnIx) : Nat) ≠ 3) ∧
                5 = 8) ∧
      (mailOpen.hringX (8 + mailM.ring)).posted = [slotD] ∧
        mailOpen.ringServed (8 + mailM.ring) = true ∧ mailM.ring < 8) ∧
    (((15 % 4 ≠ 0 ∨ 4 < 1 ∨ 1024 < 4) ∧
          5 = 5 ∨
        15 % 4 = 0 ∧
          1 ≤ 4 ∧
            4 ≤ 1024 ∧
              (mailOpen.stnUsed (↑(128 : StnIx) : Nat) = false ∨
                  mailOpen.stnState (↑(128 : StnIx) : Nat) ≠ 3) ∧
                5 = 8) ∧
      (mailOpen.hringX (8 + mailM.ring)).posted = [slotD] ∧
        mailOpen.ringServed (8 + mailM.ring) = true ∧ mailM.ring < 8) ∧
    (((16 % 4 ≠ 0 ∨ 1 < 1 ∨ 1024 < 1) ∧
          8 = 5 ∨
        16 % 4 = 0 ∧
          1 ≤ 1 ∧
            1 ≤ 1024 ∧
              (mailOpen.stnUsed (↑(503 : StnIx) : Nat) = false ∨
                  mailOpen.stnState (↑(503 : StnIx) : Nat) ≠ 3) ∧
                8 = 8) ∧
      (mailOpen.hringX (8 + mailM.ring)).posted = [slotD] ∧
        mailOpen.ringServed (8 + mailM.ring) = true ∧ mailM.ring < 8) ∧
    (fieldPair.acts = false) ∧
    (mailOpen.acts = true ∧
      List.find? (fun m => decide (m.stn = (↑(129 : StnIx) : Nat)) && m.sent) mailOpen.mails = none) ∧
    (List.find? (fun m => decide (m.stn = (↑(128 : StnIx) : Nat)) && m.sent) mailOpen.mails = some mailX ∧
      mailX.member.ring < 8 ∧
        (mailOpen.hringX (8 + mailX.member.ring)).posted = [slotD] ∧
          mailOpen.ringServed (8 + mailX.member.ring) = true) := by
  refine ⟨?_, ?_, ?_, ?_, ?_, ?_, ?_, ?_⟩ <;> decide +kernel

/-- States and operands that meet the hypotheses of the clauses of `Obligations.ServoAndHoldover`. -/
theorem witness_ServoAndHoldover :
    (coreDown.mg.down = true ∨ 127 < (ptpOf (1000 : Int)).domain) ∧
    ((running 2).mg.down = true ∨ 127 < ptpFar.domain) ∧
    ((timeIs 2).mg.down = false ∧
      (ptpOf (1000 : Int)).domain ≤ 127 ∧ (timeIs 2).ptpOfs (ptpOf (1000 : Int)) = (1000 : Int)) ∧
    ((timeIs 3).mg.down = false ∧
      (ptpOf (-500 : Int)).domain ≤ 127 ∧ (timeIs 3).ptpOfs (ptpOf (-500 : Int)) = (-500 : Int)) ∧
    ((timeIs 2).mg.down = false ∧
      (ptpOf (96 : Int)).domain ≤ 127 ∧ (timeIs 2).ptpOfs (ptpOf (96 : Int)) = (96 : Int)) ∧
    ((timeIs 3).mg.down = false ∧
      (ptpOf (-300 : Int)).domain ≤ 127 ∧ (timeIs 3).ptpOfs (ptpOf (-300 : Int)) = (-300 : Int)) ∧
    ((timeIs 2).tmState = 2 ∨ (timeIs 2).tmState = 3) ∧
    ((timeIs 3).tmState = 2 ∨ (timeIs 3).tmState = 3) ∧
    ((timeIs 4).tmState ≠ 2 ∧ (timeIs 4).tmState ≠ 3) := by
  refine ⟨?_, ?_, ?_, ?_, ?_, ?_, ?_, ?_, ?_⟩ <;> decide +kernel

/-- States and operands that meet the hypotheses of the clauses of `Obligations.TimeBaseStepsAndReadings`. -/
theorem witness_TimeBaseStepsAndReadings :
    ((true = true ∧ Instr.tmSet = Instr.tmSet ∧ (5 : Int) = (↑(timeSet 2 5).tmSetTime : Int) ∨
        true = false ∧
          Instr.tmSet = Instr.tmOffset ∧
            (5 : Int) = BitVec.toInt ((timeSet 2 5).rd R.TM_SET_NS)) ∧
      ((timeSet 2 5).tmState = 2 ∨ (timeSet 2 5).tmState = 3)) ∧
    ((true = true ∧
          Instr.tmSet = Instr.tmSet ∧
            (1000000000 : Int) = (↑(timeSet 0 1000000000).tmSetTime : Int) ∨
        true = false ∧
          Instr.tmSet = Instr.tmOffset ∧
            (1000000000 : Int) = BitVec.toInt ((timeSet 0 1000000000).rd R.TM_SET_NS)) ∧
      (timeSet 0 1000000000).tmState ≠ 2 ∧
        (timeSet 0 1000000000).tmState ≠ 3 ∧
          true = true ∧ 999999999 < BitVec.toNat ((timeSet 0 1000000000).rd R.TM_SET_NS)) ∧
    ((false = true ∧
          Instr.tmOffset = Instr.tmSet ∧
            (1000000001 : Int) = (↑(timeSet 0 1000000001).tmSetTime : Int) ∨
        false = false ∧
          Instr.tmOffset = Instr.tmOffset ∧
            (1000000001 : Int) = BitVec.toInt ((timeSet 0 1000000001).rd R.TM_SET_NS)) ∧
      (timeSet 0 1000000001).tmState ≠ 2 ∧
        (timeSet 0 1000000001).tmState ≠ 3 ∧
          (false = false ∨
              BitVec.toNat ((timeSet 0 1000000001).rd R.TM_SET_NS) ≤ 999999999) ∧
            1000000000 < ((timeSet 0 1000000001).tmDelta false (1000000001 : Int)).natAbs) ∧
    ((false = true ∧
          Instr.tmOffset = Instr.tmSet ∧
            (-1000000000 : Int) = (↑(timeSet 4 3294967296).tmSetTime : Int) ∨
        false = false ∧
          Instr.tmOffset = Instr.tmOffset ∧
            (-1000000000 : Int) = BitVec.toInt ((timeSet 4 3294967296).rd R.TM_SET_NS)) ∧
      (timeSet 4 3294967296).tmState ≠ 2 ∧
        (timeSet 4 3294967296).tmState ≠ 3 ∧
          (false = false ∨
              BitVec.toNat ((timeSet 4 3294967296).rd R.TM_SET_NS) ≤ 999999999) ∧
            ((timeSet 4 3294967296).tmDelta false (-1000000000 : Int)).natAbs ≤ 1000000000) ∧
    ((true = true ∧
          Instr.tmSet = Instr.tmSet ∧
            (999999999 : Int) = (↑(timeSet 0 999999999).tmSetTime : Int) ∨
        true = false ∧
          Instr.tmSet = Instr.tmOffset ∧
            (999999999 : Int) = BitVec.toInt ((timeSet 0 999999999).rd R.TM_SET_NS)) ∧
      (timeSet 0 999999999).tmState ≠ 2 ∧
        (timeSet 0 999999999).tmState ≠ 3 ∧
          (true = false ∨
              BitVec.toNat ((timeSet 0 999999999).rd R.TM_SET_NS) ≤ 999999999) ∧
            ((timeSet 0 999999999).tmDelta true (999999999 : Int)).natAbs ≤ 1000000000) := by
  refine ⟨?_, ?_, ?_, ?_, ?_⟩ <;> decide +kernel

/-- States and operands that meet the hypotheses of the clauses of `Obligations.CalendarClockAndEdges`. -/
theorem witness_CalendarClockAndEdges :
    ((timeIs 1).mg.down = false ∧
      ((timeIs 1).tmState = 1 ∨ (timeIs 1).tmState = 3)) ∧
    ((timeIs 4).mg.down = true ∨
      (timeIs 4).tmState ≠ 1 ∧ (timeIs 4).tmState ≠ 3) ∧
    (coreDown.mg.down = true ∨ coreDown.tmState ≠ 1 ∧ coreDown.tmState ≠ 3) ∧
    (3 = BitVec.toNat rtcIs.tm.rtcLo + BitVec.toNat (0 : Word) % 65536 * 2 ^ 32 ∧
      ((↑3 : Int) - (↑rtcIs.rtcSec : Int)).natAbs ≤ 1) ∧
    (4294967299 =
        BitVec.toNat rtcIs.tm.rtcLo + BitVec.toNat (1 : Word) % 65536 * 2 ^ 32 ∧
      1 < ((↑4294967299 : Int) - (↑rtcIs.rtcSec : Int)).natAbs) ∧
    ((running 2).bit (R.TM_EDGE_CFG (↑(63 : Fin 64) : Nat)) F.TM_EDGE_CFG_USED = false ∨
      ((running 2).edgeX (↑(63 : Fin 64) : Nat)).level = true ∨
        9 < (running 2).fld (R.TM_EDGE_CFG (↑(63 : Fin 64) : Nat)) F.TM_EDGE_CFG_FILT) ∧
    (edgeIs.bit (R.TM_EDGE_CFG (↑(63 : Fin 64) : Nat)) F.TM_EDGE_CFG_USED = true ∧
      (edgeIs.edgeX (↑(63 : Fin 64) : Nat)).level = !true ∧
        edgeIs.fld (R.TM_EDGE_CFG (↑(63 : Fin 64) : Nat)) F.TM_EDGE_CFG_FILT ≤ 9 ∧
          false = (edgeIs.edgeX (↑(63 : Fin 64) : Nat)).near (edgeIs.now 5) ∧
            edgeUp =
                (edgeIs.setEdgeX (↑(63 : Fin 64) : Nat)
                      (have __src := edgeIs.edgeX (↑(63 : Fin 64) : Nat);
                      { pin := true, level := __src.level, rise := __src.rise, fall := __src.fall,
                        count := __src.count, entry := __src.entry, last := __src.last, dirty := __src.dirty :
                        EdgeX })).hgEval
                  (edgeIs.now 5) ∧
              true =
                (decide
                      (edgeIs.fld (R.TM_EDGE_CFG (↑(63 : Fin 64) : Nat)) F.TM_EDGE_CFG_EDGE =
                        2) ||
                    decide
                        (edgeIs.fld (R.TM_EDGE_CFG (↑(63 : Fin 64) : Nat)) F.TM_EDGE_CFG_EDGE =
                          0) &&
                      true ||
                  decide
                      (edgeIs.fld (R.TM_EDGE_CFG (↑(63 : Fin 64) : Nat)) F.TM_EDGE_CFG_EDGE =
                        1) &&
                    !true)) := by
  refine ⟨?_, ?_, ?_, ?_, ?_, ?_, ?_⟩ <;> decide +kernel

/-- States and operands that meet the hypotheses of the clauses of `Obligations.CanReceptionsAndModes`. -/
theorem witness_CanReceptionsAndModes :
    ((running 2).canEff (↑(15 : CanIx) : Nat) = 0 ∨
      ((running 2).canX (↑(15 : CanIx) : Nat)).integ = false ∨
        (running 2).canBusOff (↑(15 : CanIx) : Nat) = true) ∧
    (((canIs 2 1).canEff (↑(5 : CanIx) : Nat) = 1 ∨
        (canIs 2 1).canEff (↑(5 : CanIx) : Nat) = 2) ∧
      ((canIs 2 1).canX (↑(5 : CanIx) : Nat)).integ = true ∧
        (canIs 2 1).canBusOff (↑(5 : CanIx) : Nat) = false ∧
          (canIs 2 1).role ≠ 2 ∧
            (Option.map (fun m => m.snd)
                  ((canIs 2 1).canMatch (↑(5 : CanIx) : Nat) (canF false 1)) =
                some RxAction.drop ∨
              (canIs 2 1).canMatch (↑(5 : CanIx) : Nat) (canF false 1) = none ∧
                (canIs 2 1).bit (R.CF_CFG (↑(5 : CanIx) : Nat)) F.CF_CFG_DEFAULT = false)) ∧
    ((canStandby.canEff (↑(5 : CanIx) : Nat) = 1 ∨ canStandby.canEff (↑(5 : CanIx) : Nat) = 2) ∧
      (canStandby.canX (↑(5 : CanIx) : Nat)).integ = true ∧
        canStandby.canBusOff (↑(5 : CanIx) : Nat) = false ∧ canStandby.role = 2) ∧
    (((canIs 2 1).canEff (↑(5 : CanIx) : Nat) = 1 ∨
        (canIs 2 1).canEff (↑(5 : CanIx) : Nat) = 2) ∧
      ((canIs 2 1).canX (↑(5 : CanIx) : Nat)).integ = true ∧
        (canIs 2 1).canBusOff (↑(5 : CanIx) : Nat) = false ∧
          (canIs 2 1).role ≠ 2 ∧
            (canF true 2).rtr = false ∧
              (canIs 2 1).canMatch (↑(5 : CanIx) : Nat) (canF true 2) =
                  some (1, RxAction.image 7) ∧
                (RxAction.image 7 = RxAction.image 7 ∨
                  ∃ g, RxAction.image 7 = RxAction.flow g)) ∧
    (((canIs 2 2).canEff (↑(5 : CanIx) : Nat) = 1 ∨
        (canIs 2 2).canEff (↑(5 : CanIx) : Nat) = 2) ∧
      ((canIs 2 2).canX (↑(5 : CanIx) : Nat)).integ = true ∧
        (canIs 2 2).canBusOff (↑(5 : CanIx) : Nat) = false) ∧
    (((canIs 2 1).canEff (↑(5 : CanIx) : Nat) = 1 ∨
        (canIs 2 1).canEff (↑(5 : CanIx) : Nat) = 2) ∧
      ((canIs 2 1).canX (↑(5 : CanIx) : Nat)).integ = true ∧
        (canIs 2 1).canBusOff (↑(5 : CanIx) : Nat) = false ∧
          (canIs 2 1).role ≠ 2 ∧
            ((∃ m,
                  m ∈ (canIs 2 1).canMatch (↑(5 : CanIx) : Nat) (canF true 3) ∧
                    (m.snd = RxAction.host ∨ (canF true 3).rtr = true ∧ m.snd ≠ RxAction.drop)) ∨
                (canIs 2 1).canMatch (↑(5 : CanIx) : Nat) (canF true 3) = none ∧
                  (canIs 2 1).bit (R.CF_CFG (↑(5 : CanIx) : Nat)) F.CF_CFG_DEFAULT = true) ∧
              ((canIs 2 1).hringX (33 + 2 * (↑(5 : CanIx) : Nat))).posted = [] ∧
                ∃ e,
                  e < 256 ∧
                    ¬e ∈ ((canIs 2 1).canX (↑(5 : CanIx) : Nat)).rxOwn ∧
                      ∀ (q : Nat × CanFrame × Word),
                        q ∈ ((canIs 2 1).canX (↑(5 : CanIx) : Nat)).rxQ → q.fst ≠ e) ∧
    ((canFull.canEff (↑(5 : CanIx) : Nat) = 1 ∨ canFull.canEff (↑(5 : CanIx) : Nat) = 2) ∧
      (canFull.canX (↑(5 : CanIx) : Nat)).integ = true ∧
        canFull.canBusOff (↑(5 : CanIx) : Nat) = false ∧
          canFull.role ≠ 2 ∧
            ((∃ m,
                  m ∈ canFull.canMatch (↑(5 : CanIx) : Nat) (canF true 3) ∧
                    (m.snd = RxAction.host ∨ (canF true 3).rtr = true ∧ m.snd ≠ RxAction.drop)) ∨
                canFull.canMatch (↑(5 : CanIx) : Nat) (canF true 3) = none ∧
                  canFull.bit (R.CF_CFG (↑(5 : CanIx) : Nat)) F.CF_CFG_DEFAULT = true) ∧
              ∀ (e : Nat),
                e < 256 →
                  e ∈ (canFull.canX (↑(5 : CanIx) : Nat)).rxOwn ∨
                    ∃ q, q ∈ (canFull.canX (↑(5 : CanIx) : Nat)).rxQ ∧ q.fst = e) ∧
    ((canOff true).canEff (↑(5 : CanIx) : Nat) = 0 ∨
      ((canOff true).canX (↑(5 : CanIx) : Nat)).integ = false ∨
        (canOff true).canBusOff (↑(5 : CanIx) : Nat) = true) ∧
    ((canAbd 0 1).canEff (↑(5 : CanIx) : Nat) = 3 ∧
      ((canAbd 0 1).canX (↑(5 : CanIx) : Nat)).integ = true ∧
        (canAbd 0 1).canBusOff (↑(5 : CanIx) : Nat) = false ∧ (canF true 3).brs = true) ∧
    ((canAbd 0 1).canEff (↑(5 : CanIx) : Nat) = 3 ∧
      ((canAbd 0 1).canX (↑(5 : CanIx) : Nat)).integ = true ∧
        (canAbd 0 1).canBusOff (↑(5 : CanIx) : Nat) = false ∧
          (canF false 3).brs = false ∧
            ((canAbd 0 1).canX (↑(5 : CanIx) : Nat)).abdN = 0) ∧
    ((canAbd 1 7).canEff (↑(5 : CanIx) : Nat) = 3 ∧
      ((canAbd 1 7).canX (↑(5 : CanIx) : Nat)).integ = true ∧
        (canAbd 1 7).canBusOff (↑(5 : CanIx) : Nat) = false ∧
          (canF false 3).brs = false ∧
            ((canAbd 1 7).canX (↑(5 : CanIx) : Nat)).abdN ≠ 0 ∧
              ((canAbd 1 7).canX (↑(5 : CanIx) : Nat)).abd < 8) ∧
    ((canAbd 1 7).canEff (↑(5 : CanIx) : Nat) = 3 ∧
      (Instr.abdRestart (5 : CanIx) = Instr.abdRestart (5 : CanIx) ∧ 0 = 0 ∨
          Instr.abdRestart (5 : CanIx) = Instr.abdWindowExpiry (5 : CanIx) ∧
            0 = ((canAbd 1 7).canX (↑(5 : CanIx) : Nat)).abd + 1) ∧
        (canAbd 1 7).abdFrom (↑(5 : CanIx) : Nat) 0 = some 1) ∧
    ((canAbd 1 7).canEff (↑(5 : CanIx) : Nat) = 3 ∧
      (Instr.abdWindowExpiry (5 : CanIx) = Instr.abdRestart (5 : CanIx) ∧ 8 = 0 ∨
          Instr.abdWindowExpiry (5 : CanIx) = Instr.abdWindowExpiry (5 : CanIx) ∧
            8 = ((canAbd 1 7).canX (↑(5 : CanIx) : Nat)).abd + 1) ∧
        (canAbd 1 7).abdFrom (↑(5 : CanIx) : Nat) 8 = none) ∧
    ((canIs 2 1).canEff (↑(5 : CanIx) : Nat) ≠ 3) ∧
    ((canIs 2 0).canEff (↑(5 : CanIx) : Nat) ≠ 3 ∧
      (canIs 2 0).canBad = false ∧
        (canIs 2 0).bit (R.CF_CFG (↑(5 : CanIx) : Nat)) F.CF_CFG_USED = true ∧
          (canIs 2 0).abdFrom (↑(5 : CanIx) : Nat) 0 = some 1) := by
  refine ⟨?_, ?_, ?_, ?_, ?_, ?_, ?_, ?_, ?_, ?_, ?_, ?_, ?_, ?_, ?_⟩ <;> decide +kernel

/-- States and operands that meet the hypotheses of the clauses of `Obligations.CanTransmissionAndErrors`. -/
theorem witness_CanTransmissionAndErrors :
    ((canSend false 63 1).role ≠ 2 ∧
      ((canSend false 63 1).canFree (↑(5 : CanIx) : Nat)).canCurrent (↑(5 : CanIx) : Nat) =
        some 63) ∧
    ((canSend false 63 2).role ≠ 2 ∧
      ((canSend false 63 2).canFree (↑(5 : CanIx) : Nat)).canCurrent (↑(5 : CanIx) : Nat) =
        some 63) ∧
    ((canSend true 0 2).role ≠ 2 ∧
      ((canSend true 0 2).canFree (↑(5 : CanIx) : Nat)).canCurrent (↑(5 : CanIx) : Nat) =
        some 0) ∧
    (canHolder.role ≠ 2 ∧
      (canHolder.canFree (↑(5 : CanIx) : Nat)).canCurrent (↑(5 : CanIx) : Nat) = some 63) ∧
    ((running 2).role ≠ 2 ∧
      ((running 2).canFree (↑(15 : CanIx) : Nat)).canCurrent (↑(15 : CanIx) : Nat) = none) ∧
    (canStandby.role = 2) ∧
    ((canSend false 63 2).role ≠ 2 ∧
      ((canSend false 63 2).canFree (↑(5 : CanIx) : Nat)).canCurrent (↑(5 : CanIx) : Nat) =
          some 63 ∧
        ((canSend false 63 2).txX (↑(5 : CanIx) : Nat) 63).cancel = false) ∧
    ((canSend true 63 2).role ≠ 2 ∧
      ((canSend true 63 2).canFree (↑(5 : CanIx) : Nat)).canCurrent (↑(5 : CanIx) : Nat) =
          some 63 ∧
        ((canSend true 63 2).txX (↑(5 : CanIx) : Nat) 63).cancel = true ∧
          (canSend true 63 2).role ≠ 1) ∧
    ((canSend false 63 1).txState (↑(5 : CanIx) : Nat) (↑(63 : Fin 64) : Nat) = 1 ∧
      (canSend false 63 1).role ≠ 1 ∧
        (canSend false 63 1).role ≠ 2 ∧
          ((canSend false 63 1).txX (↑(5 : CanIx) : Nat) (↑(63 : Fin 64) : Nat)).sent =
              false ∧
            ((canSend false 63 1).txX (↑(5 : CanIx) : Nat) (↑(63 : Fin 64) : Nat)).desc =
                none ∧
              (canSend false 63 1).bit
                  (R.CF_TXE (↑(5 : CanIx) : Nat) (↑(63 : Fin 64) : Nat)) F.CF_TXE_KIND =
                false) ∧
    (canHostTx.txState (↑(5 : CanIx) : Nat) (↑(62 : Fin 64) : Nat) = 1 ∧
      canHostTx.role ≠ 1 ∧
        canHostTx.role ≠ 2 ∧
          (canHostTx.txX (↑(5 : CanIx) : Nat) (↑(62 : Fin 64) : Nat)).sent = false ∧
            (canHostTx.txX (↑(5 : CanIx) : Nat) (↑(62 : Fin 64) : Nat)).desc.isSome = true) ∧
    (canHold.txState (↑(5 : CanIx) : Nat) (↑(62 : Fin 64) : Nat) = 1 ∧
      canHold.role = 1 ∧ (canHold.txX (↑(5 : CanIx) : Nat) (↑(62 : Fin 64) : Nat)).sent = false) ∧
    (canSent.txState (↑(5 : CanIx) : Nat) (↑(63 : Fin 64) : Nat) = 1 ∧
      canSent.role ≠ 2 ∧ (canSent.txX (↑(5 : CanIx) : Nat) (↑(63 : Fin 64) : Nat)).sent = true) ∧
    (((paired 2 3).sets [(R.CF_TXE 5 63, F.CF_TXE_STATE, 1)]).txState
          (↑(5 : CanIx) : Nat) (↑(63 : Fin 64) : Nat) =
        1 ∧
      ((paired 2 3).sets [(R.CF_TXE 5 63, F.CF_TXE_STATE, 1)]).role =
        2) ∧
    ((canSend false 63 2).txState (↑(5 : CanIx) : Nat) (↑(63 : Fin 64) : Nat) = 2) ∧
    ((canSend false 63 0).txState (↑(5 : CanIx) : Nat) (↑(63 : Fin 64) : Nat) ≠ 1 ∧
      (canSend false 63 0).txState (↑(5 : CanIx) : Nat) (↑(63 : Fin 64) : Nat) ≠ 2) ∧
    ((canIs 2 0).canEff (↑(5 : CanIx) : Nat) = 0 ∨
      (canIs 2 0).canBusOff (↑(5 : CanIx) : Nat) = true) ∧
    ((canIs 2 1).canEff (↑(5 : CanIx) : Nat) ≠ 0 ∧
      (canIs 2 1).canBusOff (↑(5 : CanIx) : Nat) = false) ∧
    (((canIs 2 1).sets [(R.CF_ERRCNT 5, F.CF_ERRCNT_TEC, 248)]).canEff
          (↑(5 : CanIx) : Nat) ≠
        0 ∧
      ((canIs 2 1).sets [(R.CF_ERRCNT 5, F.CF_ERRCNT_TEC, 248)]).canBusOff
          (↑(5 : CanIx) : Nat) =
        false) ∧
    ((canSend true 63 2).canEff (↑(5 : CanIx) : Nat) ≠ 0 ∧
      (canSend true 63 2).canBusOff (↑(5 : CanIx) : Nat) = false) ∧
    ((canOff true).canBusOff (↑(5 : CanIx) : Nat) = true) ∧
    ((canIs 2 1).canBusOff (↑(5 : CanIx) : Nat) = false) ∧
    ((canOff true).canBusOff (↑(5 : CanIx) : Nat) = true ∧ ((canOff true).canX (↑(5 : CanIx) : Nat)).recov = true) ∧
    ((canOff false).canBusOff (↑(5 : CanIx) : Nat) = false ∨
      ((canOff false).canX (↑(5 : CanIx) : Nat)).recov = false) ∧
    ((canIs 2 0).canEff (↑(5 : CanIx) : Nat) = 0) ∧
    ((canIs 2 1).canEff (↑(5 : CanIx) : Nat) ≠ 0) ∧
    ((hostSession canFull).mgBar false = 0 ∧ (hostSession canFull).mgSession.snd = true) := by
  refine ⟨?_, ?_, ?_, ?_, ?_, ?_, ?_, ?_, ?_, ?_, ?_, ?_, ?_, ?_, ?_, ?_, ?_, ?_, ?_, ?_, ?_, ?_, ?_, ?_, ?_, ?_⟩ <;> decide +kernel

/-- States and operands that meet the hypotheses of the clauses of `Obligations.CanTimingOnlyWhileOffAndWithinLimits`. -/
theorem witness_CanTimingOnlyWhileOffAndWithinLimits :
    ((running 3).mode ≠ 1 ∧ (running 3).mode ≠ 2) ∧
    ((canTimed.mode = 1 ∨ canTimed.mode = 2) ∧
      canTimed.canEff (↑(5 : CanIx) : Nat) = 0 ∧
        canNbtOk (canTimed.canBrp (↑(5 : CanIx) : Nat)) ((495422 : Word) &&& (4194303 : Word)) = true ∧
          canTimed.canTimed (↑(5 : CanIx) : Nat) (canTimed.canBrp (↑(5 : CanIx) : Nat))
              ((495422 : Word) &&& (4194303 : Word)) (canTimed.rd (R.CF_DBT (↑(5 : CanIx) : Nat))) =
            true) ∧
    (((canIs 2 1).mode = 1 ∨ (canIs 2 1).mode = 2) ∧
      ¬((canIs 2 1).canEff (↑(5 : CanIx) : Nat) = 0 ∧
          canNbtOk ((canIs 2 1).canBrp (↑(5 : CanIx) : Nat))
                ((495422 : Word) &&& (4194303 : Word)) =
              true ∧
            (canIs 2 1).canTimed (↑(5 : CanIx) : Nat)
                ((canIs 2 1).canBrp (↑(5 : CanIx) : Nat)) ((495422 : Word) &&& (4194303 : Word))
                ((canIs 2 1).rd (R.CF_DBT (↑(5 : CanIx) : Nat))) =
              true)) ∧
    ((canTimed.mode = 1 ∨ canTimed.mode = 2) ∧
      canTimed.canEff (↑(5 : CanIx) : Nat) = 0 ∧
        canDbtOk (canTimed.canBrp (↑(5 : CanIx) : Nat)) ((2189 : Word) &&& (2097151 : Word)) = true ∧
          canTimed.canTimed (↑(5 : CanIx) : Nat) (canTimed.canBrp (↑(5 : CanIx) : Nat))
              (canTimed.rd (R.CF_NBT (↑(5 : CanIx) : Nat))) ((2189 : Word) &&& (2097151 : Word)) =
            true) ∧
    ((canTimed.mode = 1 ∨ canTimed.mode = 2) ∧
      ¬(canTimed.canEff (↑(5 : CanIx) : Nat) = 0 ∧
          canDbtOk (canTimed.canBrp (↑(5 : CanIx) : Nat)) ((0 : Word) &&& (2097151 : Word)) = true ∧
            canTimed.canTimed (↑(5 : CanIx) : Nat) (canTimed.canBrp (↑(5 : CanIx) : Nat))
                (canTimed.rd (R.CF_NBT (↑(5 : CanIx) : Nat))) ((0 : Word) &&& (2097151 : Word)) =
              true)) ∧
    ((canTimed.mode = 1 ∨ canTimed.mode = 2) ∧ (↑(5 : CanIx) : Nat) % 4 ≠ 0) ∧
    ((canTimed.mode = 1 ∨ canTimed.mode = 2) ∧
      (↑(12 : CanIx) : Nat) = 4 * (↑(3 : Fin 4) : Nat) ∧
        (True ↔
            ∀ (i : Nat),
              i < 4 →
                canTimed.canEff ((↑(12 : CanIx) : Nat) + i) = 0 ∧
                  (canTimed.bit (R.CF_CFG ((↑(12 : CanIx) : Nat) + i)) F.CF_CFG_USED = true →
                    canTimed.canTimed ((↑(12 : CanIx) : Nat) + i)
                        (BitVec.toNat ((0 : Word) &&& (31 : Word)) + 1)
                        (canTimed.rd (R.CF_NBT ((↑(12 : CanIx) : Nat) + i)))
                        (canTimed.rd (R.CF_DBT ((↑(12 : CanIx) : Nat) + i))) =
                      true)) ∧
          True) ∧
    (((canIs 2 1).mode = 1 ∨ (canIs 2 1).mode = 2) ∧
      (↑(4 : CanIx) : Nat) = 4 * (↑(1 : Fin 4) : Nat) ∧
        (False ↔
            ∀ (i : Nat),
              i < 4 →
                (canIs 2 1).canEff ((↑(4 : CanIx) : Nat) + i) = 0 ∧
                  ((canIs 2 1).bit (R.CF_CFG ((↑(4 : CanIx) : Nat) + i)) F.CF_CFG_USED = true →
                    (canIs 2 1).canTimed ((↑(4 : CanIx) : Nat) + i)
                        (BitVec.toNat ((31 : Word) &&& (31 : Word)) + 1)
                        ((canIs 2 1).rd (R.CF_NBT ((↑(4 : CanIx) : Nat) + i)))
                        ((canIs 2 1).rd (R.CF_DBT ((↑(4 : CanIx) : Nat) + i))) =
                      true)) ∧
          ¬False) := by
  refine ⟨?_, ?_, ?_, ?_, ?_, ?_, ?_, ?_⟩ <;> decide +kernel

/-- States and operands that meet the hypotheses of the clauses of `Obligations.TheLowerLeaseEpochMutes`. -/
theorem witness_TheLowerLeaseEpochMutes :
    ((Instr.heartbeatReceive 5 6 = Instr.heartbeatReceive 5 6 ∧
          (paired 2 2).xl.unused = false ∧ 0 = 0 ∨
        Instr.heartbeatReceive 5 6 =
            Instr.cyclicFrameReceive (2 : PortIx) 5 false false (frameOf true true 1 []) ∧
          (frameOf true true 1 []).epoch = 6 ∧
            (frameOf true true 1 []).role = 1 ∧
              (paired 2 2).frameLands (↑(2 : PortIx) : Nat) false
                    (frameOf true true 1 []) =
                  true ∧
                0 = (frameOf true true 1 []).segs.length) ∧
      (paired 2 2).paired = true ∧
        (paired 2 2).role = 1 ∧
          (BitVec.toNat ((paired 2 2).rd R.XL_EPOCH) < 6 ∨
            BitVec.toNat ((paired 2 2).rd R.XL_EPOCH) = 6 ∧
              (paired 2 2).unit = 1)) ∧
    ((Instr.heartbeatReceive 5 5 = Instr.heartbeatReceive 5 5 ∧
          (unit1 2).xl.unused = false ∧ 0 = 0 ∨
        Instr.heartbeatReceive 5 5 =
            Instr.cyclicFrameReceive (2 : PortIx) 5 false false (frameOf true true 1 []) ∧
          (frameOf true true 1 []).epoch = 5 ∧
            (frameOf true true 1 []).role = 1 ∧
              (unit1 2).frameLands (↑(2 : PortIx) : Nat) false (frameOf true true 1 []) = true ∧
                0 = (frameOf true true 1 []).segs.length) ∧
      (unit1 2).paired = true ∧
        (unit1 2).role = 1 ∧
          (BitVec.toNat ((unit1 2).rd R.XL_EPOCH) < 5 ∨
            BitVec.toNat ((unit1 2).rd R.XL_EPOCH) = 5 ∧ (unit1 2).unit = 1)) ∧
    ((Instr.heartbeatReceive 5 5 = Instr.heartbeatReceive 5 5 ∧
          (paired 2 2).xl.unused = false ∧ 0 = 0 ∨
        Instr.heartbeatReceive 5 5 =
            Instr.cyclicFrameReceive (2 : PortIx) 5 false false (frameOf true true 1 []) ∧
          (frameOf true true 1 []).epoch = 5 ∧
            (frameOf true true 1 []).role = 1 ∧
              (paired 2 2).frameLands (↑(2 : PortIx) : Nat) false
                    (frameOf true true 1 []) =
                  true ∧
                0 = (frameOf true true 1 []).segs.length) ∧
      (paired 2 2).paired = true ∧
        (paired 2 2).role = 1 ∧
          ¬(BitVec.toNat ((paired 2 2).rd R.XL_EPOCH) < 5 ∨
              BitVec.toNat ((paired 2 2).rd R.XL_EPOCH) = 5 ∧
                (paired 2 2).unit = 1)) ∧
    ((Instr.cyclicFrameReceive (2 : PortIx) 5 false false (frameOf true true 1 []) =
            Instr.heartbeatReceive 5 6 ∧
          meets.xl.unused = false ∧ 0 = 0 ∨
        Instr.cyclicFrameReceive (2 : PortIx) 5 false false (frameOf true true 1 []) =
            Instr.cyclicFrameReceive (2 : PortIx) 5 false false (frameOf true true 1 []) ∧
          (frameOf true true 1 []).epoch = 6 ∧
            (frameOf true true 1 []).role = 1 ∧
              meets.frameLands (↑(2 : PortIx) : Nat) false (frameOf true true 1 []) = true ∧
                0 = (frameOf true true 1 []).segs.length) ∧
      meets.paired = true ∧
        meets.role = 1 ∧
          (BitVec.toNat (meets.rd R.XL_EPOCH) < 6 ∨
            BitVec.toNat (meets.rd R.XL_EPOCH) = 6 ∧ meets.unit = 1)) := by
  refine ⟨?_, ?_, ?_, ?_⟩ <;> decide +kernel

/-- States and operands that meet the hypotheses of the clauses of `Obligations.HellosHeartbeatsAndTheLink`. -/
theorem witness_HellosHeartbeatsAndTheLink :
    ((paired 2 1).paired = true ∧
      (paired 2 1).bit R.XL_STATE F.XL_STATE_LINK = true ∧
        (paired 2 1).xl.conflict = false) ∧
    ((running 2).paired = false ∨
      (running 2).bit R.XL_STATE F.XL_STATE_LINK = false ∨ (running 2).xl.conflict = true) ∧
    ((notUsed 3).paired = false ∨ (notUsed 3).xl.unused = true) ∧
    (proposed.paired = true ∧ proposed.xl.unused = false ∧ proposed.role ≠ 1) ∧
    ((running 2).paired = false ∨ (running 2).xl.unused = true) ∧
    ((paired 2 3).paired = true ∧
      (paired 2 3).xl.unused = false ∧ (paired 2 3).role ≠ 1) ∧
    ((running 2).pairEn = false) ∧
    (notStarted.pairEn = true ∧ notStarted.boot.up = false) ∧
    ((unit1 2).paired = true ∧
      (if (partnerIs 2 (0 : Word)).unit = true then 1 else 0) = (unit1 2).unit) ∧
    ((paired 2 3).paired = true ∧
      (if (partnerIs 2 (9 : Word)).unit = true then 1 else 0) ≠
          (paired 2 3).unit ∧
        (partnerIs 2 (9 : Word)).imgId ≠ (paired 2 3).rd R.HI_IMG) ∧
    ((paired 2 3).paired = true ∧
      (if (partnerIs 2 (0 : Word)).unit = true then 1 else 0) ≠
          (paired 2 3).unit ∧
        (partnerIs 2 (0 : Word)).imgId = (paired 2 3).rd R.HI_IMG) ∧
    ((paired 2 1).paired = true ∧
      (if (partnerIs 2 (0 : Word)).unit = true then 1 else 0) ≠
          (paired 2 1).unit ∧
        (partnerIs 2 (0 : Word)).imgId = (paired 2 1).rd R.HI_IMG) ∧
    ((paired 2 1).paired = true ∧
      (if (partnerIs 1 (0 : Word)).unit = true then 1 else 0) ≠
          (paired 2 1).unit ∧
        (partnerIs 1 (0 : Word)).imgId = (paired 2 1).rd R.HI_IMG) ∧
    ((unit1 1).paired = true ∧
      (if
              { unit := false, state := 1, epoch := 5, imgId := (0 : Word), layout := (0 : Word),
                    ckpt := none, dies := true : Hello }.unit =
                true then
            1
          else 0) ≠
          (unit1 1).unit ∧
        { unit := false, state := 1, epoch := 5, imgId := (0 : Word), layout := (0 : Word),
              ckpt := none, dies := true : Hello }.imgId =
          (unit1 1).rd R.HI_IMG) ∧
    ((paired 2 6).pairEn = true ∧
      (paired 2 6).bit R.XL_STATE F.XL_STATE_LINK = true) ∧
    ((paired 2 3).pairEn = true ∧
      (paired 2 3).bit R.XL_STATE F.XL_STATE_LINK = true) ∧
    ((running 2).pairEn = false ∨ (running 2).bit R.XL_STATE F.XL_STATE_LINK = false) ∧
    ((paired 2 3).pairEn = true) ∧
    ((paired 2 2).pairEn = true) ∧
    ((paired 2 1).paired = true ∧
      (paired 2 1).pairState = 1 ∧
        false = false ∧ (paired 2 1).xl.heard = false) ∧
    ((paired 2 1).paired = false ∨
      (paired 2 1).pairState ≠ 1 ∨
        true = true ∨ (paired 2 1).xl.heard = true) := by
  refine ⟨?_, ?_, ?_, ?_, ?_, ?_, ?_, ?_, ?_, ?_, ?_, ?_, ?_, ?_, ?_, ?_, ?_, ?_, ?_, ?_, ?_⟩ <;> decide +kernel

/-- States and operands that meet the hypotheses of the clauses of `Obligations.TheLeaseMovesOnlyAsItMay`. -/
theorem witness_TheLeaseMovesOnlyAsItMay :
    (lostHolder.paired = true ∧ lostHolder.pairState = 3 ∧ lostHolder.holderSilent = true) ∧
    ((lone 2).paired = false ∨
      (lone 2).pairState ≠ 3 ∨ (lone 2).holderSilent = false) ∧
    (fit.paired = true ∧ fit.role = 1 ∧ fit.partnerFit = true) ∧
    ((paired 2 2).paired = true ∧
      (paired 2 2).role = 1 ∧ (paired 2 2).partnerFit = false) ∧
    (heldDig.paired = true ∧ heldDig.pairState = 3 ∧ 64 ≤ heldDig.xl.matched) ∧
    ((paired 2 3).paired = true ∧
      (paired 2 3).pairState = 3 ∧ (paired 2 3).xl.matched < 64) ∧
    ((paired 2 3).paired = true ∧ (paired 2 3).pairState = 3) ∧
    ((paired 2 5).paired = false ∨
      (paired 2 5).role ≠ 1 ∧ (paired 2 5).pairState ≠ 3) ∧
    ((paired 2 2).paired = false ∨ (paired 2 2).pairState ≠ 3) ∧
    ((Instr.resync = Instr.resync ∧
          1 = 1 ∧
            (True ↔
              (paired 2 3).paired = true ∧
                ((paired 2 3).pairState = 3 ∨
                  (paired 2 3).pairState = 4 ∧
                    (paired 2 3).fld R.XL_STAT F.XL_STAT_RS_CAUSE ≠ 4)) ∨
        Instr.resync = Instr.mute ∧
          1 = 2 ∧
            (True ↔
              (paired 2 3).paired = true ∧
                ((paired 2 3).pairState = 3 ∨
                  (paired 2 3).pairState = 5 ∨
                    (paired 2 3).pairState = 6))) ∧
      True) ∧
    ((Instr.resync = Instr.resync ∧
          1 = 1 ∧
            (False ↔
              ((paired 2 4).sets [(R.XL_STAT, F.XL_STAT_RS_CAUSE, 4)]).paired = true ∧
                (((paired 2 4).sets [(R.XL_STAT, F.XL_STAT_RS_CAUSE, 4)]).pairState =
                    3 ∨
                  ((paired 2 4).sets [(R.XL_STAT, F.XL_STAT_RS_CAUSE, 4)]).pairState =
                      4 ∧
                    ((paired 2 4).sets [(R.XL_STAT, F.XL_STAT_RS_CAUSE, 4)]).fld R.XL_STAT
                        F.XL_STAT_RS_CAUSE ≠
                      4)) ∨
        Instr.resync = Instr.mute ∧
          1 = 2 ∧
            (False ↔
              ((paired 2 4).sets [(R.XL_STAT, F.XL_STAT_RS_CAUSE, 4)]).paired = true ∧
                (((paired 2 4).sets [(R.XL_STAT, F.XL_STAT_RS_CAUSE, 4)]).pairState =
                    3 ∨
                  ((paired 2 4).sets [(R.XL_STAT, F.XL_STAT_RS_CAUSE, 4)]).pairState =
                      5 ∨
                    ((paired 2 4).sets [(R.XL_STAT, F.XL_STAT_RS_CAUSE, 4)]).pairState =
                      6))) ∧
      ¬False) ∧
    ((Instr.mute = Instr.resync ∧
          2 = 1 ∧
            (True ↔
              (paired 2 6).paired = true ∧
                ((paired 2 6).pairState = 3 ∨
                  (paired 2 6).pairState = 4 ∧
                    (paired 2 6).fld R.XL_STAT F.XL_STAT_RS_CAUSE ≠ 4)) ∨
        Instr.mute = Instr.mute ∧
          2 = 2 ∧
            (True ↔
              (paired 2 6).paired = true ∧
                ((paired 2 6).pairState = 3 ∨
                  (paired 2 6).pairState = 5 ∨
                    (paired 2 6).pairState = 6))) ∧
      True) ∧
    ((Instr.mute = Instr.resync ∧
          2 = 1 ∧
            (False ↔
              (paired 2 2).paired = true ∧
                ((paired 2 2).pairState = 3 ∨
                  (paired 2 2).pairState = 4 ∧
                    (paired 2 2).fld R.XL_STAT F.XL_STAT_RS_CAUSE ≠ 4)) ∨
        Instr.mute = Instr.mute ∧
          2 = 2 ∧
            (False ↔
              (paired 2 2).paired = true ∧
                ((paired 2 2).pairState = 3 ∨
                  (paired 2 2).pairState = 5 ∨
                    (paired 2 2).pairState = 6))) ∧
      ¬False) := by
  refine ⟨?_, ?_, ?_, ?_, ?_, ?_, ?_, ?_, ?_, ?_, ?_, ?_, ?_⟩ <;> decide +kernel

/-- States and operands that meet the hypotheses of the clauses of `Obligations.DigestsLogAndResync`. -/
theorem witness_DigestsLogAndResync :
    (heldDig.paired = true ∧
      heldDig.computes = true ∧
        heldDig.xl.unused = false ∧
          digestFor heldDig.xl.digs (0 : Word) = some (77 : Word) ∧ (77 : Word) = (77 : Word)) ∧
    (heldDig.paired = true ∧
      heldDig.computes = true ∧
        heldDig.xl.unused = false ∧
          digestFor heldDig.xl.digs (0 : Word) = some (77 : Word) ∧
            (77 : Word) ≠ (76 : Word) ∧ heldDig.pairState = 3) ∧
    ((shadowed 5).paired = true ∧
      (shadowed 5).computes = true ∧
        (shadowed 5).xl.unused = false ∧
          digestFor (shadowed 5).xl.digs (0 : Word) = some (77 : Word) ∧
            (77 : Word) ≠ (76 : Word) ∧ (shadowed 5).pairState = 6) ∧
    (holderDig.paired = true ∧
      holderDig.computes = true ∧
        holderDig.xl.unused = false ∧
          digestFor holderDig.xl.digs (0 : Word) = some (77 : Word) ∧
            (77 : Word) ≠ (76 : Word) ∧ holderDig.pairState ≠ 3 ∧ holderDig.pairState ≠ 6) ∧
    (holderDig.paired = true ∧
      holderDig.computes = true ∧ holderDig.xl.unused = false ∧ digestFor holderDig.xl.digs (1 : Word) = none) ∧
    ((paired 2 4).paired = false ∨
      (paired 2 4).computes = false ∨ (paired 2 4).xl.unused = true) ∧
    ((notUsed 3).paired = false ∨
      (notUsed 3).computes = false ∨ (notUsed 3).xl.unused = true) ∧
    (heldDig.xl.held = true) ∧
    (holderDig.xl.held = false) ∧
    ((paired 2 2).xl.unused = false ∧
      (paired 2 2).paired = true ∧
        (paired 2 2).role = 1 ∧
          { cyc := (9 : Word), lseq := (1 : Word), fromStandby := true, tag := (5 : Word),
                kind := LogKind.expiry (7 : FlowIx) 0 : LogEntry }.fromStandby =
            true) ∧
    ((paired 2 3).xl.unused = false ∧
      (paired 2 3).paired = true ∧
        (paired 2 3).role ≠ 1 ∧
          (∀ (n : Nat) (last : Word),
              { cyc := (9 : Word), lseq := (1 : Word), fromStandby := false, tag := (5 : Word),
                    kind := LogKind.expiry (7 : FlowIx) 0 : LogEntry }.kind ≠
                LogKind.close n last) ∧
            ∀ (st : Bool) (ws : List (Nat × Word)),
              { cyc := (9 : Word), lseq := (1 : Word), fromStandby := false, tag := (5 : Word),
                    kind := LogKind.expiry (7 : FlowIx) 0 : LogEntry }.kind ≠
                LogKind.copied st ws) ∧
    ((paired 2 3).xl.unused = false ∧
      (paired 2 3).paired = true ∧
        (paired 2 3).role ≠ 1 ∧
          { cyc := (9 : Word), lseq := (1 : Word), fromStandby := false, tag := (5 : Word),
                kind := LogKind.close 0 (1 : Word) : LogEntry }.kind =
            LogKind.close 0 (1 : Word)) ∧
    ((paired 2 3).xl.unused = false ∧
      (paired 2 3).paired = true ∧
        (paired 2 3).role ≠ 1 ∧
          { cyc := (9 : Word), lseq := (1 : Word), fromStandby := false, tag := (5 : Word),
                kind := LogKind.copied true [(3, (4 : Word))] : LogEntry }.kind =
            LogKind.copied true [(3, (4 : Word))]) ∧
    ((paired 2 2).xl.unused = false ∧
      ((paired 2 2).paired = false ∨
        (paired 2 2).role = 1 ∧
          { cyc := (9 : Word), lseq := (1 : Word), fromStandby := false, tag := (5 : Word),
                kind := LogKind.expiry (7 : FlowIx) 0 : LogEntry }.fromStandby =
            false)) ∧
    ((notUsed 3).xl.unused = true) ∧
    ((paired 2 2).role = 1 ∧ (paired 2 2).xl.unused = false) ∧
    ((paired 2 3).role ≠ 1) ∧
    ((resyncIs 1).pairState = 5 ∧
      (resyncIs 1).xl.unused = false ∧
        (resyncIs 1).xl.phase = 1 ∧ 134217728 ≤ 134217728) ∧
    ((resyncIs 1).pairState = 5 ∧
      (resyncIs 1).xl.unused = false ∧
        (resyncIs 1).xl.phase = 1 ∧ 134217728 < 134217729) ∧
    ((resyncIs 2).pairState = 5 ∧
      (resyncIs 2).xl.unused = false ∧ (resyncIs 2).xl.phase = 2) ∧
    ((paired 2 3).pairState ≠ 5 ∨ (paired 2 3).xl.unused = true) ∧
    ((shadowed 64).pairState = 6 ∧
      64 ≤ (shadowed 64).xl.shadow ∧
        (shadowed 64).xl.shadowT + 100000000 ≤ (shadowed 64).t0 ∧
          65535 < 65536) ∧
    ((shadowed 63).pairState ≠ 6 ∨
      (shadowed 63).xl.shadow < 64 ∨
        (shadowed 63).t0 < (shadowed 63).xl.shadowT + 100000000) ∧
    ((True ↔
        ((paired 2 4).sets [(R.XL_STAT, F.XL_STAT_RS_CAUSE, 3)]).paired = true ∧
          ((paired 2 4).sets [(R.XL_STAT, F.XL_STAT_RS_CAUSE, 3)]).pairState = 4 ∧
            ((paired 2 4).sets [(R.XL_STAT, F.XL_STAT_RS_CAUSE, 3)]).fld R.XL_STAT
                  F.XL_STAT_RS_CAUSE ≠
                0 ∧
              ((paired 2 4).sets [(R.XL_STAT, F.XL_STAT_RS_CAUSE, 3)]).fld R.XL_STAT
                  F.XL_STAT_RS_CAUSE ≠
                4) ∧
      True) ∧
    ((False ↔
        (paired 2 4).paired = true ∧
          (paired 2 4).pairState = 4 ∧
            (paired 2 4).fld R.XL_STAT F.XL_STAT_RS_CAUSE ≠ 0 ∧
              (paired 2 4).fld R.XL_STAT F.XL_STAT_RS_CAUSE ≠ 4) ∧
      ¬False) := by
  refine ⟨?_, ?_, ?_, ?_, ?_, ?_, ?_, ?_, ?_, ?_, ⟨by decide +kernel, by decide +kernel, by decide +kernel, (by intro _ _ h; cases h), by intro _ _ h; cases h⟩, ?_, ?_, ?_, ?_, ?_, ?_, ?_, ?_, ?_, ?_, ?_, ?_, ?_, ?_⟩ <;> decide +kernel

/-- States and operands that meet the hypotheses of the clauses of `Obligations.CheckpointsAndRestarts`. -/
theorem witness_CheckpointsAndRestarts :
    ((running 2).boot.copying = none) ∧
    ((copying 0).boot.copying = some ckptIs) ∧
    ((copying 1).boot.copying = some ckptIs) ∧
    ((Instr.warm = Instr.warm ∧ false = false ∨ Instr.warm = Instr.warmNockpt ∧ false = true) ∧
      (((running 2).sets [(R.KA_CMD_STAT, F.KA_CMD_STAT_BUSY, 1)]).boot.up = false ∨
        ((running 2).sets [(R.KA_CMD_STAT, F.KA_CMD_STAT_BUSY, 1)]).bit R.KA_CMD_STAT
            F.KA_CMD_STAT_BUSY =
          true)) ∧
    ((Instr.warmNockpt = Instr.warm ∧ true = false ∨ Instr.warmNockpt = Instr.warmNockpt ∧ true = true) ∧
      (running 1).boot.up = true ∧
        (running 1).bit R.KA_CMD_STAT F.KA_CMD_STAT_BUSY = false ∧
          ((running 1).mode = 1 ∨
            (running 1).mode = 2 ∨
              (running 1).stopped = true ∧
                ((running 1).fld R.TK_CTL F.TK_CTL_CAUSE).testBit 2 = true)) ∧
    ((Instr.warm = Instr.warm ∧ false = false ∨ Instr.warm = Instr.warmNockpt ∧ false = true) ∧
      ((running 0).sets
                [(R.TK_CTL, F.TK_CTL_STOPPED, 1), (R.TK_CTL, F.TK_CTL_CAUSE, 4)]).boot.up =
          true ∧
        ((running 0).sets
                  [(R.TK_CTL, F.TK_CTL_STOPPED, 1), (R.TK_CTL, F.TK_CTL_CAUSE, 4)]).bit
              R.KA_CMD_STAT F.KA_CMD_STAT_BUSY =
            false ∧
          (((running 0).sets
                  [(R.TK_CTL, F.TK_CTL_STOPPED, 1), (R.TK_CTL, F.TK_CTL_CAUSE, 4)]).mode =
              1 ∨
            ((running 0).sets
                    [(R.TK_CTL, F.TK_CTL_STOPPED, 1), (R.TK_CTL, F.TK_CTL_CAUSE, 4)]).mode =
                2 ∨
              ((running 0).sets
                      [(R.TK_CTL, F.TK_CTL_STOPPED, 1), (R.TK_CTL, F.TK_CTL_CAUSE, 4)]).stopped =
                  true ∧
                (((running 0).sets
                            [(R.TK_CTL, F.TK_CTL_STOPPED, 1), (R.TK_CTL, F.TK_CTL_CAUSE, 4)]).fld
                        R.TK_CTL F.TK_CTL_CAUSE).testBit
                    2 =
                  true)) ∧
    ((Instr.warm = Instr.warm ∧ false = false ∨ Instr.warm = Instr.warmNockpt ∧ false = true) ∧
      (running 3).boot.up = true ∧
        (running 3).bit R.KA_CMD_STAT F.KA_CMD_STAT_BUSY = false ∧
          ¬((running 3).mode = 1 ∨
              (running 3).mode = 2 ∨
                (running 3).stopped = true ∧
                  ((running 3).fld R.TK_CTL F.TK_CTL_CAUSE).testBit 2 = true)) ∧
    ((running 2).boot.restart = none) ∧
    ((restarts false).boot.restart = some (2, false)) ∧
    ((restarts true).boot.restart = some (2, false)) ∧
    ((running 2).phase ≠ 6 ∨
      (running 2).boot.use = none ∨
        (running 2).pairEn = true ∧ (running 2).pairState = 1) ∧
    (restores.phase = 6 ∧
      restores.boot.use = some true ∧
        ckptOk (if true = true then restores.boot.bufB else restores.boot.bufA) = some ckptIs ∧
          (restores.pairEn = false ∨ restores.pairState ≠ 1 ∧ restores.partnerThere = false)) ∧
    ((restoresPaired 0).phase = 6 ∧
      (restoresPaired 0).boot.use = some true ∧
        (restoresPaired 0).pairEn = true ∧
          (restoresPaired 0).pairState ≠ 1 ∧ (restoresPaired 0).partnerThere = true) ∧
    (forced.Canonical) := by
  refine ⟨?_, ?_, ?_, ?_, ?_, ?_, ?_, ?_, ?_, ?_, ?_, ?_, ?_, ?_⟩ <;> (try simp only [State.Canonical]) <;> decide +kernel

/-- States and operands that meet the hypotheses of the clauses of `Obligations.StartUpRunsItsSteps`. -/
theorem witness_StartUpRunsItsSteps :
    ((running 2).phase ≠ 2) ∧
    ((phaseIs 2 false).phase = 2 ∧ true = true) ∧
    ((phaseIs 2 false).phase = 2 ∧ false = false) ∧
    ((phaseIs 2 false).phase ≠ 2 ∨ (phaseIs 2 false).boot.trained = false) ∧
    ((phaseIs 2 true).phase = 2 ∧
      (phaseIs 2 true).boot.trained = true ∧
        secFail 0 secsGood = none ∧
          (((phaseIs 2 true).secRetries secsGood).imagePut imgIs).imageOk imgIs = true) ∧
    (((phaseIs 2 true).sets [(R.BT_STAT, F.BT_STAT_BOOTSEL, 1)]).phase = 2 ∧
      ((phaseIs 2 true).sets [(R.BT_STAT, F.BT_STAT_BOOTSEL, 1)]).boot.trained = true ∧
        secFail 0 secsBad = some (1, 8) ∧
          ((phaseIs 2 true).sets [(R.BT_STAT, F.BT_STAT_BOOTSEL, 1)]).bootsel ≠ 0) ∧
    (((phaseIs 2 true).sets [(R.BT_STAT, F.BT_STAT_BOOTSEL, 1)]).phase = 2 ∧
      ((phaseIs 2 true).sets [(R.BT_STAT, F.BT_STAT_BOOTSEL, 1)]).boot.trained = true ∧
        secFail 0 secsGood = none ∧
          ((((phaseIs 2 true).sets [(R.BT_STAT, F.BT_STAT_BOOTSEL, 1)]).secRetries
                        secsGood).imagePut
                    imgUnplaced).imageOk
                imgUnplaced =
              false ∧
            ((phaseIs 2 true).sets [(R.BT_STAT, F.BT_STAT_BOOTSEL, 1)]).bootsel ≠ 0) ∧
    ((phaseIs 4 true).phase = 4 ∧ (phaseIs 4 true).role ≠ 2) ∧
    ((running 2).phase ≠ 4 ∨ (running 2).role = 2) ∧
    (dramRuns.boot.dram = true) ∧
    (streamsRun.boot.dram = false) := by
  refine ⟨?_, ?_, ?_, ?_, ?_, ?_, ?_, ?_, ?_, ?_, ?_⟩ <;> decide +kernel

/-- States and operands that meet the hypotheses of the clauses of `Obligations.HostWritesFollowTheirAccess`. -/
theorem witness_HostWritesFollowTheirAccess :
    (hostGone.hostDown = true) ∧
    ((running 3).hostDown = false ∧
      (running 3).busWhy R.HI_IRQ0_MASK = 0 ∧
        Reg.row R.HI_IRQ0_MASK =
            some
              ((Reg.row R.HI_IRQ0_MASK).getD
                { off := 0, n := 0, stride := 0, rw := 0, w1c := 0,
                  cmd := 0, rst := 0, img := 0 : RegRow }) ∧
          R.HI_IRQ0_MASK < 32768 ∧ R.HI_IRQ0_MASK ≠ R.HI_WERR_STAT) ∧
    (((running 3).sets [(R.HI_IRQ0_STAT, word, 255)]).hostDown = false ∧
      ((running 3).sets [(R.HI_IRQ0_STAT, word, 255)]).busWhy R.HI_IRQ0_STAT = 0 ∧
        Reg.row R.HI_IRQ0_STAT =
            some
              ((Reg.row R.HI_IRQ0_STAT).getD
                { off := 0, n := 0, stride := 0, rw := 0, w1c := 0,
                  cmd := 0, rst := 0, img := 0 : RegRow }) ∧
          R.HI_IRQ0_STAT < 32768 ∧ R.HI_IRQ0_STAT ≠ R.HI_WERR_STAT) ∧
    ((running 2).hostDown = false ∧
      ([(1 : Byte), (2 : Byte), (3 : Byte), (4 : Byte)].length = 4 ∧
          0 % 4 = 0 ∧
            3 = (running 2).busWhy 0 ∧ 3 ≠ 0 ∨
        [(1 : Byte), (2 : Byte), (3 : Byte), (4 : Byte)].length ≠ 4 ∧
          [(1 : Byte), (2 : Byte), (3 : Byte), (4 : Byte)].length ≠ 8 ∧ 3 = 11)) ∧
    (((running 2).sets [(R.HI_WERR_STAT, F.HI_WERR_STAT_STATUS, 3)]).hostDown = false ∧
      ([(1 : Byte), (2 : Byte), (3 : Byte)].length = 4 ∧
          0 % 4 = 0 ∧
            11 =
                ((running 2).sets [(R.HI_WERR_STAT, F.HI_WERR_STAT_STATUS, 3)]).busWhy 0 ∧
              11 ≠ 0 ∨
        [(1 : Byte), (2 : Byte), (3 : Byte)].length ≠ 4 ∧
          [(1 : Byte), (2 : Byte), (3 : Byte)].length ≠ 8 ∧ 11 = 11)) ∧
    ((running 3).hostDown = false ∧
      (running 3).boot.up = true ∧ (running 3).role ≠ 2) ∧
    ((paired 2 3).hostDown = false ∧
      (paired 2 3).boot.up = true ∧ (paired 2 3).role = 2) ∧
    ((Instr.modeRequest (4095 : SlotIx) (1 : BitVec 3), 15, R.LE_MODE 4095) ∈
        [(Instr.modeRequest (4095 : SlotIx) (1 : BitVec 3), (↑(4095 : SlotIx) : Nat) / 256,
            R.LE_MODE (↑(4095 : SlotIx) : Nat)),
          (Instr.tpWrite (4095 : SlotIx) (7 : Fin 8) (5 : Word), (↑(4095 : SlotIx) : Nat) / 256,
            R.LE_TP (↑(4095 : SlotIx) : Nat) (↑(7 : Fin 8) : Nat)),
          (Instr.clrFault (4095 : SlotIx), (↑(4095 : SlotIx) : Nat) / 256,
            R.LE_CMD (↑(4095 : SlotIx) : Nat)),
          (Instr.clrMax (4095 : SlotIx), (↑(4095 : SlotIx) : Nat) / 256,
            R.LE_CMD (↑(4095 : SlotIx) : Nat)),
          (Instr.reengage (4095 : SlotIx), (↑(4095 : SlotIx) : Nat) / 256,
            R.LE_SUP_CMD (↑(4095 : SlotIx) : Nat)),
          (Instr.lawAddrWrite (127 : ClusterIx) (5 : Word), (↑(127 : ClusterIx) : Nat) / 8,
            R.LC_LAW_ADDR (↑(127 : ClusterIx) : Nat)),
          (Instr.lawDataWrite (127 : ClusterIx) (4095 : Fin 4096) (5 : Word),
            (↑(127 : ClusterIx) : Nat) / 8, R.LC_LAW_DATA (↑(127 : ClusterIx) : Nat)),
          (Instr.swatchStart (127 : ClusterIx) (31 : Fin 32), (↑(127 : ClusterIx) : Nat) / 8,
            R.LC_SW_CTRL (↑(127 : ClusterIx) : Nat)),
          (Instr.swatchAbort (127 : ClusterIx), (↑(127 : ClusterIx) : Nat) / 8,
            R.LC_SW_CTRL (↑(127 : ClusterIx) : Nat)),
          (Instr.senClear (127 : ClusterIx), (↑(127 : ClusterIx) : Nat) / 8,
            R.LC_SEN_CMD (↑(127 : ClusterIx) : Nat)),
          (Instr.axisStop (127 : AxisIx), (↑(127 : AxisIx) : Nat) / 8, R.AX_CMD (↑(127 : AxisIx) : Nat)),
          (Instr.axisResume (127 : AxisIx), (↑(127 : AxisIx) : Nat) / 8,
            R.AX_CMD (↑(127 : AxisIx) : Nat)),
          (Instr.axisReplan (127 : AxisIx), (↑(127 : AxisIx) : Nat) / 8,
            R.AX_CMD (↑(127 : AxisIx) : Nat)),
          (Instr.axisClrFault (127 : AxisIx), (↑(127 : AxisIx) : Nat) / 8,
            R.AX_CMD (↑(127 : AxisIx) : Nat)),
          (Instr.setPos (127 : AxisIx) (9 : BitVec 64), (↑(127 : AxisIx) : Nat) / 8,
            R.AX_CMD (↑(127 : AxisIx) : Nat)),
          (Instr.pwmCommit (191 : PairIx), (↑(191 : PairIx) : Nat) / 12,
            R.PW_COMMIT (↑(191 : PairIx) : Nat)),
          (Instr.pwGcommit (15 : RegionIx) (1 : BitVec 12), (↑(15 : RegionIx) : Nat),
            R.PW_GCOMMIT (↑(15 : RegionIx) : Nat)),
          (Instr.ceArm (15 : RegionIx) 7, (↑(15 : RegionIx) : Nat), R.CE_CTRL (↑(15 : RegionIx) : Nat)),
          (Instr.ceDisarm (15 : RegionIx) 7, (↑(15 : RegionIx) : Nat),
            R.CE_CTRL (↑(15 : RegionIx) : Nat)),
          (Instr.ceForce (15 : RegionIx) 7, (↑(15 : RegionIx) : Nat),
            R.CE_CTRL (↑(15 : RegionIx) : Nat))] ∧
      smallUnit.lacks 15 = true) ∧
    ((Instr.pwmCommit (96 : PairIx), 8, R.PW_COMMIT 96) ∈
        [(Instr.modeRequest (2048 : SlotIx) (1 : BitVec 3), (↑(2048 : SlotIx) : Nat) / 256,
            R.LE_MODE (↑(2048 : SlotIx) : Nat)),
          (Instr.tpWrite (2048 : SlotIx) (7 : Fin 8) (5 : Word), (↑(2048 : SlotIx) : Nat) / 256,
            R.LE_TP (↑(2048 : SlotIx) : Nat) (↑(7 : Fin 8) : Nat)),
          (Instr.clrFault (2048 : SlotIx), (↑(2048 : SlotIx) : Nat) / 256,
            R.LE_CMD (↑(2048 : SlotIx) : Nat)),
          (Instr.clrMax (2048 : SlotIx), (↑(2048 : SlotIx) : Nat) / 256,
            R.LE_CMD (↑(2048 : SlotIx) : Nat)),
          (Instr.reengage (2048 : SlotIx), (↑(2048 : SlotIx) : Nat) / 256,
            R.LE_SUP_CMD (↑(2048 : SlotIx) : Nat)),
          (Instr.lawAddrWrite (64 : ClusterIx) (5 : Word), (↑(64 : ClusterIx) : Nat) / 8,
            R.LC_LAW_ADDR (↑(64 : ClusterIx) : Nat)),
          (Instr.lawDataWrite (64 : ClusterIx) (4095 : Fin 4096) (5 : Word),
            (↑(64 : ClusterIx) : Nat) / 8, R.LC_LAW_DATA (↑(64 : ClusterIx) : Nat)),
          (Instr.swatchStart (64 : ClusterIx) (31 : Fin 32), (↑(64 : ClusterIx) : Nat) / 8,
            R.LC_SW_CTRL (↑(64 : ClusterIx) : Nat)),
          (Instr.swatchAbort (64 : ClusterIx), (↑(64 : ClusterIx) : Nat) / 8,
            R.LC_SW_CTRL (↑(64 : ClusterIx) : Nat)),
          (Instr.senClear (64 : ClusterIx), (↑(64 : ClusterIx) : Nat) / 8,
            R.LC_SEN_CMD (↑(64 : ClusterIx) : Nat)),
          (Instr.axisStop (127 : AxisIx), (↑(127 : AxisIx) : Nat) / 8, R.AX_CMD (↑(127 : AxisIx) : Nat)),
          (Instr.axisResume (127 : AxisIx), (↑(127 : AxisIx) : Nat) / 8,
            R.AX_CMD (↑(127 : AxisIx) : Nat)),
          (Instr.axisReplan (127 : AxisIx), (↑(127 : AxisIx) : Nat) / 8,
            R.AX_CMD (↑(127 : AxisIx) : Nat)),
          (Instr.axisClrFault (127 : AxisIx), (↑(127 : AxisIx) : Nat) / 8,
            R.AX_CMD (↑(127 : AxisIx) : Nat)),
          (Instr.setPos (127 : AxisIx) (9 : BitVec 64), (↑(127 : AxisIx) : Nat) / 8,
            R.AX_CMD (↑(127 : AxisIx) : Nat)),
          (Instr.pwmCommit (96 : PairIx), (↑(96 : PairIx) : Nat) / 12,
            R.PW_COMMIT (↑(96 : PairIx) : Nat)),
          (Instr.pwGcommit (8 : RegionIx) (1 : BitVec 12), (↑(8 : RegionIx) : Nat),
            R.PW_GCOMMIT (↑(8 : RegionIx) : Nat)),
          (Instr.ceArm (8 : RegionIx) 7, (↑(8 : RegionIx) : Nat), R.CE_CTRL (↑(8 : RegionIx) : Nat)),
          (Instr.ceDisarm (8 : RegionIx) 7, (↑(8 : RegionIx) : Nat), R.CE_CTRL (↑(8 : RegionIx) : Nat)),
          (Instr.ceForce (8 : RegionIx) 7, (↑(8 : RegionIx) : Nat), R.CE_CTRL (↑(8 : RegionIx) : Nat))] ∧
      smallUnit.lacks 8 = true) ∧
    ((running 2).hostDown = false ∧
      (running 2).boot.up = true ∧
        65536 ≤ 67108863 ∧
          67108863 < 67108864 ∧ (running 2).rcpProtects 67108863 = false) ∧
    (laneFree.hostDown = false ∧
      laneFree.boot.up = true ∧
        65536 ≤ 65536 ∧
          65536 < 67108864 ∧ laneFree.rcpProtects 65536 = true) := by
  refine ⟨?_, ?_, ?_, ?_, ?_, ?_, ?_, ?_, ?_, ?_, ?_⟩ <;> decide +kernel

/-- States and operands that meet the hypotheses of the clauses of `Obligations.RingsAndTheHostLink`. -/
theorem witness_RingsAndTheHostLink :
    ((running 2).hostDown = true ∨
      (running 2).boot.up = false ∨
        (running 2).bit (R.HI_RING_CTRL (↑(63 : HRingIx) : Nat)) F.HI_RING_CTRL_EN = false ∨
          ringHeld (↑(63 : HRingIx) : Nat) = true ∧ (running 2).role = 2) ∧
    ((running 2).hostDown = false ∧ (running 2).boot.up = true) ∧
    (Instr.ringDoorbell (31 : HRingIx) (65535 : Word) [slotD, default] ∈
        [Instr.ringReread (31 : HRingIx) [slotD, default],
          Instr.ringDoorbell (31 : HRingIx) (65535 : Word) [slotD, default]] ∧
      (ringIs 31).hostDown = false ∧
        (ringIs 31).boot.up = true ∧
          (ringIs 31).bit (R.HI_RING_CTRL (↑(31 : HRingIx) : Nat)) F.HI_RING_CTRL_EN = true ∧
            (16 ≤ (↑(31 : HRingIx) : Nat) ∧ (↑(31 : HRingIx) : Nat) < 32 ∨
              8 ≤ (↑(31 : HRingIx) : Nat) ∧
                (↑(31 : HRingIx) : Nat) < 16 ∧
                  ((ringIs 31).hringX ((↑(31 : HRingIx) : Nat) - 8)).wait = [] ∧
                    (ringIs 31).role ≠ 2)) ∧
    (Instr.ringReread (16 : HRingIx) [slotD] ∈
        [Instr.ringReread (16 : HRingIx) [slotD], Instr.ringDoorbell (16 : HRingIx) (0 : Word) [slotD]] ∧
      (ringIs 16).hostDown = false ∧
        (ringIs 16).boot.up = true ∧
          (ringIs 16).bit (R.HI_RING_CTRL (↑(16 : HRingIx) : Nat)) F.HI_RING_CTRL_EN = true ∧
            (16 ≤ (↑(16 : HRingIx) : Nat) ∧ (↑(16 : HRingIx) : Nat) < 32 ∨
              8 ≤ (↑(16 : HRingIx) : Nat) ∧
                (↑(16 : HRingIx) : Nat) < 16 ∧
                  ((ringIs 16).hringX ((↑(16 : HRingIx) : Nat) - 8)).wait = [] ∧
                    (ringIs 16).role ≠ 2)) ∧
    (Instr.ringReread (8 : HRingIx) [slotD] ∈
        [Instr.ringReread (8 : HRingIx) [slotD], Instr.ringDoorbell (8 : HRingIx) (0 : Word) [slotD]] ∧
      (ringIs 8).hostDown = false ∧
        (ringIs 8).boot.up = true ∧
          (ringIs 8).bit (R.HI_RING_CTRL (↑(8 : HRingIx) : Nat)) F.HI_RING_CTRL_EN = true ∧
            (16 ≤ (↑(8 : HRingIx) : Nat) ∧ (↑(8 : HRingIx) : Nat) < 32 ∨
              8 ≤ (↑(8 : HRingIx) : Nat) ∧
                (↑(8 : HRingIx) : Nat) < 16 ∧
                  ((ringIs 8).hringX ((↑(8 : HRingIx) : Nat) - 8)).wait = [] ∧
                    (ringIs 8).role ≠ 2)) ∧
    (ringBoth.hostDown = false ∧
      ringBoth.boot.up = true ∧
        ringBoth.role ≠ 2 ∧
          (↑(7 : HRingIx) : Nat) < 8 ∧
            ringBoth.bit (R.HI_RING_CTRL (↑(7 : HRingIx) : Nat)) F.HI_RING_CTRL_EN = true ∧
              slotD.own = true ∧
                slotD.chain = false ∧
                  slotD.opc ≠ 1 ∧
                    slotD.opc ≠ 2 ∧
                      ringBoth.ringServed (8 + (↑(7 : HRingIx) : Nat)) = true ∧
                        (ringBoth.hringX (8 + (↑(7 : HRingIx) : Nat))).resv <
                          (ringBoth.hringX (8 + (↑(7 : HRingIx) : Nat))).posted.length) ∧
    (ringBoth.hostDown = false ∧
      ringBoth.boot.up = true ∧
        ringBoth.role ≠ 2 ∧
          (↑(7 : HRingIx) : Nat) < 8 ∧
            ringBoth.bit (R.HI_RING_CTRL (↑(7 : HRingIx) : Nat)) F.HI_RING_CTRL_EN = true ∧
              slotNop.own = true ∧
                slotNop.chain = false ∧
                  ringBoth.ringServed (8 + (↑(7 : HRingIx) : Nat)) = true ∧
                    (ringBoth.hringX (8 + (↑(7 : HRingIx) : Nat))).resv <
                      (ringBoth.hringX (8 + (↑(7 : HRingIx) : Nat))).posted.length) ∧
    ((ringIs 7).hostDown = false ∧
      (ringIs 7).boot.up = true ∧
        (ringIs 7).role ≠ 2 ∧
          (↑(7 : HRingIx) : Nat) < 8 ∧
            (ringIs 7).bit (R.HI_RING_CTRL (↑(7 : HRingIx) : Nat)) F.HI_RING_CTRL_EN = true ∧
              slotD.own = true ∧
                slotD.chain = false ∧
                  ((ringIs 7).hringX (8 + (↑(7 : HRingIx) : Nat))).posted.length ≤
                    ((ringIs 7).hringX (8 + (↑(7 : HRingIx) : Nat))).resv) ∧
    ((ringIs 63).hostDown = false ∧
      (ringIs 63).boot.up = true ∧
        (ringIs 63).role ≠ 2 ∧
          (↑(63 : HRingIx) : Nat) = 33 + 2 * (↑(15 : CanIx) : Nat) ∧
            (ringIs 63).bit (R.HI_RING_CTRL (↑(63 : HRingIx) : Nat)) F.HI_RING_CTRL_EN = true ∧
              ((ringIs 63).canX (↑(15 : CanIx) : Nat)).rxQ = []) ∧
    ((ringIs 62).hostDown = false ∧
      (ringIs 62).boot.up = true ∧
        (ringIs 62).role ≠ 2 ∧
          (↑(62 : HRingIx) : Nat) = 32 + 2 * (↑(15 : CanIx) : Nat) ∧
            (ringIs 62).bit (R.HI_RING_CTRL (↑(62 : HRingIx) : Nat)) F.HI_RING_CTRL_EN = true ∧
              slotD.own = true) ∧
    ((ringIs 63).bit (R.HI_RING_CTRL (↑(63 : HRingIx) : Nat)) F.HI_RING_CTRL_EN = true) ∧
    ((ringIs 7).bit (R.HI_RING_CTRL (↑(63 : HRingIx) : Nat)) F.HI_RING_CTRL_EN = false) ∧
    (64 = (running 2).fld (R.HI_RING_CFG (↑(63 : HRingIx) : Nat)) F.HI_RING_CFG_VEC ∧
      (((running 2).hringX (↑(63 : HRingIx) : Nat)).irqs = 0 ∨
        (running 2).fld (R.HI_RING_IRQ (↑(63 : HRingIx) : Nat)) F.HI_RING_IRQ_TIME_US = 0)) ∧
    (31 = (ringIrq 0).fld (R.HI_RING_CFG (↑(20 : HRingIx) : Nat)) F.HI_RING_CFG_VEC ∧
      ((ringIrq 0).hringX (↑(20 : HRingIx) : Nat)).irqs ≠ 0 ∧
        (ringIrq 0).fld (R.HI_RING_IRQ (↑(20 : HRingIx) : Nat)) F.HI_RING_IRQ_TIME_US ≠ 0) ∧
    (31 = (ringIrq 1).fld (R.HI_RING_CFG (↑(20 : HRingIx) : Nat)) F.HI_RING_CFG_VEC ∧
      ((ringIrq 1).hringX (↑(20 : HRingIx) : Nat)).irqs ≠ 0 ∧
        (ringIrq 1).fld (R.HI_RING_IRQ (↑(20 : HRingIx) : Nat)) F.HI_RING_IRQ_TIME_US ≠ 0) ∧
    (hostGone.hostDown = true) ∧
    ((hostSession ringBoth).hostDown = false) ∧
    ((running 2).hostDown = false) := by
  refine ⟨?_, ?_, ?_, ?_, ?_, ?_, ?_, ?_, ?_, ?_, ?_, ?_, ?_, ?_, ?_, ?_, ?_, ?_⟩ <;> decide +kernel

/-- States and operands that meet the hypotheses of the clauses of `Obligations.HostCommandsTakeEffectAndComplete`. -/
theorem witness_HostCommandsTakeEffectAndComplete :
    (4448252 = 4440064 + 4 * (↑(2047 : Fin 2048) : Nat) ∧
      (ring8 1).boot.up = true ∧
        (false = true ↔ (ring8 1).mode ≠ 1 ∧ (ring8 1).mode ≠ 2)) ∧
    (4440064 = 4440064 + 4 * (↑(0 : Fin 2048) : Nat) ∧
      (ring8 3).boot.up = true ∧
        (true = true ↔ (ring8 3).mode ≠ 1 ∧ (ring8 3).mode ≠ 2)) ∧
    (4448252 = 4440064 + 4 * (↑(2047 : Fin 2048) : Nat) ∧
      (↑(2047 : Fin 2048) : Nat) + [(9 : Word)].length ≤ 2048 ∧
        1 ≤ [(9 : Word)].length ∧
          [(9 : Word)].length ≤ 256 ∧
            (ring8 2).boot.up = true ∧
              ((ring8 2).mode = 1 ∨ (ring8 2).mode = 2)) ∧
    (4448248 = 4440064 + 4 * (↑(2046 : Fin 2048) : Nat) ∧
      (↑(2046 : Fin 2048) : Nat) + 2 ≤ 2048 ∧
        1 ≤ 2 ∧
          2 ≤ 1024 ∧ (ring8 3).boot.up = true ∧ (ring8 3).acts = true) ∧
    (Instr.write 1 (0 : Word) (0 : Word) ∈
        [Instr.write 1 (0 : Word) (0 : Word), Instr.writeBlock 1 [],
          Instr.readBlock 1 1] ∧
      1 < 2 ^ 32 ∧ 1 % 4 ≠ 0) ∧
    ((ring8 2).bit (R.FL_CFG (↑(1023 : FlowIx) : Nat)) F.FL_CFG_USED = false ∨ 64 < ([] : List Byte).length) ∧
    ((flowIs 1).bit (R.FL_CFG (↑(7 : FlowIx) : Nat)) F.FL_CFG_USED = false ∨
      64 < (List.replicate 65 (0 : Byte)).length) ∧
    (flowLate.bit (R.FL_CFG (↑(7 : FlowIx) : Nat)) F.FL_CFG_USED = true ∧
      (List.replicate 64 (0 : Byte)).length ≤ 64 ∧
        flowLate.flowTask (↑(7 : FlowIx) : Nat) = some 4 ∧
          flowLate.taskState (flowLate.flowRegion (↑(7 : FlowIx) : Nat)) 4 ≠ 0 ∧
            flowLate.stopped = false ∧ flowLate.cyc.items = some []) ∧
    (flowIn.bit (R.FL_CFG (↑(7 : FlowIx) : Nat)) F.FL_CFG_USED = true ∧
      (List.replicate 64 (0 : Byte)).length ≤ 64 ∧
        flowIn.flowTask (↑(7 : FlowIx) : Nat) = some 4 ∧
          flowIn.taskState (flowIn.flowRegion (↑(7 : FlowIx) : Nat)) 4 ≠ 0 ∧
            flowIn.stopped = false ∧
              flowIn.cyc.items = none ∧
                flowIn.flowState (↑(7 : FlowIx) : Nat) = 1 ∧
                  flowIn.flowOver (↑(7 : FlowIx) : Nat) = false ∧
                    flowIn.fld R.TK_HUB_STAT F.TK_HUB_STAT_QLEN < 4096) ∧
    (flowNone.bit (R.FL_CFG (↑(7 : FlowIx) : Nat)) F.FL_CFG_USED = true ∧
      (List.replicate 64 (0 : Byte)).length ≤ 64 ∧
        flowNone.flowTask (↑(7 : FlowIx) : Nat) = some 4 ∧
          flowNone.taskState (flowNone.flowRegion (↑(7 : FlowIx) : Nat)) 4 ≠ 0 ∧
            flowNone.stopped = false ∧
              flowNone.cyc.items = none ∧
                flowNone.flowState (↑(7 : FlowIx) : Nat) ≠ 1 ∧
                  flowNone.flowOver (↑(7 : FlowIx) : Nat) = false ∧
                    flowNone.dieState (flowNone.flowRegion (↑(7 : FlowIx) : Nat) / 4) = 0) := by
  refine ⟨?_, ?_, ?_, ?_, ?_, ?_, ?_, ?_, ?_, ?_⟩ <;> decide +kernel

/-- States and operands that meet the hypotheses of the clauses of `Obligations.MemoryErrorsAndRunningChecks`. -/
theorem witness_MemoryErrorsAndRunningChecks :
    ((↑(3 : Fin 7) : Nat) < 4 ∧ dieGone.dieRuns (↑(3 : Fin 7) : Nat) = false) ∧
    ((memOf (MemLoc.dieTables (3 : DieIx))).fst < 4 ∧
      dieGone.dieRuns (memOf (MemLoc.dieTables (3 : DieIx))).fst = false) ∧
    (4 ≤ (↑(6 : Fin 7) : Nat) ∨ (running 2).dieRuns (↑(6 : Fin 7) : Nat) = true) ∧
    (4 ≤ (↑(0 : Fin 7) : Nat) ∨ memDouble.dieRuns (↑(0 : Fin 7) : Nat) = true) ∧
    (4 ≤ (memOf (MemLoc.slot (5 : SlotIx))).fst ∨
      slot5.dieRuns (memOf (MemLoc.slot (5 : SlotIx))).fst = true) ∧
    (4 ≤ (memOf (MemLoc.dieTables (3 : DieIx))).fst ∨
      (running 2).dieRuns (memOf (MemLoc.dieTables (3 : DieIx))).fst = true) ∧
    (4 ≤ (memOf (MemLoc.ckpt true)).fst ∨ restores.dieRuns (memOf (MemLoc.ckpt true)).fst = true) ∧
    (4 ≤ (memOf (MemLoc.nodeStore (15 : RegionIx) (8191 : Fin 8192))).fst ∨
      (running 2).dieRuns (memOf (MemLoc.nodeStore (15 : RegionIx) (8191 : Fin 8192))).fst = true) ∧
    (4 ≤ (memOf MemLoc.backup).fst ∨ (running 2).dieRuns (memOf MemLoc.backup).fst = true) ∧
    (4 ≤ (memOf MemLoc.journal).fst ∨ (resyncIs 1).dieRuns (memOf MemLoc.journal).fst = true) ∧
    (4 ≤ (memOf (MemLoc.hubRing (15 : HRingIx))).fst ∨
      ringBoth.dieRuns (memOf (MemLoc.hubRing (15 : HRingIx))).fst = true) ∧
    (4 ≤ (memOf MemLoc.hubStaging).fst ∨ specOpen.dieRuns (memOf MemLoc.hubStaging).fst = true) ∧
    (4 ≤ (memOf (MemLoc.capture (2 : RegionIx))).fst ∨
      (ceGoes 3 ceRows (some (250, 1))).dieRuns
          (memOf (MemLoc.capture (2 : RegionIx))).fst =
        true) ∧
    (4 ≤ (memOf (MemLoc.recipe (0 : LaneIx) false)).fst ∨
      (laneIs 1).dieRuns (memOf (MemLoc.recipe (0 : LaneIx) false)).fst = true) ∧
    (4 ≤ (↑(6 : Fin 7) : Nat) ∨
      ((running 2).sets [(R.CV_SCRUB, word, 4294967295)]).dieRuns (↑(6 : Fin 7) : Nat) =
        true) ∧
    (4 ≤ (↑(5 : Fin 7) : Nat) ∨ (running 2).dieRuns (↑(5 : Fin 7) : Nat) = true) ∧
    (bistIs.regionHeld ((↑(127 : ClusterIx) : Nat) / 8) = true ∨
      bistIs.dieState ((↑(127 : ClusterIx) : Nat) / 32) ≠ 0) ∧
    ((senIs 99).regionHeld ((↑(0 : ClusterIx) : Nat) / 8) = false ∧
      (senIs 99).dieState ((↑(0 : ClusterIx) : Nat) / 32) = 0) ∧
    (100 ≤ (senIs 100).senPasses (↑(0 : ClusterIx) : Nat)) ∧
    ((senIs 99).senPasses (↑(0 : ClusterIx) : Nat) < 100) ∧
    ((running 2).dieRuns ((↑(15 : RegionIx) : Nat) / 4) = false ∨
      (running 2).img.loaded = false ∨ (running 2).regionHeld (↑(15 : RegionIx) : Nat) = true) ∧
    (imgGood.dieRuns ((↑(15 : RegionIx) : Nat) / 4) = true ∧
      imgGood.img.loaded = true ∧
        imgGood.regionHeld (↑(15 : RegionIx) : Nat) = false ∧
          (0 =
              if
                  imgGood.fld (R.NE_CHK_POS (↑(15 : RegionIx) : Nat)) F.NE_CHK_POS_PASSES = 0 ∧
                      imgGood.integ.checked.contains (↑(15 : RegionIx) : Nat) = false ∨
                    64 ≤ imgGood.fld (R.NE_CHK_POS (↑(15 : RegionIx) : Nat)) F.NE_CHK_POS_AREA then
                0
              else imgGood.fld (R.NE_CHK_POS (↑(15 : RegionIx) : Nat)) F.NE_CHK_POS_AREA + 1) ∧
            imgGood.areaGood (↑(15 : RegionIx) : Nat) 0 = true ∧ true = true) ∧
    (imgGood.dieRuns ((↑(15 : RegionIx) : Nat) / 4) = true ∧
      imgGood.img.loaded = true ∧
        imgGood.regionHeld (↑(15 : RegionIx) : Nat) = false ∧
          (0 =
              if
                  imgGood.fld (R.NE_CHK_POS (↑(15 : RegionIx) : Nat)) F.NE_CHK_POS_PASSES = 0 ∧
                      imgGood.integ.checked.contains (↑(15 : RegionIx) : Nat) = false ∨
                    64 ≤ imgGood.fld (R.NE_CHK_POS (↑(15 : RegionIx) : Nat)) F.NE_CHK_POS_AREA then
                0
              else imgGood.fld (R.NE_CHK_POS (↑(15 : RegionIx) : Nat)) F.NE_CHK_POS_AREA + 1) ∧
            imgGood.areaGood (↑(15 : RegionIx) : Nat) 0 = true ∧ false = false ∧ true = true) ∧
    (imgGood.dieRuns ((↑(15 : RegionIx) : Nat) / 4) = true ∧
      imgGood.img.loaded = true ∧
        imgGood.regionHeld (↑(15 : RegionIx) : Nat) = false ∧
          (0 =
              if
                  imgGood.fld (R.NE_CHK_POS (↑(15 : RegionIx) : Nat)) F.NE_CHK_POS_PASSES = 0 ∧
                      imgGood.integ.checked.contains (↑(15 : RegionIx) : Nat) = false ∨
                    64 ≤ imgGood.fld (R.NE_CHK_POS (↑(15 : RegionIx) : Nat)) F.NE_CHK_POS_AREA then
                0
              else imgGood.fld (R.NE_CHK_POS (↑(15 : RegionIx) : Nat)) F.NE_CHK_POS_AREA + 1) ∧
            (false = false ∧ false = false ∨ imgGood.areaGood (↑(15 : RegionIx) : Nat) 0 = false)) := by
  refine ⟨?_, ?_, ?_, ?_, ?_, ?_, ?_, ?_, ?_, ?_, ?_, ?_, ?_, ?_, ?_, ?_, ?_, ?_, ?_, ?_, ?_, ?_, ?_, ?_⟩ <;> decide +kernel

/-- States and operands that meet the hypotheses of the clauses of `Obligations.CheckValuesAndSelfTest`. -/
theorem witness_CheckValuesAndSelfTest :
    ((Instr.cvInit = Instr.cvInit ∧ (running 1).cvPoly.init = (running 1).cvPoly.init ∨
        Instr.cvInit = Instr.cvData (4660 : Word) ∧
            (running 1).cvBusy = false ∧
              (running 1).cvPoly.init =
                Crc.run (running 1).cvPoly (running 1).cvValue (Word.bytes (4660 : Word)) ∨
          Instr.cvInit = Instr.cvDataB (86 : Byte) ∧
            (running 1).cvBusy = false ∧
              (running 1).cvPoly.init =
                Crc.run (running 1).cvPoly (running 1).cvValue [(86 : Byte)]) ∧
      R.CV_VALUE_LO = R.CV_VALUE_LO) ∧
    ((Instr.cvDataB (86 : Byte) = Instr.cvInit ∧
          Crc.run (running 1).cvPoly (running 1).cvValue [(86 : Byte)] =
            (running 1).cvPoly.init ∨
        Instr.cvDataB (86 : Byte) = Instr.cvData (4660 : Word) ∧
            (running 1).cvBusy = false ∧
              Crc.run (running 1).cvPoly (running 1).cvValue [(86 : Byte)] =
                Crc.run (running 1).cvPoly (running 1).cvValue (Word.bytes (4660 : Word)) ∨
          Instr.cvDataB (86 : Byte) = Instr.cvDataB (86 : Byte) ∧
            (running 1).cvBusy = false ∧
              Crc.run (running 1).cvPoly (running 1).cvValue [(86 : Byte)] =
                Crc.run (running 1).cvPoly (running 1).cvValue [(86 : Byte)]) ∧
      R.CV_VALUE_LO = R.CV_VALUE_LO) ∧
    (Instr.cvData (5 : Word) ∈ [Instr.cvData (5 : Word), Instr.cvDataB (6 : Byte)] ∧ cvBusy.cvBusy = true) ∧
    (cvBusy.cvBusy = true) ∧
    ((running 1).cvBusy = false) ∧
    (cvBusy.cvBusy = true ∧
      0 = 8 * cvBusy.fld R.CV_DMA_ADDR F.CV_DMA_ADDR_ADDR ∧
        2 = cvBusy.fld R.CV_DMA_LEN F.CV_DMA_LEN_BYTES) ∧
    ((running 0).mode = 0 ∨ (running 0).mode = 1) ∧
    ((running 3).mode ≠ 0 ∧ (running 3).mode ≠ 1) ∧
    ((chIs 0).bit R.CV_CTL F.CV_CTL_MODE = true) ∧
    (((running 1).sets [(R.CV_CTL, F.CV_CTL_MODE, 0)]).bit R.CV_CTL F.CV_CTL_MODE = false) ∧
    ((chIs 0).bit (R.CV_CH_STAT (↑(7 : Fin 8) : Nat)) F.CV_CH_STAT_BUSY = false) ∧
    ((chIs 1).bit (R.CV_CH_STAT (↑(7 : Fin 8) : Nat)) F.CV_CH_STAT_BUSY = true ∧
      0 = 8 * BitVec.toNat ((chIs 1).rd (R.CV_CH_ADDR (↑(7 : Fin 8) : Nat))) ∧
        3 = (chIs 1).fld (R.CV_CH_LEN (↑(7 : Fin 8) : Nat)) F.CV_CH_LEN_BYTES ∧
          Crc.of ((chIs 1).fld (R.CV_CH_CFG 7) F.CV_CH_CFG_POLY)
              ((chIs 1).dbytes 0 3) =
            Crc.of ((chIs 1).fld (R.CV_CH_CFG (↑(7 : Fin 8) : Nat)) F.CV_CH_CFG_POLY)
              ((chIs 1).dbytes 0 3)) ∧
    ((running 2).mode ≠ 0 ∧ (running 2).mode ≠ 1) ∧
    (((slot5.sets [(R.LE_MODE 5, F.LE_MODE_EFF, 2)]).mode = 0 ∨
        (slot5.sets [(R.LE_MODE 5, F.LE_MODE_EFF, 2)]).mode = 1) ∧
      (slot5.sets [(R.LE_MODE 5, F.LE_MODE_EFF, 2)]).integ.bist.contains (↑(0 : RegionIx) : Nat) =
          false ∧
        (slot5.sets [(R.LE_MODE 5, F.LE_MODE_EFF, 2)]).dieState
              ((↑(0 : RegionIx) : Nat) / 4) =
            0 ∧
          (slot5.sets [(R.LE_MODE 5, F.LE_MODE_EFF, 2)]).bistActive (↑(0 : RegionIx) : Nat) = true) ∧
    (((running 0).mode = 0 ∨ (running 0).mode = 1) ∧
      (running 0).integ.bist.contains (↑(15 : RegionIx) : Nat) = false ∧
        (running 0).dieState ((↑(15 : RegionIx) : Nat) / 4) = 0 ∧
          (running 0).bistActive (↑(15 : RegionIx) : Nat) = false) ∧
    ((running 1).integ.bist.contains (↑(15 : RegionIx) : Nat) = false ∨
      (running 1).dieRuns ((↑(15 : RegionIx) : Nat) / 4) = false) ∧
    (bistIs.integ.bist.contains (↑(15 : RegionIx) : Nat) = true ∧
      bistIs.dieRuns ((↑(15 : RegionIx) : Nat) / 4) = true) := by
  refine ⟨?_, ?_, ?_, ?_, ?_, ?_, ?_, ?_, ?_, ?_, ?_, ?_, ?_, ?_, ?_, ?_, ?_⟩ <;> decide +kernel

/-- States and operands that meet the hypotheses of the clauses of `Obligations.SessionsAndProposals`. -/
theorem witness_SessionsAndProposals :
    (Instr.confirm Principal.host (7 : PropIx) (0 : BitVec 384) ∈
        [Instr.authNonce Principal.host, Instr.auth Principal.host [],
          Instr.confirm Principal.host (7 : PropIx) (0 : BitVec 384)] ∧
      coreDown.mgBar true ≠ 0) ∧
    ((running 1).mgBar true = 0 ∧ classOf Principal.console ≤ 1) ∧
    (Instr.auth Principal.key [] ∈ [Instr.authNonce Principal.key, Instr.auth Principal.key []] ∧
      (running 1).mgBar true = 0 ∧ 1 < classOf Principal.key) ∧
    (locked.mgBar true = 0 ∧ classOf Principal.host ≤ 1 ∧ locked.mg.locked = true) ∧
    (failing.mgBar true = 0 ∧
      classOf Principal.host ≤ 1 ∧
        failing.mg.locked = false ∧ failing.authSlot (classOf Principal.host) [] = none) ∧
    ((mgIs []).mgBar false = 0) ∧
    (Instr.consoleDisconnect = Instr.sessionTimeout Principal.console ∨
      Instr.consoleDisconnect = Instr.consoleDisconnect ∧ Principal.console = Principal.console) ∧
    (Instr.sessionTimeout Principal.host = Instr.sessionTimeout Principal.host ∨
      Instr.sessionTimeout Principal.host = Instr.consoleDisconnect ∧ Principal.host = Principal.console) ∧
    ((running 1).mgBar (decide (itemCode (Item.rtcWrite 5) = 1)) = 0 ∧
      classOf Principal.host ≤ 1 ∧ (running 1).mgOpen (classOf Principal.host) = false) ∧
    ((mgIs []).mgBar (decide (itemCode Item.take = 1)) = 0 ∧
      classOf Principal.host ≤ 1 ∧
        (mgIs []).mgOpen (classOf Principal.host) = true ∧ (mgIs []).itemStatus Item.take ≠ 0) ∧
    ((mgIs []).mgBar (decide (itemCode (Item.rtcWrite 6) = 1)) = 0 ∧
      classOf Principal.host ≤ 1 ∧
        (mgIs []).mgOpen (classOf Principal.host) = true ∧
          (mgIs []).itemStatus (Item.rtcWrite 6) = 0 ∧
            (∀ (e : Nat × PropX),
                e ∈ (mgIs []).mg.props →
                  itemCode e.snd.item = itemCode (Item.rtcWrite 6) →
                    itemTarget e.snd.item ≠ itemTarget (Item.rtcWrite 6)) ∧
              0 < 8 ∧
                (∀ (j : Nat), j < 0 → Smap.find (mgIs []).mg.props j ≠ none) ∧
                  Smap.find (mgIs []).mg.props 0 = none) ∧
    ((mgIs (List.map (fun k => (k, itemU)) (List.range 7))).mgBar
          (decide (itemCode (Item.dieFence (3 : DieIx)) = 1)) =
        0 ∧
      classOf Principal.console ≤ 1 ∧
        (mgIs (List.map (fun k => (k, itemU)) (List.range 7))).mgOpen (classOf Principal.console) = true ∧
          (mgIs (List.map (fun k => (k, itemU)) (List.range 7))).itemStatus (Item.dieFence (3 : DieIx)) =
              0 ∧
            (∀ (e : Nat × PropX),
                e ∈ (mgIs (List.map (fun k => (k, itemU)) (List.range 7))).mg.props →
                  itemCode e.snd.item = itemCode (Item.dieFence (3 : DieIx)) →
                    itemTarget e.snd.item ≠ itemTarget (Item.dieFence (3 : DieIx))) ∧
              7 < 8 ∧
                (∀ (j : Nat),
                    j < 7 →
                      Smap.find (mgIs (List.map (fun k => (k, itemU)) (List.range 7))).mg.props j ≠
                        none) ∧
                  Smap.find (mgIs (List.map (fun k => (k, itemU)) (List.range 7))).mg.props 7 =
                    none) ∧
    ((mgIs [(7, itemU)]).mgBar (decide (itemCode (Item.rtcWrite 5) = 1)) = 0 ∧
      classOf Principal.host ≤ 1 ∧
        (mgIs [(7, itemU)]).mgOpen (classOf Principal.host) = true ∧
          (mgIs [(7, itemU)]).itemStatus (Item.rtcWrite 5) = 0 ∧
            ∃ e,
              e ∈ (mgIs [(7, itemU)]).mg.props ∧
                itemCode e.snd.item = itemCode (Item.rtcWrite 5) ∧
                  itemTarget e.snd.item = itemTarget (Item.rtcWrite 5)) ∧
    ((mgIs [(7, itemU)]).mgBar true = 0 ∧
      (mgIs [(7, itemU)]).confirmer Principal.host = 0 ∧
        Smap.find (mgIs [(7, itemU)]).mg.props (↑(7 : PropIx) : Nat) = some itemU ∧
          itemU.conf = none ∧
            (mgIs [(7, itemU)]).opNs < itemU.at_ + 120000000000 ∧
              classOf itemU.by_ = classOf Principal.host) ∧
    ((mgIs [(7, itemU)]).mgBar true = 0 ∧
      (mgIs [(7, itemU)]).confirmer Principal.console = 0 ∧
        Smap.find (mgIs [(7, itemU)]).mg.props (↑(7 : PropIx) : Nat) = some itemU ∧
          itemU.conf = none ∧
            (mgIs [(7, itemU)]).opNs < itemU.at_ + 120000000000 ∧
              classOf itemU.by_ ≠ classOf Principal.console ∧
                itemU.digest ^^^ (1 : BitVec 384) ≠ itemU.digest) ∧
    ((mgIs [(7, itemU)]).mgBar true = 0 ∧
      (mgIs [(7, itemU)]).confirmer Principal.console = 0 ∧
        Smap.find (mgIs [(7, itemU)]).mg.props (↑(7 : PropIx) : Nat) = some itemU ∧
          itemU.conf = none ∧
            (mgIs [(7, itemU)]).opNs < itemU.at_ + 120000000000 ∧
              classOf itemU.by_ ≠ classOf Principal.console ∧
                itemU.digest = itemU.digest ∧
                  (mgIs [(7, itemU)]).itemStatus itemU.item = 0 ∧
                    (mgIs [(7, itemU)]).phase ≠ 15 ∧ itemPair itemU.item = false) ∧
    ((mgIs [(7, itemX)]).mgBar true = 0 ∧
      (mgIs [(7, itemX)]).confirmer Principal.console = 0 ∧
        Smap.find (mgIs [(7, itemX)]).mg.props (↑(7 : PropIx) : Nat) = some itemX ∧
          itemX.conf = none ∧
            (mgIs [(7, itemX)]).opNs < itemX.at_ + 120000000000 ∧
              classOf itemX.by_ ≠ classOf Principal.console ∧
                itemX.digest = itemX.digest ∧
                  (mgIs [(7, itemX)]).itemStatus itemX.item = 0 ∧
                    (mgIs [(7, itemX)]).phase ≠ 15 ∧ itemPair itemX.item = true) ∧
    ((mgIs [(7, itemU)]).mgBar false = 0 ∧
      (mgIs [(7, itemU)]).mgOpen (classOf Principal.host) = true ∧
        Smap.find (mgIs [(7, itemU)]).mg.props (↑(7 : PropIx) : Nat) = some itemU ∧
          itemU.conf = none ∧ classOf itemU.by_ = classOf Principal.host) ∧
    ((mgIs [(7, itemU)]).mgBar false = 0 ∧
      (mgIs [(7, itemU)]).mgOpen (classOf Principal.console) = true ∧
        Smap.find (mgIs [(7, itemU)]).mg.props (↑(7 : PropIx) : Nat) = some itemU ∧
          itemU.conf = none ∧ classOf itemU.by_ ≠ classOf Principal.console) ∧
    (Smap.find (mgIs [(7, itemU)]).mg.props (↑(7 : PropIx) : Nat) = some itemU ∧ itemU.conf = none) ∧
    (Smap.find (mgIs [(7, itemConf)]).mg.props (↑(7 : PropIx) : Nat) = some itemConf ∧ itemConf.conf ≠ none) ∧
    (Smap.find (mgIs []).mg.props (↑(0 : PropIx) : Nat) = none) := by
  refine ⟨?_, ?_, ?_, ?_, ?_, ?_, ?_, ?_, ?_, ?_, ?_, ?_, ?_, ?_, ?_, ?_, ?_, ?_, ?_, ?_, ?_, ?_⟩ <;> decide +kernel

/-- States and operands that meet the hypotheses of the clauses of `Obligations.ImageBanksAndLifeCycle`. -/
theorem witness_ImageBanksAndLifeCycle :
    ((Instr.svnCommit 60, false) ∈
        [(Instr.updateBegin Bank.bankA, true), (Instr.updateWrite Bank.bankA 0 0, true),
          (Instr.updateEnd Bank.bankA true true 0 (0 : Word), true),
          (Instr.activate Bank.bankA 0, false), (Instr.svnCommit 60, false),
          (Instr.trace true true, false)] ∧
      coreDown.mgBar false ≠ 0) ∧
    ((Instr.updateBegin Bank.bankA, true) ∈
        [(Instr.updateBegin Bank.bankA, true), (Instr.updateWrite Bank.bankA 0 0, true),
          (Instr.updateEnd Bank.bankA true true 0 (0 : Word), true),
          (Instr.activate Bank.bankA 0, false), (Instr.svnCommit 60, false),
          (Instr.trace true true, false)] ∧
      (running 2).mgBar true = 0 ∧ (running 2).mgSession.snd = false) ∧
    ((bankOpen 3 3).mgBar true = 0 ∧
      (bankOpen 3 3).mgSession.snd = true ∧
        (bankOpen 3 3).bankState Bank.bankB ≠ 4) ∧
    ((bankOpen 3 4).mgBar true = 0 ∧
      (bankOpen 3 4).mgSession.snd = true ∧
        (bankOpen 3 4).bankState Bank.bankB = 4) ∧
    ((bankOpen 3 1).mgBar true = 0 ∧ (bankOpen 3 1).mgSession.snd = true) ∧
    ((bankOpen 3 2).mgBar true = 0 ∧ (bankOpen 3 2).mgSession.snd = true) ∧
    (((bankOpen 3 1).sets [(R.LF_SVN, F.LF_SVN_COUNTER, 5)]).mgBar true = 0 ∧
      ((bankOpen 3 1).sets [(R.LF_SVN, F.LF_SVN_COUNTER, 5)]).mgSession.snd = true) ∧
    ((bankOpen 3 3).mgBar false = 0 ∧ (bankOpen 3 3).mgSession.snd = true) ∧
    ((bankOpen 2 2).mgBar false = 0 ∧ (bankOpen 2 2).mgSession.snd = true) ∧
    ((bankOpen 2 3).mgBar false = 0 ∧ (bankOpen 2 3).mgSession.snd = true) ∧
    ((hostSession (actIs 5)).mgBar false = 0 ∧ (hostSession (actIs 5)).mgSession.snd = true) ∧
    ((running 2).mg.act = none) ∧
    ((actIs 6).mg.act = some (Bank.bankB, 6, 0) ∧
      ((actIs 6).t0 < 6 * 1000000000 ∨
        (actIs 6).mode ≠ 1 ∧ (actIs 6).mode ≠ 2)) ∧
    ((actIs 5).mg.act = some (Bank.bankB, 5, 0) ∧
      5 * 1000000000 ≤ (actIs 5).t0 ∧
        ((actIs 5).mode = 1 ∨ (actIs 5).mode = 2) ∧
          (actIs 5).boot.up = true) ∧
    ((actIs 5).mg.act = some (Bank.bankB, 5, 0)) ∧
    ((bankOpen 2 4).mgBar false = 0 ∧ (bankOpen 2 4).mgSession.snd = true) ∧
    ((bankOpen 3 4).mgBar false = 0 ∧ (bankOpen 3 4).mgSession.snd = true) ∧
    ((lifeIs 2).mgBar false = 0 ∧ (lifeIs 2).mgSession.snd = true) ∧
    ((lifeIs 3).mgBar false = 0 ∧ (lifeIs 3).mgSession.snd = true) ∧
    ((running 2).mg.erase = none) ∧
    (erasing.mg.erase = some 3) := by
  refine ⟨?_, ?_, ?_, ?_, ?_, ?_, ?_, ?_, ?_, ?_, ?_, ?_, ?_, ?_, ?_, ?_, ?_, ?_, ?_, ?_, ?_⟩ <;> decide +kernel

/-- States and operands that meet the hypotheses of the clauses of `Obligations.SensorsRecorderCopyAndBusyWindows`. -/
theorem witness_SensorsRecorderCopyAndBusyWindows :
    (coreDown.mg.down = true) ∧
    ((running 2).mg.down = false) ∧
    ((running 2).nvmIdle = true ∨ (running 2).evStage = []) ∧
    ((staged 1).nvmIdle = false ∧ (staged 1).evStage ≠ [] ∧ false = false) ∧
    ((staged 9).nvmIdle = false ∧ (staged 9).evStage ≠ [] ∧ true = true) ∧
    ((staged 1).nvmIdle = false ∧ (staged 1).evStage ≠ [] ∧ true = true) := by
  refine ⟨?_, ?_, ?_, ?_, ?_, ?_⟩ <;> decide +kernel

-- Well-formedness: for each check a command that it refuses.
/-- A CAN frame of some length. -/
def canFrameOf (ident : Nat) (fdf brs rtr : Bool) (n : Nat) : CanFrame := ⟨ident, false, fdf, brs, false, rtr, List.replicate n 0⟩
/-- A cyclic frame with one segment of n words, in place fidx of its train. -/
def cyclicOf (fidx role stn n : Nat) : RxFrame :=
  ⟨0x88B5, 64, true, false, false, role, 0, 0, fidx, [⟨stn, 0, 0, List.replicate n 0, 0⟩]⟩
/-- R45: an instant after the end of the longest cycle. -/
theorem test_wf_off : (Instr.rtcUpdate 8000001).wf = false ∧ (Instr.rtcUpdate 8000000).wf = true := by decide
/-- R358, R355, R363: the place in the train, the role, the station and the length of a segment. -/
theorem test_wf_cyclic :
    (Instr.cyclicFrameReceive 0 0 true false (cyclicOf 16 0 0 0)).wf = false ∧
    (Instr.cyclicFrameReceive 0 0 true false (cyclicOf 0 3 0 0)).wf = false ∧
    (Instr.cyclicFrameReceive 0 0 true false (cyclicOf 0 0 504 0)).wf = false ∧
    (Instr.cyclicFrameReceive 0 0 true false (cyclicOf 0 0 0 370)).wf = false ∧
    (Instr.cyclicFrameReceive 0 0 true false (cyclicOf 15 2 503 369)).wf = true := by decide +kernel
/-- R23, R87: a node of the store and a stage of a law with a mismatch. -/
theorem test_wf_mismatch :
    (Instr.taskDispatch 0 0 [(8191, true), (8192, true)]).wf = false ∧ (Instr.sampleComplete 0 0 (some (9, true))).wf = false := by
  decide
/-- R387: the domain of a PTP message. -/
theorem test_wf_ptp :
    (Instr.ptpOffset ⟨256, (0, 0), false, (0, 0), (0, 0), 0, 0⟩ 37).wf = false ∧
    (Instr.ptpOffset ⟨255, (0, 0), false, (0, 0), (0, 0), 0, 0⟩ 37).wf = true := by decide
/-- R313, R237, R389: entries of a patch, permission ranges and nanoseconds of a proposed item. -/
theorem test_wf_items :
    (Instr.propose .host (.hedgerow []) []).wf = false ∧ (Instr.propose .host (.forceRanges []) []).wf = false ∧
    (Instr.propose .host (.timeStep true 0 1000000000) []).wf = false := by decide +kernel
/-- R299: branches and shared lines of a calibration. -/
theorem test_wf_calibration :
    (Instr.tbCal (List.replicate 17 (0, ⟨0, 0, true⟩)) []).wf = false ∧ (Instr.tbCal [] (List.replicate 9 (0, 0))).wf = false := by
  decide
/-- R374, R380: stations of a ring and bytes of a mailbox. -/
theorem test_wf_field :
    (Instr.discoverReturn 0 (List.replicate 127 ⟨0, 0, 0, 0⟩)).wf = false ∧
    (Instr.mailboxAnswer 0 (List.replicate 1025 0) 0).wf = false := by decide +kernel
/-- R397: identifier, formats and lengths of CAN frames, and the step of an error counter. -/
theorem test_wf_can :
    (Instr.canFrameReceive 0 0 (canFrameOf 2048 false false false 8)).wf = false ∧
    (Instr.canFrameReceive 0 0 (canFrameOf 1 false true false 8)).wf = false ∧
    (Instr.canFrameReceive 0 0 (canFrameOf 1 true true true 8)).wf = false ∧
    (Instr.canFrameReceive 0 0 (canFrameOf 1 false false false 12)).wf = false ∧
    (Instr.canFrameReceive 0 0 (canFrameOf 1 true true false 13)).wf = false ∧
    (Instr.canFrameReceive 0 0 (canFrameOf 2047 true true false 64)).wf = true ∧
    (Instr.canError 0 .stuff .sender 9).wf = false := by decide +kernel
/-- R419: a pair state code. -/
theorem test_wf_hello : (Instr.hello ⟨true, 8, 0, 0, 0, none, true⟩).wf = false := by decide
/-- R459, R224, R462: descriptors, items and writes of the host. -/
theorem test_wf_host :
    (Instr.ringDoorbell 0 0 [{ (default : Desc) with opc := 256 }]).wf = false ∧
    (Instr.ringReread 0 [{ (default : Desc) with tag := 65536 }]).wf = false ∧
    (Instr.item 0 0 0 (List.replicate 65 0)).wf = false ∧ (Instr.registerWrite false 0 [] 0).wf = false ∧
    (Instr.registerWrite false 0 (List.replicate 65 0) 0).wf = false := by decide +kernel
/-- R486, R496, R502: a signature, a block of an update and the sensors of a sample. -/
theorem test_wf_management :
    (Instr.auth .host (List.replicate 95 0)).wf = false ∧ (Instr.updateWrite .bankA 0 (2 ^ 20 + 1)).wf = false ∧
    (Instr.sensorSample [] [] 0 0 0).wf = false ∧ (Instr.busyWindowEnd [] []).wf = false := by decide +kernel

/-- States that meet the hypotheses of `Obligations.StepRunsTheFrontCommand`. -/
theorem witness_StepRunsTheFrontCommand : State.reset.pending = [] := rfl
/-- States that meet the hypotheses of `Obligations.EveryCommandCompletesAndTakesOnlyTheFront`. -/
theorem witness_EveryCommandCompletesAndTakesOnlyTheFront :
    { State.reset with pending := [.flush] }.pending = .flush :: [] := rfl
/-- States that meet the hypotheses of `Obligations.EveryStepKeepsCanonicalForm`. -/
theorem witness_EveryStepKeepsCanonicalForm : State.reset.Canonical ∧ step State.reset = .next State.reset :=
  ⟨by simp only [State.Canonical]; decide +kernel, rfl⟩

end Sys2Proof.Machine
end

section
/-!
What the plain updates of State write: registers read through a field update, memories that an update keeps, and a
relation for operations that write registers only.
-/
namespace Sys2Proof.Machine
open Sys2Proof

-- registers and fields

theorem State.rd_congr {s t : State} (h : t.io = s.io) (a : Nat) : t.rd a = s.rd a := by rw [State.rd, State.rd, h]

theorem State.rd_of_unlisted (s : State) (a : Nat) (h : Smap.find s.io a = none) : s.rd a = Reg.reset a := by
  simp [State.rd, Smap.get, h]

@[simp] theorem State.rd_setLaneX (s : State) (l a : Nat) (x : LaneX) : (s.setLaneX l x).rd a = s.rd a := rfl
@[simp] theorem State.rd_setSlotX (s : State) (k a : Nat) (x : SlotX) : (s.setSlotX k x).rd a = s.rd a := rfl

theorem State.rd_setFld (s : State) (a b : Nat) (f : Fld) (n : Nat) :
    (s.setFld a f n).rd b = if b = a then f.put (s.rd a) n else s.rd b := State.rd_wr _ _ _ _

theorem State.bit_eq_fld (s : State) (a : Nat) (f : Fld) : s.bit a f = decide (s.fld a f = 1) := rfl

/-- Registers that read the same have the same fields. -/
theorem State.fld_congr {s t : State} {a : Nat} (h : t.rd a = s.rd a) (f : Fld) : t.fld a f = s.fld a f := by
  simp [State.fld, h]

theorem State.bit_congr {s t : State} {a : Nat} (h : t.rd a = s.rd a) (f : Fld) : t.bit a f = s.bit a f := by
  simp [State.bit, h]

/-- A one-bit field reads the bit that was written. -/
theorem State.bit_setFld_same (s : State) (a : Nat) (f : Fld) (n : Nat) (hf : f.lsb + f.len ≤ 32) (h1 : f.len = 1) :
    (s.setFld a f n).bit a f = decide (n % 2 = 1) := by
  rw [State.bit_eq_fld, State.fld_setFld_same _ _ _ _ hf, h1, Nat.pow_one]

theorem State.bit_setFld_other (s : State) (a : Nat) (f g : Fld) (n : Nat)
    (h : f.lsb + f.len ≤ g.lsb ∨ g.lsb + g.len ≤ f.lsb) : (s.setFld a f n).bit a g = s.bit a g := by
  rw [State.bit_eq_fld, State.fld_setFld_other _ _ _ _ _ h, State.bit_eq_fld]

theorem State.bit_setB_same (s : State) (a : Nat) (f : Fld) (b : Bool) (hf : f.lsb + f.len ≤ 32) (h1 : f.len = 1) :
    (s.setB a f b).bit a f = b := by
  unfold State.setB
  rw [State.bit_setFld_same _ _ _ _ hf h1]
  cases b <;> rfl

-- memories

theorem SameMemory.refl (s : State) : SameMemory s s := ⟨rfl, rfl, rfl, rfl, rfl, rfl⟩

theorem SameMemory.trans {s t u : State} (h : SameMemory s t) (k : SameMemory t u) : SameMemory s u :=
  ⟨k.dram.trans h.dram, k.lawMem.trans h.lawMem, k.specs.trans h.specs, k.outMaster.trans h.outMaster,
    k.outCopy.trans h.outCopy, k.snap.trans h.snap⟩

theorem SameMemory.wr (s : State) (a : Nat) (v : Word) : SameMemory s (s.wr a v) := ⟨rfl, rfl, rfl, rfl, rfl, rfl⟩

theorem Records.sameMemory {s t : State} (h : Records s t) : SameMemory s t := by
  obtain ⟨io, out, ev, lost, fr, hr, worst, rfl⟩ := h.only
  exact ⟨rfl, rfl, rfl, rfl, rfl, rfl⟩

theorem SameRegsBut.mono {l m : List Nat} {s t : State} (h : SameRegsBut l s t) (hlm : l ⊆ m) : SameRegsBut m s t :=
  fun a ha => h a (fun hl => ha (hlm hl))

-- operations that write registers only

/-- Only registers are written, and none for which P fails. -/
structure Writes (P : Nat → Prop) (s t : State) : Prop where
  only : ∃ io, t = { s with io := io }
  regs : ∀ a, ¬ P a → t.rd a = s.rd a

theorem Writes.refl (P : Nat → Prop) (s : State) : Writes P s s := ⟨⟨s.io, rfl⟩, fun _ _ => rfl⟩

theorem Writes.trans {P : Nat → Prop} {s t u : State} (h : Writes P s t) (k : Writes P t u) : Writes P s u := by
  refine ⟨?_, fun a ha => (k.regs a ha).trans (h.regs a ha)⟩
  obtain ⟨io, rfl⟩ := h.only
  obtain ⟨io', rfl⟩ := k.only
  exact ⟨io', rfl⟩

theorem Writes.mono {P Q : Nat → Prop} {s t : State} (h : Writes P s t) (hpq : ∀ a, P a → Q a) : Writes Q s t :=
  ⟨h.only, fun a ha => h.regs a (fun hp => ha (hpq a hp))⟩

theorem State.wr_writes {P : Nat → Prop} (s : State) {a : Nat} (v : Word) (ha : P a) : Writes P s (s.wr a v) :=
  ⟨⟨_, rfl⟩, fun _ hb => State.rd_wr_other s v (fun h => hb (h ▸ ha))⟩

theorem State.setFld_writes {P : Nat → Prop} (s : State) {a : Nat} (f : Fld) (n : Nat) (ha : P a) :
    Writes P s (s.setFld a f n) := s.wr_writes _ ha

theorem State.when_writes {P : Nat → Prop} (s : State) (c : Bool) (f : State → State)
    (h : c = true → Writes P s (f s)) : Writes P s (s.when c f) := by
  cases c
  · exact .refl P s
  · exact h rfl

/-- An operation repeated over a list writes what each of its steps writes. -/
theorem State.each_writes {α : Type} {P : Nat → Prop} (s : State) (l : List α) (f : State → α → State)
    (h : ∀ (u : State), ∀ x ∈ l, Writes P u (f u x)) : Writes P s (s.each l f) := by
  unfold State.each
  induction l generalizing s with
  | nil => exact .refl P s
  | cons x xs ih =>
    exact (h s x (by simp)).trans (ih (f s x) (fun u y hy => h u y (by simp [hy])))

theorem Writes.sameMemory {P : Nat → Prop} {s t : State} (h : Writes P s t) : SameMemory s t := by
  obtain ⟨io, rfl⟩ := h.only
  exact ⟨rfl, rfl, rfl, rfl, rfl, rfl⟩

theorem Writes.lanes {P : Nat → Prop} {s t : State} (h : Writes P s t) : t.lanes = s.lanes := by
  obtain ⟨io, rfl⟩ := h.only
  rfl

theorem Writes.sameRegsBut {l : List Nat} {s t : State} (h : Writes (· ∈ l) s t) : SameRegsBut l s t :=
  fun a ha => h.regs a ha

end Sys2Proof.Machine
end

section
/-!
The state after reset.
-/
namespace Sys2Proof.Machine
open Sys2Proof

/-- Settles O4: the listed words are the three that the statement excepts. -/
theorem resetIsCanonicalAndQuiet : Obligations.ResetIsCanonicalAndQuiet := by
  unfold Obligations.ResetIsCanonicalAndQuiet
  refine ⟨by simp only [State.Canonical]; decide +kernel, rfl, rfl, by decide +kernel, by decide +kernel,
    fun a hId hCap hDie => State.rd_of_unlisted _ _ ?_⟩
  simp only [R.HI_ID, R.HI_CAP, R.HI_DIE_STATE] at hId hCap hDie
  simp [State.reset, Smap.find_cons, Ne.symm hId, Ne.symm hCap, Ne.symm hDie]

end Sys2Proof.Machine
end

section
/-!
The recipe store: words of DRAM data, the bits of a directory entry, and what the check of a recipe does not read.
-/
namespace Sys2Proof.Machine
open Sys2Proof

-- words of DRAM data

theorem Word.ofBytes_bytes (w : Word) : Word.ofBytes (Word.bytes w) = w := by
  apply BitVec.eq_of_toNat_eq
  have h := w.isLt
  simp [Word.ofBytes, Word.bytes, Nat.shiftRight_eq_div_pow]
  omega

theorem State.dbyte_setDbyte (s : State) (a x : Nat) (b : Byte) :
    (s.setDbyte a b).dbyte x = if x = a then b else s.dbyte x := by
  unfold State.dbyte State.setDbyte
  split
  · next h => subst h; exact Smap.get_set_same _ _ _ _
  · next h => exact Smap.get_set_other _ _ _ h

/-- A word of DRAM data is written as its four bytes. -/
theorem State.setDword_eq (s : State) (a : Nat) (v : Word) :
    s.setDword a v = (((s.setDbyte a (BitVec.ofNat 8 v.toNat)).setDbyte (a + 1) (BitVec.ofNat 8 (v.toNat >>> 8))).setDbyte
      (a + 2) (BitVec.ofNat 8 (v.toNat >>> 16))).setDbyte (a + 3) (BitVec.ofNat 8 (v.toNat >>> 24)) := rfl

theorem State.dword_eq (s : State) (a : Nat) :
    s.dword a = Word.ofBytes [s.dbyte a, s.dbyte (a + 1), s.dbyte (a + 2), s.dbyte (a + 3)] := rfl

theorem State.dword_setDword_same (s : State) (a : Nat) (v : Word) : (s.setDword a v).dword a = v := by
  rw [State.dword_eq, State.setDword_eq]
  simp only [State.dbyte_setDbyte]
  simpa [Word.bytes] using Word.ofBytes_bytes v

theorem State.dword_setDword_other (s : State) {a b : Nat} (v : Word) (h : a + 4 ≤ b ∨ b + 4 ≤ a) :
    (s.setDword a v).dword b = s.dword b := by
  have hb : ∀ i < 4, b + i ≠ a ∧ b + i ≠ a + 1 ∧ b + i ≠ a + 2 ∧ b + i ≠ a + 3 := by omega
  have h0 := hb 0 (by omega)
  have h1 := hb 1 (by omega)
  have h2 := hb 2 (by omega)
  have h3 := hb 3 (by omega)
  rw [State.dword_eq, State.setDword_eq]
  simp only [State.dbyte_setDbyte]
  simp_all [State.dword_eq]

@[simp] theorem State.rcpSetBit_io (s : State) (n b : Nat) (v : Bool) : (s.rcpSetBit n b v).io = s.io := by
  simp [State.rcpSetBit, State.setDword_eq]
@[simp] theorem State.rcpSetBit_lawMem (s : State) (n b : Nat) (v : Bool) : (s.rcpSetBit n b v).lawMem = s.lawMem := by
  simp [State.rcpSetBit, State.setDword_eq]
@[simp] theorem State.rcpSetBit_outMaster (s : State) (n b : Nat) (v : Bool) :
    (s.rcpSetBit n b v).outMaster = s.outMaster := by
  simp [State.rcpSetBit, State.setDword_eq]
@[simp] theorem State.rcpSetBit_lanes (s : State) (n b : Nat) (v : Bool) : (s.rcpSetBit n b v).lanes = s.lanes := by
  simp [State.rcpSetBit, State.setDword_eq]
@[simp] theorem State.rd_rcpSetBit (s : State) (n b a : Nat) (v : Bool) : (s.rcpSetBit n b v).rd a = s.rd a := by
  simp [State.rd]
@[simp] theorem State.laneX_rcpSetBit (s : State) (n b l : Nat) (v : Bool) :
    (s.rcpSetBit n b v).laneX l = s.laneX l := by
  simp [State.laneX]

/-- A bit of a directory entry reads what was set; the others keep their value. -/
theorem State.rcpFld_rcpSetBit (s : State) (n m b c : Nat) (v : Bool) (hb : b < 32) :
    (s.rcpSetBit n b v).rcpFld m 0 c 1 =
      if m = n ∧ c = b then (if v then 1 else 0) else s.rcpFld m 0 c 1 := by
  have hget : ∀ (u : State) (k : Nat), u.rcpFld k 0 c 1 = Fld.get ⟨c, 1⟩ (u.dword (rcpDir k 0)) := fun _ _ => rfl
  rw [hget, hget]
  unfold State.rcpSetBit
  by_cases hm : m = n
  · subst hm
    rw [State.dword_setDword_same]
    by_cases hc : c = b
    · subst hc
      rw [Fld.get_put_same _ _ _ (by simp; omega)]
      cases v <;> simp
    · rw [Fld.get_put_other _ _ _ _ (by simp; omega)]
      simp [hc]
  · rw [State.dword_setDword_other _ _ (by unfold rcpDir; omega)]
    simp [hm]

theorem State.rcpValid_rcpSetBit (s : State) (n : Nat) (v : Bool) : (s.rcpSetBit n 0 v).rcpValid n = v := by
  unfold State.rcpValid
  rw [State.rcpFld_rcpSetBit _ _ _ _ _ _ (by omega)]
  cases v <;> simp

/-- Setting VALID leaves IN_USE. -/
theorem State.rcpInUse_rcpSetBit_valid (s : State) (n : Nat) (v : Bool) :
    (s.rcpSetBit n 0 v).rcpInUse n = s.rcpInUse n := by
  unfold State.rcpInUse
  rw [State.rcpFld_rcpSetBit _ _ _ _ _ _ (by omega)]
  simp

/-- Setting IN_USE of a recipe leaves the others in use that are. -/
theorem State.rcpInUse_rcpUse (s : State) (n m : Nat) (v : Bool) :
    (s.rcpUse n v).rcpInUse m = if m = n then v else s.rcpInUse m := by
  unfold State.rcpInUse State.rcpUse
  rw [State.rcpFld_rcpSetBit _ _ _ _ _ _ (by omega)]
  by_cases h : m = n <;> cases v <;> simp [h]

theorem State.dword_congr {s t : State} (h : t.dram = s.dram) (a : Nat) : t.dword a = s.dword a := by
  simp [State.dword, State.dbytes, State.dbyte, h]

theorem State.rcpFld_congr {s t : State} (h : t.dram = s.dram) (n w lsb len : Nat) :
    t.rcpFld n w lsb len = s.rcpFld n w lsb len := by
  simp [State.rcpFld, State.dword_congr h]

theorem State.rcpInUse_congr {s t : State} (h : t.dram = s.dram) (n : Nat) : t.rcpInUse n = s.rcpInUse n := by
  simp [State.rcpInUse, State.rcpFld_congr h]

-- the check reads neither SQ_RCP_CTRL nor SQ_RCP_STAT

/-- A register of the recipe commands. -/
def rcpReg (a : Nat) : Prop := a = R.SQ_RCP_CTRL ∨ a = R.SQ_RCP_STAT

/-- A search finds the same where the tests agree on the list. -/
theorem find?_eq_of_mem {α : Type} {p q : α → Bool} (l : List α) (h : ∀ x ∈ l, p x = q x) : l.find? p = l.find? q := by
  induction l with
  | nil => rfl
  | cons x xs ih =>
    rw [List.find?_cons, List.find?_cons, h x List.mem_cons_self, ih fun y hy => h y (List.mem_cons_of_mem x hy)]

theorem State.targetOk_wr_rcpReg (s : State) {a : Nat} (v : Word) (ha : rcpReg a) (c ref : Nat) :
    (s.wr a v).targetOk c ref = s.targetOk c ref := by
  have hcfg : ∀ l, l < 16 → (s.wr a v).rd (R.SQ_CFG l) = s.rd (R.SQ_CFG l) := by
    intro l hl
    refine State.rd_wr_other s v ?_
    rcases ha with rfl | rfl <;> simp only [R.SQ_CFG, R.SQ_RCP_CTRL, R.SQ_RCP_STAT] <;> omega
  have hlane : (s.wr a v).chamberLane c = s.chamberLane c := by
    unfold State.chamberLane
    refine find?_eq_of_mem _ fun l hl => ?_
    simp only [State.fld, State.bit, hcfg l (List.mem_range.mp hl)]
    rfl
  simp only [State.targetOk, State.targetKind, hlane, State.wr_img]

theorem State.stepLocalBad_wr_rcpReg (s : State) {a : Nat} (v : Word) (ha : rcpReg a) (n k : Nat) :
    (s.wr a v).stepLocalBad n k = s.stepLocalBad n k := by
  have hcfg : ∀ j, (s.wr a v).rd (R.LE_CFG j) = s.rd (R.LE_CFG j) := by
    intro j
    refine State.rd_wr_other s v ?_
    rcases ha with rfl | rfl <;>
      simp only [R.LE_CFG, R.slotBase, R.regionBase, R.SQ_RCP_CTRL, R.SQ_RCP_STAT] <;> omega
  have hloc : ∀ ref, (s.wr a v).isLocal ref = s.isLocal ref := by
    intro ref
    simp only [State.isLocal, State.bit, hcfg, State.wr_img]
  have hx : (s.wr a v).stepExitList n k = s.stepExitList n k := rfl
  have hw : (s.wr a v).stepWriteList n k = s.stepWriteList n k := rfl
  have ha : (s.wr a v).stepActList n k = s.stepActList n k := rfl
  have he : (s.wr a v).stepExt n k = s.stepExt n k := rfl
  simp only [State.stepLocalBad, hloc, hx, hw, ha, he]

theorem State.rcpCheck_wr_rcpReg (s : State) {a : Nat} (v : Word) (ha : rcpReg a) (n : Nat) :
    (s.wr a v).rcpCheck n = s.rcpCheck n := by
  have hpair : (s.wr a v).pairEn = s.pairEn := by
    refine State.bit_congr (State.rd_wr_other s v ?_) _
    rcases ha with rfl | rfl <;> simp [R.XL_CFG, R.SQ_RCP_CTRL, R.SQ_RCP_STAT]
  have htgt : (s.wr a v).stepTargetBad n = s.stepTargetBad n := by
    funext k
    have hw : (s.wr a v).stepWriteList n k = s.stepWriteList n k := rfl
    have hact : (s.wr a v).stepActList n k = s.stepActList n k := rfl
    have hc : (s.wr a v).rcpChamber n = s.rcpChamber n := rfl
    simp only [State.stepTargetBad, State.targetOk_wr_rcpReg s v ha, hw, hact, hc]
  have hloc : (s.wr a v).stepLocalBad n = s.stepLocalBad n := funext (s.stepLocalBad_wr_rcpReg v ha n)
  unfold State.rcpCheck
  rw [htgt, hloc, hpair]
  rfl

end Sys2Proof.Machine
end

section
/-!
Recipe validation: masked writes, SQ_RCP_CTRL and SQ_RCP_STAT, and what the recipe commands show.
-/
namespace Sys2Proof.Machine
open Sys2Proof

-- masked writes

/-- A field that a mask covers is not changed by the mask. -/
theorem Fld.get_and_of_covered (f : Fld) (v m : Word) (h : ∀ i < f.len, m.getLsbD (f.lsb + i) = true) :
    f.get (v &&& m) = f.get v := by
  apply Nat.eq_of_testBit_eq
  intro i
  rw [Fld.get_testBit, Fld.get_testBit, BitVec.getLsbD_and]
  by_cases hi : i < f.len
  · simp [h i hi]
  · simp [hi]

theorem Word.and_ones (v : Word) : v &&& 0xFFFFFFFF = v := by
  rw [show (0xFFFFFFFF : Word) = BitVec.allOnes 32 from rfl, BitVec.and_allOnes]

theorem Word.ones_and (v : Word) : 0xFFFFFFFF &&& v = v := by
  rw [BitVec.and_comm, Word.and_ones]

/-- A full write of a register: RW bits take what is written, W1C bits written as 1 clear (R12). -/
theorem State.regValue_full (s : State) {a : Nat} {r : RegRow} (v : Word) (hr : Reg.row a = some r) :
    s.regValue a v 0xFFFFFFFF =
      ((s.rd a &&& ~~~ Word.ofN r.rw) ||| (v &&& Word.ofN r.rw)) &&& ~~~ (v &&& Word.ofN r.w1c) := by
  simp only [State.regValue, hr, Word.ones_and, Word.and_ones]

theorem regCmd_full {a : Nat} {r : RegRow} (v : Word) (hr : Reg.row a = some r) :
    regCmd a v 0xFFFFFFFF = v &&& Word.ofN r.cmd := by
  simp only [regCmd, hr, Word.and_ones]

-- SQ_RCP_CTRL and SQ_RCP_STAT

theorem Reg.row_rcpCtrl : Reg.row R.SQ_RCP_CTRL = some ⟨0x20000, 1, 4, 0xFF, 0x0, 0x300, 0x0, 0x0⟩ := by
  decide +kernel

/-- A write of SQ_RCP_CTRL holds RECIPE, its only RW field. -/
theorem State.fld_regWrite_rcpCtrl (s : State) (v : Word) :
    (s.regWrite R.SQ_RCP_CTRL v 0xFFFFFFFF).fld R.SQ_RCP_CTRL F.SQ_RCP_CTRL_RECIPE = v.toNat % 256 := by
  have hmask : ∀ j : Fin 8, (255#32).getLsbD j.val = true := by decide
  rw [State.fld, State.regWrite, State.rd_wr_same, State.regValue_full s v Reg.row_rcpCtrl]
  apply Nat.eq_of_testBit_eq
  intro i
  rw [Fld.get_testBit, show (256 : Nat) = 2 ^ 8 from rfl, Nat.testBit_mod_two_pow]
  by_cases hi : i < 8
  · have h32 : i < 32 := by omega
    simp only [F.SQ_RCP_CTRL_RECIPE, hi, h32, hmask ⟨i, hi⟩, BitVec.getLsbD_and, BitVec.getLsbD_or, BitVec.getLsbD_not,
      BitVec.and_zero, BitVec.getLsbD_zero, BitVec.testBit_toNat, Nat.zero_add, decide_true, Bool.not_true, Bool.not_false,
      Bool.and_true, Bool.true_and, Bool.and_false, Bool.false_or]
  · simp [F.SQ_RCP_CTRL_RECIPE, hi]

/-- What showing the result of a recipe command changes. -/
theorem State.rcpStat_writes (s : State) (pass : Bool) (c : Nat) : Writes (· = R.SQ_RCP_STAT) s (s.rcpStat pass c) :=
  (State.setFld_writes (P := (· = R.SQ_RCP_STAT)) s _ _ rfl).trans (State.setFld_writes _ _ _ rfl)

theorem State.cause_rcpStat (s : State) (pass : Bool) (c : Nat) (hc : c < 16) :
    (s.rcpStat pass c).fld R.SQ_RCP_STAT F.SQ_RCP_STAT_CAUSE = c := by
  rw [State.rcpStat, State.fld_setFld_same _ _ _ _ (by decide)]
  exact Nat.mod_eq_of_lt hc

theorem State.pass_rcpStat (s : State) (pass : Bool) (c : Nat) :
    (s.rcpStat pass c).bit R.SQ_RCP_STAT F.SQ_RCP_STAT_PASS = pass := by
  rw [State.rcpStat, State.bit_setFld_other _ _ _ _ _ (by decide), State.bit_setB_same _ _ _ _ (by decide) rfl]

theorem State.busy_rcpStat (s : State) (pass : Bool) (c : Nat) :
    (s.rcpStat pass c).bit R.SQ_RCP_STAT F.SQ_RCP_STAT_BUSY = s.bit R.SQ_RCP_STAT F.SQ_RCP_STAT_BUSY := by
  rw [State.rcpStat, State.bit_setFld_other _ _ _ _ _ (by decide), State.setB,
    State.bit_setFld_other _ _ _ _ _ (by decide)]

theorem State.rcpCheck_lt (s : State) (n : Nat) : s.rcpCheck n < 16 := by
  unfold State.rcpCheck
  dsimp only
  repeat' split
  all_goals decide

-- the commands

/-- The write of VALIDATE: RECIPE is held, and the validation starts. -/
theorem execValidate_eq (n : Fin 256) (s : State) :
    exec (.validate n) s = .next ((s.regWrite R.SQ_RCP_CTRL (Word.ofN (n.val + 0x100)) 0xFFFFFFFF).rcpStart n) := by
  have hn := n.isLt
  have hfld := s.fld_regWrite_rcpCtrl (Word.ofN (n.val + 0x100))
  have hrec : (Word.ofN (n.val + 0x100)).toNat % 256 = n.val := by
    rw [BitVec.toNat_ofNat]; omega
  have hgo : F.SQ_RCP_CTRL_VALIDATE.get (regCmd R.SQ_RCP_CTRL (Word.ofN (n.val + 0x100)) 0xFFFFFFFF) = 1 := by
    rw [regCmd_full _ Reg.row_rcpCtrl, Fld.get_and_of_covered _ _ _ (by decide)]
    simp [Fld.get, F.SQ_RCP_CTRL_VALIDATE, Nat.shiftRight_eq_div_pow]
    omega
  have hno : F.SQ_RCP_CTRL_INVALIDATE.get (regCmd R.SQ_RCP_CTRL (Word.ofN (n.val + 0x100)) 0xFFFFFFFF) ≠ 1 := by
    rw [regCmd_full _ Reg.row_rcpCtrl, Fld.get_and_of_covered _ _ _ (by decide)]
    simp [Fld.get, F.SQ_RCP_CTRL_INVALIDATE, Nat.shiftRight_eq_div_pow]
    omega
  simp only [exec, execValidate, State.busRecipe, hfld, hrec, hgo, hno, State.when, decide_true, decide_false, if_true,
    Bool.false_eq_true, if_false]

theorem execInvalidate_eq (n : Fin 256) (s : State) :
    exec (.invalidate n) s =
      .next ((s.regWrite R.SQ_RCP_CTRL (Word.ofN (n.val + 0x200)) 0xFFFFFFFF).rcpInvalidate n) := by
  have hn := n.isLt
  have hfld := s.fld_regWrite_rcpCtrl (Word.ofN (n.val + 0x200))
  have hrec : (Word.ofN (n.val + 0x200)).toNat % 256 = n.val := by
    rw [BitVec.toNat_ofNat]; omega
  have hno : F.SQ_RCP_CTRL_VALIDATE.get (regCmd R.SQ_RCP_CTRL (Word.ofN (n.val + 0x200)) 0xFFFFFFFF) ≠ 1 := by
    rw [regCmd_full _ Reg.row_rcpCtrl, Fld.get_and_of_covered _ _ _ (by decide)]
    simp [Fld.get, F.SQ_RCP_CTRL_VALIDATE, Nat.shiftRight_eq_div_pow]
    omega
  have hgo : F.SQ_RCP_CTRL_INVALIDATE.get (regCmd R.SQ_RCP_CTRL (Word.ofN (n.val + 0x200)) 0xFFFFFFFF) = 1 := by
    rw [regCmd_full _ Reg.row_rcpCtrl, Fld.get_and_of_covered _ _ _ (by decide)]
    simp [Fld.get, F.SQ_RCP_CTRL_INVALIDATE, Nat.shiftRight_eq_div_pow]
    omega
  simp only [exec, execInvalidate, State.busRecipe, hfld, hrec, hgo, hno, State.when, decide_true, decide_false, if_true,
    Bool.false_eq_true, if_false]

/-- VALIDATE with no validation running (R146, R182). -/
theorem validate_idle (n : Fin 256) (s : State) (hb : s.bit R.SQ_RCP_STAT F.SQ_RCP_STAT_BUSY = false) :
    Does (.validate n) s fun t => t.bit R.SQ_RCP_STAT F.SQ_RCP_STAT_BUSY = true ∧ t.validating = n.val ∧
      t.fld R.SQ_RCP_CTRL F.SQ_RCP_CTRL_RECIPE = n.val ∧ t.bit R.SQ_RCP_CTRL F.SQ_RCP_CTRL_VALIDATE = true ∧
      SameMemory s t ∧ SameRegsBut [R.SQ_RCP_STAT, R.SQ_RCP_CTRL] s t := by
  refine ⟨_, execValidate_eq n s, ?_⟩
  have hn := n.isLt
  have hrec : (Word.ofN (n.val + 0x100)).toNat % 256 = n.val := by
    rw [BitVec.toNat_ofNat]; omega
  have hne : R.SQ_RCP_STAT ≠ R.SQ_RCP_CTRL := by decide
  have hw : Writes (· ∈ [R.SQ_RCP_STAT, R.SQ_RCP_CTRL]) s
      (s.regWrite R.SQ_RCP_CTRL (Word.ofN (n.val + 0x100)) 0xFFFFFFFF) := s.wr_writes _ (by simp)
  have hub : (s.regWrite R.SQ_RCP_CTRL (Word.ofN (n.val + 0x100)) 0xFFFFFFFF).bit R.SQ_RCP_STAT F.SQ_RCP_STAT_BUSY
      = false := by
    rw [← hb]; exact State.bit_congr (State.rd_wr_other _ _ hne) _
  have hheld := s.fld_regWrite_rcpCtrl (Word.ofN (n.val + 0x100))
  generalize s.regWrite R.SQ_RCP_CTRL (Word.ofN (n.val + 0x100)) 0xFFFFFFFF = u at hw hub hheld
  obtain ⟨v, hv⟩ : ∃ v, v = (u.setFld R.SQ_RCP_STAT F.SQ_RCP_STAT_BUSY 1).setFld R.SQ_RCP_CTRL F.SQ_RCP_CTRL_VALIDATE 1 :=
    ⟨_, rfl⟩
  have hmid : Writes (· ∈ [R.SQ_RCP_STAT, R.SQ_RCP_CTRL]) s v := by
    rw [hv]; exact hw.trans ((u.setFld_writes _ _ (by simp)).trans (State.setFld_writes _ _ _ (by simp)))
  have hgo : u.rcpStart n = { v with validating := n.val } := by
    simp only [State.rcpStart, State.set1, hub, Bool.false_eq_true, if_false, hv]
  have hrd : ∀ a, ({ v with validating := n.val } : State).rd a = v.rd a := fun _ => rfl
  rw [hgo]
  refine ⟨?_, rfl, ?_, ?_, ?_, fun a ha => (hrd a).trans (hmid.regs a ha)⟩
  · rw [State.bit_congr (hrd _), hv, State.bit_congr (State.rd_setFld_other _ _ _ hne),
      State.bit_setFld_same _ _ _ _ (by decide) rfl]
    rfl
  · rw [State.fld_congr (hrd _), hv, State.fld_setFld_other _ _ _ _ _ (by decide),
      State.fld_congr (State.rd_setFld_other _ _ _ hne.symm), hheld, hrec]
  · rw [State.bit_congr (hrd _), hv, State.bit_setFld_same _ _ _ _ (by decide) rfl]
    rfl
  · exact hmid.sameMemory.trans ⟨rfl, rfl, rfl, rfl, rfl, rfl⟩

/-- VALIDATE while a validation runs (R182). -/
theorem validate_busy (n : Fin 256) (s : State) (hb : s.bit R.SQ_RCP_STAT F.SQ_RCP_STAT_BUSY = true) :
    Does (.validate n) s fun t => t.validating = s.validating ∧ t.fld R.SQ_RCP_STAT F.SQ_RCP_STAT_CAUSE = 6 ∧
      t.bit R.SQ_RCP_STAT F.SQ_RCP_STAT_PASS = false ∧ SameMemory s t := by
  refine ⟨_, execValidate_eq n s, ?_⟩
  have hub : (s.regWrite R.SQ_RCP_CTRL (Word.ofN (n.val + 0x100)) 0xFFFFFFFF).bit R.SQ_RCP_STAT F.SQ_RCP_STAT_BUSY
      = true := by
    rw [← hb]; exact State.bit_congr (State.rd_wr_other _ _ (by decide)) _
  rw [State.rcpStart, if_pos hub]
  exact ⟨rfl, State.cause_rcpStat _ _ _ (by decide), State.pass_rcpStat _ _ _, rfl, rfl, rfl, rfl, rfl, rfl⟩

/-- The end of a validation shows the first failing check (R146, R182); a recipe in use keeps VALID (log 41). -/
theorem validationDone_shows (s : State) (hb : s.bit R.SQ_RCP_STAT F.SQ_RCP_STAT_BUSY = true) :
    Does .validationDone s fun t => t.bit R.SQ_RCP_STAT F.SQ_RCP_STAT_BUSY = false ∧
      t.fld R.SQ_RCP_STAT F.SQ_RCP_STAT_CAUSE = s.rcpCheck s.validating ∧
      t.bit R.SQ_RCP_STAT F.SQ_RCP_STAT_PASS = decide (s.rcpCheck s.validating = 0) ∧
      t.bit R.SQ_RCP_CTRL F.SQ_RCP_CTRL_VALIDATE = false ∧
      (s.rcpCheck s.validating ≠ 6 → t.rcpValid s.validating = decide (s.rcpCheck s.validating = 0)) ∧
      SameRegsBut [R.SQ_RCP_STAT, R.SQ_RCP_CTRL] s t := by
  have hne : R.SQ_RCP_CTRL ≠ R.SQ_RCP_STAT := by decide
  generalize hn : s.validating = n
  obtain ⟨u, hu⟩ : ∃ u, u = (s.setFld R.SQ_RCP_STAT F.SQ_RCP_STAT_BUSY 0).setFld R.SQ_RCP_CTRL F.SQ_RCP_CTRL_VALIDATE 0 :=
    ⟨_, rfl⟩
  have hc : u.rcpCheck n = s.rcpCheck n := by
    rw [hu, State.setFld, State.rcpCheck_wr_rcpReg _ _ (.inl rfl), State.setFld, State.rcpCheck_wr_rcpReg _ _ (.inr rfl)]
  have hex : exec .validationDone s = .next (u.rcpValidate n) := by
    simp only [exec, execValidationDone, hb, if_true, hu, hn]
  refine ⟨_, hex, ?_⟩
  -- what the registers show does not depend on the bit of the store that is set last
  have hrd : ∀ a, (u.rcpValidate n).rd a = (u.rcpStat (decide (s.rcpCheck n = 0)) (s.rcpCheck n)).rd a := by
    intro a
    simp only [State.rcpValidate, hc, State.when]
    split <;> simp
  have huw : Writes (· ∈ [R.SQ_RCP_STAT, R.SQ_RCP_CTRL]) s u := by
    rw [hu]; exact (s.setFld_writes _ _ (by simp)).trans (State.setFld_writes _ _ _ (by simp))
  have hst := u.rcpStat_writes (decide (s.rcpCheck n = 0)) (s.rcpCheck n)
  refine ⟨?_, ?_, ?_, ?_, fun h6 => ?_, fun a ha => ?_⟩
  · rw [State.bit_congr (hrd _), State.busy_rcpStat, hu, State.bit_congr (State.rd_setFld_other _ _ _ hne.symm),
      State.bit_setFld_same _ _ _ _ (by decide) rfl]
    rfl
  · rw [State.fld_congr (hrd _), State.cause_rcpStat _ _ _ (s.rcpCheck_lt n)]
  · rw [State.bit_congr (hrd _), State.pass_rcpStat]
  · rw [State.bit_congr (hrd _), State.bit_congr (hst.regs _ hne), hu, State.bit_setFld_same _ _ _ _ (by decide) rfl]
    rfl
  · simp only [State.rcpValidate, hc, State.when, decide_eq_true h6, if_true, State.rcpValid_rcpSetBit]
  · have hstat : a ≠ R.SQ_RCP_STAT := fun h => ha (by simp [h])
    rw [hrd, hst.regs a hstat, huw.regs a ha]

/-- INVALIDATE of a recipe that is not in use (R147). -/
theorem invalidate_unused (n : Fin 256) (s : State) (hi : s.rcpInUse n = false) :
    Does (.invalidate n) s fun t => t.rcpValid n = false ∧ t.rcpInUse n = false ∧ t.lawMem = s.lawMem ∧
      SameRegsBut [R.SQ_RCP_STAT, R.SQ_RCP_CTRL] s t := by
  refine ⟨_, execInvalidate_eq n s, ?_⟩
  have hu : Writes (· ∈ [R.SQ_RCP_STAT, R.SQ_RCP_CTRL]) s
      (s.regWrite R.SQ_RCP_CTRL (Word.ofN (n.val + 0x200)) 0xFFFFFFFF) := s.wr_writes _ (by simp)
  generalize s.regWrite R.SQ_RCP_CTRL (Word.ofN (n.val + 0x200)) 0xFFFFFFFF = u at hu
  have hui : u.rcpInUse n = false := (State.rcpInUse_congr hu.sameMemory.dram n).trans hi
  have hw : Writes (· ∈ [R.SQ_RCP_STAT, R.SQ_RCP_CTRL]) s (u.rcpStat false 0) :=
    hu.trans ((u.rcpStat_writes false 0).mono (by simp))
  have hsi : (u.rcpStat false 0).rcpInUse n = false := (State.rcpInUse_congr hw.sameMemory.dram n).trans hi
  rw [State.rcpInvalidate, if_neg (by simp [hui])]
  refine ⟨State.rcpValid_rcpSetBit _ _ _, ?_, ?_, fun a ha => ?_⟩
  · rw [State.rcpInUse_rcpSetBit_valid, hsi]
  · rw [State.rcpSetBit_lawMem]
    exact hw.sameMemory.lawMem
  · rw [State.rd_rcpSetBit, hw.regs a ha]

/-- INVALIDATE of a recipe in use (R147). -/
theorem invalidate_inUse (n : Fin 256) (s : State) (hi : s.rcpInUse n = true) :
    Does (.invalidate n) s fun t => t.fld R.SQ_RCP_STAT F.SQ_RCP_STAT_CAUSE = 6 ∧ SameMemory s t ∧
      SameRegsBut [R.SQ_RCP_STAT, R.SQ_RCP_CTRL] s t := by
  refine ⟨_, execInvalidate_eq n s, ?_⟩
  have hu : Writes (· ∈ [R.SQ_RCP_STAT, R.SQ_RCP_CTRL]) s
      (s.regWrite R.SQ_RCP_CTRL (Word.ofN (n.val + 0x200)) 0xFFFFFFFF) := s.wr_writes _ (by simp)
  generalize s.regWrite R.SQ_RCP_CTRL (Word.ofN (n.val + 0x200)) 0xFFFFFFFF = u at hu
  have hui : u.rcpInUse n = true := (State.rcpInUse_congr hu.sameMemory.dram n).trans hi
  have hw : Writes (· ∈ [R.SQ_RCP_STAT, R.SQ_RCP_CTRL]) s (u.rcpStat false 6) :=
    hu.trans ((u.rcpStat_writes false 6).mono (by simp))
  rw [State.rcpInvalidate, if_pos hui]
  exact ⟨State.cause_rcpStat _ _ _ (by decide), hw.sameMemory, hw.sameRegsBut⟩

/-- Settles O17: the recipe commands case by case, each through SQ_RCP_CTRL and SQ_RCP_STAT. -/
theorem recipeValidation : Obligations.RecipeValidation := by
  unfold Obligations.RecipeValidation
  refine ⟨validate_idle, validate_busy, fun s c hb hc => ?_, invalidate_unused, invalidate_inUse⟩
  subst hc
  exact validationDone_shows s hb

end Sys2Proof.Machine
end

section
/-!
What the processing of a lane leaves as it was (R172): the registers and the unit state that the exits, the timers and
the staged entries do not touch.
-/
namespace Sys2Proof.Machine
open Sys2Proof

-- words of a lane block

/-- No word from the pending bits up to the rings is written by recording an event. -/
theorem not_eventWord_of_between {a : Nat} (h : 0x9020 ≤ a) (h' : a < 0x2C000) : ¬ eventWord a := by
  rintro (he | he | ⟨k, -, -, he⟩)
  · simp only [R.EV_HEAD_SEQ, R.EV_OLDEST_SEQ, R.EV_STAGE_FILL, R.EV_LOST_CNT, R.EV_STAT, R.HI_IRQ0_STAT,
      List.mem_cons, List.not_mem_nil, or_false] at he
    omega
  · omega
  · simp only [R.HI_RING_HEAD, R.HI_RING_CNT, R.HI_RING_LOST, List.mem_cons, List.not_mem_nil, or_false] at he
    omega

/-- A word that the evaluation of exits may write: SQ_STAT, SQ_EXV and SQ_DWL. -/
def laneEvalWord (l a : Nat) : Prop := a = R.SQ_STAT l ∨ (R.SQ_EXV l 0 ≤ a ∧ a < R.SQ_LT l 0)

/-- A word that a lane's processing may write after its commands: its command code, its timers, and those of its exits. -/
def laneTailWord (l a : Nat) : Prop :=
  laneEvalWord l a ∨ a = R.SQ_CMD l ∨ a = R.SQ_TIMER l ∨ (R.SQ_LT l 0 ≤ a ∧ a < R.SQ_ABORT_ENT l)

/-- The words of the staged entries and their count. -/
def laneStgWord (l a : Nat) : Prop := R.SQ_FROG_CNT l ≤ a ∧ a < R.SQ_EXV l 0

@[simp] theorem State.laneX_setLaneX (s : State) (l : Nat) (x : LaneX) : (s.setLaneX l x).laneX l = x :=
  Smap.get_set_same _ _ _ _

@[simp] theorem State.laneX_wr (s : State) (l a : Nat) (v : Word) : (s.wr a v).laneX l = s.laneX l := rfl

theorem Writes.laneX {P : Nat → Prop} {s t : State} (h : Writes P s t) (l : Nat) : t.laneX l = s.laneX l := by
  rw [State.laneX, h.lanes, State.laneX]

theorem SameMemory.setLaneX (s : State) (l : Nat) (x : LaneX) : SameMemory s (s.setLaneX l x) :=
  ⟨rfl, rfl, rfl, rfl, rfl, rfl⟩

-- the evaluation of exits

/-- What the evaluation of exits keeps: memories, the registers but those of the exits and of recording, and the unit
state of the lane but its filters and the mark of the WARN. -/
structure LaneKeeps (l : Nat) (s t : State) : Prop where
  mem : SameMemory s t
  regs : ∀ a, ¬ laneEvalWord l a → ¬ eventWord a → t.rd a = s.rd a
  lane : ∃ ends warned, t.laneX l = { s.laneX l with ends := ends, warned := warned }

theorem LaneKeeps.refl (l : Nat) (s : State) : LaneKeeps l s s := ⟨.refl s, fun _ _ _ => rfl, _, _, rfl⟩

theorem LaneKeeps.trans {l : Nat} {s t u : State} (h : LaneKeeps l s t) (k : LaneKeeps l t u) : LaneKeeps l s u := by
  refine ⟨h.mem.trans k.mem, fun a ha he => (k.regs a ha he).trans (h.regs a ha he), ?_⟩
  obtain ⟨e, w, hl⟩ := h.lane
  obtain ⟨e', w', kl⟩ := k.lane
  exact ⟨e', w', by rw [kl, hl]⟩

theorem Writes.laneKeeps {l : Nat} {s t : State} (h : Writes (laneEvalWord l) s t) : LaneKeeps l s t :=
  ⟨h.sameMemory, fun a ha _ => h.regs a ha, _, _, h.laneX l⟩

theorem Records.laneKeeps {s t : State} (h : Records s t) (l : Nat) : LaneKeeps l s t := by
  refine ⟨h.sameMemory, fun a _ he => h.regs a he, (s.laneX l).ends, (s.laneX l).warned, ?_⟩
  obtain ⟨io, out, ev, lost, fr, hr, worst, rfl⟩ := h.only
  rfl

theorem State.setLaneX_laneKeeps (s : State) (l : Nat) (e : List (Nat × EndF)) (w : Bool) :
    LaneKeeps l s (s.setLaneX l { s.laneX l with ends := e, warned := w }) :=
  ⟨.setLaneX s l _, fun _ _ _ => rfl, e, w, by simp⟩

theorem State.laneBad_keeps (s : State) (l : Nat) (tag : Word) : LaneKeeps l s (s.laneBad l tag) := by
  have hset : LaneKeeps l s (s.set1 (R.SQ_STAT l) F.SQ_STAT_BAD_VALUE) := (s.setFld_writes _ _ (.inl rfl)).laneKeeps
  unfold State.laneBad
  dsimp only
  split
  · exact hset
  · exact (hset.trans (State.setLaneX_laneKeeps _ l _ _)).trans ((State.statusEvent_records _ _ _ _ _ _ _).laneKeeps l)

theorem State.when_laneKeeps {l : Nat} (s : State) (c : Bool) (f : State → State) (h : LaneKeeps l s (f s)) :
    LaneKeeps l s (s.when c f) := by
  cases c
  · exact .refl l s
  · exact h

theorem laneEvalWord_dwl (l : Nat) {j : Nat} (hj : j < 4) : laneEvalWord l (R.SQ_DWL l j) := by
  right; simp only [R.SQ_EXV, R.SQ_DWL, R.SQ_LT]; omega

theorem laneEvalWord_exv (l : Nat) {j : Nat} (hj : j < 4) : laneEvalWord l (R.SQ_EXV l j) := by
  right; simp only [R.SQ_EXV, R.SQ_LT]; omega

theorem State.laneDwell_keeps (s : State) (l : Nat) {j : Nat} (x : ExitD) (holds : Bool) (hj : j < 4) :
    LaneKeeps l s (s.laneDwell l j x holds).1 := (s.setFld_writes _ _ (laneEvalWord_dwl l hj)).laneKeeps

theorem State.setEnd_keeps (s : State) (l : Nat) {j : Nat} (e : EndF) (hj : j < 4) : LaneKeeps l s (s.setEnd l j e) :=
  (s.setLaneX_laneKeeps l _ _).trans (State.wr_writes _ _ (laneEvalWord_exv l hj)).laneKeeps

theorem State.laneExit_keeps (s : State) (l : Nat) {j : Nat} (x : ExitD) (full : Bool) (tag : Word) (hj : j < 4) :
    LaneKeeps l s (s.laneExit l j x full tag).1 := by
  unfold State.laneExit
  split
  · dsimp only
    exact (s.setEnd_keeps l _ hj).trans (State.when_laneKeeps _ _ _ (State.laneBad_keeps _ _ _))
  split
  · exact .refl l s
  split
  · exact .refl l s
  · dsimp only
    split
    · exact s.laneDwell_keeps l x _ hj
    · exact (s.laneBad_keeps l tag).trans (State.laneDwell_keeps _ l x _ hj)
    · exact s.laneDwell_keeps l x _ hj
  · dsimp only
    split
    · exact s.laneDwell_keeps l x _ hj
    · exact (s.laneBad_keeps l tag).trans (State.laneDwell_keeps _ l x _ hj)
    · exact (s.when_laneKeeps _ _ (s.laneBad_keeps l tag)).trans (State.laneDwell_keeps _ l x _ hj)
    · exact s.laneDwell_keeps l x _ hj
  · exact .refl l s
  · exact .refl l s
  · exact .refl l s
  · exact s.laneDwell_keeps l x _ hj

/-- One exit of the current step, in the order of R163. -/
def laneExitStep (l : Nat) (tag : Word) (acc : State × Option Nat) (jx : Nat × ExitD) : State × Option Nat :=
  let r := acc.1.laneExit l jx.1 jx.2 (acc.1.laneGoes l) tag
  (r.1, acc.2.or (if r.2 then some jx.1 else none))

/-- The first k exits of the current step. -/
def State.laneExitsTo (s : State) (l : Nat) (tag : Word) (k : Nat) : State × Option Nat :=
  ((List.range k).map (fun j => (j, s.stepExit (s.laneRecipe l) (s.laneStep l) j))).foldl (laneExitStep l tag) (s, none)

theorem State.laneExitsTo_succ (s : State) (l : Nat) (tag : Word) (k : Nat) :
    s.laneExitsTo l tag (k + 1) =
      laneExitStep l tag (s.laneExitsTo l tag k) (k, s.stepExit (s.laneRecipe l) (s.laneStep l) k) := by
  simp [State.laneExitsTo, List.range_succ]

theorem State.laneExits_eq (s : State) (l : Nat) (tag : Word) :
    s.laneExits l tag = s.laneExitsTo l tag (min 4 (s.stepExits (s.laneRecipe l) (s.laneStep l))) := by
  have hzip : ∀ (m : Nat) (f : Nat → ExitD),
      (List.range m).zip ((List.range m).map f) = (List.range m).map (fun j => (j, f j)) :=
    fun m f => by simpa using List.zip_map' (f := id) (g := f) (l := List.range m)
  unfold State.laneExits State.laneExitsTo State.stepExitList
  simp only [List.length_map, List.length_range, hzip]
  rfl

theorem State.laneExitsTo_keeps (s : State) (l : Nat) (tag : Word) (k : Nat) (hk : k ≤ 4) :
    LaneKeeps l s (s.laneExitsTo l tag k).1 := by
  induction k with
  | zero => exact .refl l s
  | succ k ih =>
    rw [State.laneExitsTo_succ]
    exact (ih (by omega)).trans (State.laneExit_keeps _ l _ _ tag (by omega))

theorem State.laneExits_keeps (s : State) (l : Nat) (tag : Word) : LaneKeeps l s (s.laneExits l tag).1 := by
  rw [State.laneExits_eq]
  exact s.laneExitsTo_keeps l tag _ (Nat.min_le_left _ _)

-- timers and ramps

theorem State.timerUp_writes {P : Nat → Prop} (s : State) {a : Nat} (ha : P a) : Writes P s (s.timerUp a) := by
  unfold State.timerUp
  split
  · exact .refl P s
  · exact s.wr_writes _ ha

/-- A lane that neither runs nor aborts keeps its timers. -/
theorem State.laneAdvanceTime_stopped (s : State) (l : Nat) (h : s.laneGoes l = false) : s.laneAdvanceTime l = s := by
  simp [State.laneAdvanceTime, h]

/-- The timers of a lane. -/
def laneTimerWord (l a : Nat) : Prop := a = R.SQ_TIMER l ∨ (R.SQ_LT l 0 ≤ a ∧ a < R.SQ_ABORT_ENT l)

/-- The advance of time writes timers and ramp values. -/
theorem State.laneAdvanceTime_spec (s : State) (l : Nat) :
    ∃ u r, Writes (laneTimerWord l) s u ∧
      (s.laneAdvanceTime l = u ∨ s.laneAdvanceTime l = u.setLaneX l { u.laneX l with ramps := r }) := by
  have hlt : ∀ i ∈ List.range 8, laneTimerWord l (R.SQ_LT l i) := by
    intro i hi
    have := List.mem_range.mp hi
    right; simp only [R.SQ_LT, R.SQ_ABORT_ENT]; omega
  have h1 : Writes (laneTimerWord l) s (s.each (List.range 8) (fun s i => s.timerUp (R.SQ_LT l i))) :=
    s.each_writes _ _ (fun u i hi => u.timerUp_writes (hlt i hi))
  unfold State.laneAdvanceTime
  split
  · dsimp only
    split
    · exact ⟨_, [], h1, .inl rfl⟩
    · exact ⟨_, _, h1.trans (State.timerUp_writes _ (.inl rfl)), .inr rfl⟩
  · exact ⟨s, [], .refl _ s, .inl rfl⟩

end Sys2Proof.Machine
end

section
/-!
The processing of a lane in Phase S (R172), on a lane for which one host command waits: what the command finds, and what
the steps after it keep.
-/
namespace Sys2Proof.Machine
open Sys2Proof

@[simp] theorem State.laneX_setFld (s : State) (l a : Nat) (f : Fld) (n : Nat) : (s.setFld a f n).laneX l = s.laneX l := rfl

-- DRAM data

theorem State.stepFld_congr {s t : State} (h : t.dram = s.dram) (n k w lsb len : Nat) :
    t.stepFld n k w lsb len = s.stepFld n k w lsb len := by
  simp [State.stepFld, State.stepAddr, State.rcpBase, State.rcpFld_congr h, State.dword_congr h]

theorem State.stepExit_congr {s t : State} (h : t.dram = s.dram) (n k j : Nat) : t.stepExit n k j = s.stepExit n k j := by
  simp [State.stepExit, State.stepAddr, State.extAddr, State.stepWrIdx, State.stepExt, State.rcpBase,
    State.rcpFld_congr h, State.stepFld_congr h, State.dword_congr h]

-- before the commands

/-- The lane with its conditions taken, which hands its host commands over (R157, R158, R170). -/
def State.laneAtCommand (s : State) (l : Nat) (n : Word) : State :=
  let s := (s.laneShowReady l n).laneConds l 0
  s.setLaneX l { s.laneX l with host := [] }

/-- A word that shows the completion of a fetch. -/
def laneReadyWord (l a : Nat) : Prop := a = R.SQ_ABORT_ENT l ∨ (R.SQ_STG l 0 ≤ a ∧ a < R.SQ_EXV l 0)

theorem State.laneShowReady_writes (s : State) (l : Nat) (n : Word) :
    Writes (laneReadyWord l) s (s.laneShowReady l n) := by
  have hstg : ∀ i ∈ List.range 8, laneReadyWord l (R.SQ_STG l i) := by
    intro i hi
    have := List.mem_range.mp hi
    right; simp only [R.SQ_STG, R.SQ_EXV]; omega
  unfold State.laneShowReady
  exact (s.each_writes _ _ fun u i hi => u.when_writes _ _ fun _ => u.setFld_writes _ _ (hstg i hi)).trans
    (State.when_writes _ _ _ fun _ => State.setFld_writes _ _ _ (.inl rfl))

/-- Showing a fetch leaves HELD of the abort entry. -/
theorem State.held_laneShowReady (s : State) (l : Nat) (n : Word) :
    (s.laneShowReady l n).bit (R.SQ_ABORT_ENT l) F.SQ_ABORT_ENT_HELD =
      s.bit (R.SQ_ABORT_ENT l) F.SQ_ABORT_ENT_HELD := by
  have h : Writes (· ≠ R.SQ_ABORT_ENT l) s (s.each (List.range 8) (fun s i =>
      s.when (s.fld (R.SQ_STG l i) F.SQ_STG_STATE = 1 && cycLe (s.stgReady l i) n) (fun s =>
        s.setFld (R.SQ_STG l i) F.SQ_STG_STATE 2))) := by
    refine s.each_writes _ _ fun u i hi => u.when_writes _ _ fun _ => u.setFld_writes _ _ ?_
    have := List.mem_range.mp hi
    simp only [R.SQ_STG, R.SQ_ABORT_ENT]; omega
  rw [← State.bit_congr (h.regs _ (by simp))]
  unfold State.laneShowReady
  dsimp only
  unfold State.when
  split
  · exact State.bit_setFld_other _ _ _ _ _ (by decide)
  · rfl

/-- What a command finds: the lane with no host command left, memories and registers as before but for shown fetches. -/
structure LaneFound (l : Nat) (s u : State) : Prop where
  mem : SameMemory s u
  regs : ∀ a, ¬ laneReadyWord l a → u.rd a = s.rd a
  held : u.bit (R.SQ_ABORT_ENT l) F.SQ_ABORT_ENT_HELD = s.bit (R.SQ_ABORT_ENT l) F.SQ_ABORT_ENT_HELD
  lane : u.laneX l = { s.laneX l with conds := 0, host := [] }

/-- With no condition now or before, the conditions change nothing but their note. -/
theorem State.laneConds_none (s : State) (l : Nat) :
    s.laneConds l 0 = s.setLaneX l { s.laneX l with conds := 0 } := by
  have hnone : (List.range 3).filter (fun c => Nat.testBit 0 c && !Nat.testBit (s.laneX l).conds c) = [] :=
    List.filter_eq_nil_iff.mpr fun c _ => by rw [Nat.zero_testBit, Bool.false_and]; exact Bool.false_ne_true
  unfold State.laneConds
  dsimp only
  rw [hnone, State.each, List.foldl_nil]

theorem State.laneAtCommand_found (s : State) (l : Nat) (n : Word) : LaneFound l s (s.laneAtCommand l n) := by
  have h := s.laneShowReady_writes l n
  have hheld := s.held_laneShowReady l n
  unfold State.laneAtCommand
  dsimp only
  generalize s.laneShowReady l n = u at h hheld ⊢
  rw [State.laneConds_none]
  refine ⟨h.sameMemory.trans ((SameMemory.setLaneX _ _ _).trans (SameMemory.setLaneX _ _ _)), fun a ha => ?_, ?_, ?_⟩
  · rw [State.rd_setLaneX, State.rd_setLaneX, h.regs a ha]
  · rw [← hheld, State.bit_congr (State.rd_setLaneX _ _ _ _), State.bit_congr (State.rd_setLaneX _ _ _ _)]
  · simp [h.laneX]

-- after the commands

/-- The exits of the lane are evaluated in this Phase S (R156, R163). -/
def State.laneRuns (s : State) (l : Nat) : Bool :=
  ((s.laneGoes l && !s.lanePend l) || (s.laneState l = 2 && (!s.lanePend l || s.rd (R.SQ_SEQ l) ≠ 0))) &&
    !(s.laneX l).abort

/-- The exit result of the lane (R66, R163). -/
def State.laneWin (s : State) (l : Nat) (tag : Word) : State × Option Nat :=
  if !s.laneRuns l then (s, none)
  else match (s.laneX l).kept with
    | some j => if s.laneGoes l then (s, some j) else s.laneExits l tag
    | none => s.laneExits l tag

/-- The lane with its command done and its time advanced (R162, R172). -/
def State.laneTimed (s : State) (l : Nat) : State :=
  let s := s.setFld (R.SQ_CMD l) F.SQ_CMD_CODE 0
  (s.setLaneX l { s.laneX l with cmd := 0 }).laneAdvanceTime l

/-- What a lane's processing leaves after the commands, with its exit result. -/
def State.laneTail (s : State) (l : Nat) (tag : Word) : State × Option Nat :=
  let r := (s.laneTimed l).laneWin l tag
  (r.1.setLaneX l { r.1.laneX l with adv := [], kept := none }, r.2)

/-- The first three steps of R172 where the lane has no command of a task: its host commands between what
they find and the rest. -/
theorem State.laneBegin_eq (s : State) (l : Nat) (n tag : Word) (hf : (s.laneX l).fresh = false)
    (hc : (((s.laneShowReady l n).laneConds l 0).laneX l).cmd = 0) :
    s.laneBegin l 0 n tag =
      ((s.laneAtCommand l n).each (((s.laneShowReady l n).laneConds l 0).laneX l).host (fun s c =>
        s.laneCommand l c (s.rd (R.SQ_CMD_ARG l)) n tag)).laneTail l tag := by
  have hfresh : s.laneFresh l n = s := by simp [State.laneFresh, hf]
  unfold State.laneBegin State.laneAtCommand
  rw [hfresh]
  generalize (s.laneShowReady l n).laneConds l 0 = u at hc ⊢
  simp only [hc, if_true]
  generalize State.each _ _ _ = v
  unfold State.laneTail State.laneTimed
  dsimp only
  generalize State.laneAdvanceTime _ _ = w
  rfl

/-- On a lane with one host command and no other command, condition or restart, that command stands alone between what
it finds and the rest. -/
theorem State.laneBegin_of_waits {s : State} {l code : Nat} (n tag : Word) (h : s.laneWaits l code) :
    s.laneBegin l 0 n tag =
      ((s.laneAtCommand l n).laneCommand l code ((s.laneAtCommand l n).rd (R.SQ_CMD_ARG l)) n tag).laneTail l tag := by
  obtain ⟨hhost, hcmd, hfresh, -⟩ := h
  have hl : ((s.laneShowReady l n).laneConds l 0).laneX l = { s.laneX l with conds := 0 } := by
    rw [State.laneConds_none, State.laneX_setLaneX, (s.laneShowReady_writes l n).laneX l]
  have hc : (((s.laneShowReady l n).laneConds l 0).laneX l).cmd = 0 := by rw [hl]; exact hcmd
  have hh : (((s.laneShowReady l n).laneConds l 0).laneX l).host = [code] := by rw [hl]; exact hhost
  rw [State.laneBegin_eq _ _ _ _ hfresh hc, hh]
  rfl

/-- What the steps after the commands keep, with the command code cleared. -/
structure LaneTail (l : Nat) (s t : State) : Prop where
  mem : SameMemory s t
  regs : ∀ a, ¬ laneTailWord l a → ¬ eventWord a → t.rd a = s.rd a
  code : t.fld (R.SQ_CMD l) F.SQ_CMD_CODE = 0
  wait : (t.laneX l).wait = (s.laneX l).wait
  abort : (t.laneX l).abort = (s.laneX l).abort
  ramps : s.laneGoes l = false → (t.laneX l).ramps = (s.laneX l).ramps

theorem State.laneWin_keeps (s : State) (l : Nat) (tag : Word) : LaneKeeps l s (s.laneWin l tag).1 := by
  unfold State.laneWin
  split
  · exact .refl l s
  split
  · split
    · exact .refl l s
    · exact s.laneExits_keeps l tag
  · exact s.laneExits_keeps l tag

/-- What the command code's clearing and the advance of time leave of the lane. -/
structure LaneTimed (l : Nat) (s t : State) : Prop where
  mem : SameMemory s t
  regs : ∀ a, a ≠ R.SQ_CMD l → ¬ laneTimerWord l a → t.rd a = s.rd a
  code : t.fld (R.SQ_CMD l) F.SQ_CMD_CODE = 0
  lane : ∃ ramps, t.laneX l = { s.laneX l with cmd := 0, ramps := ramps }
  still : s.laneGoes l = false → t.laneX l = { s.laneX l with cmd := 0 }

theorem State.laneTimed_spec (s : State) (l : Nat) : LaneTimed l s (s.laneTimed l) := by
  have hcs : R.SQ_STATE l ≠ R.SQ_CMD l := by simp [R.SQ_STATE, R.SQ_CMD]
  unfold State.laneTimed
  dsimp only
  obtain ⟨u, hu⟩ : ∃ u, u = s.setFld (R.SQ_CMD l) F.SQ_CMD_CODE 0 := ⟨_, rfl⟩
  obtain ⟨v, hv⟩ : ∃ v, v = u.setLaneX l { u.laneX l with cmd := 0 } := ⟨_, rfl⟩
  rw [← hu, ← hv]
  have hvl : v.laneX l = { s.laneX l with cmd := 0 } := by rw [hv, State.laneX_setLaneX, hu, State.laneX_setFld]
  have hvr : ∀ a, a ≠ R.SQ_CMD l → v.rd a = s.rd a := fun a ha => by
    rw [hv, State.rd_setLaneX, hu, State.rd_setFld_other _ _ _ ha]
  have hgoes : v.laneGoes l = s.laneGoes l := by
    simp only [State.laneGoes, State.laneState, State.fld_congr (hvr _ hcs)]
    rfl
  have hcmd : v.fld (R.SQ_CMD l) F.SQ_CMD_CODE = 0 := by
    rw [hv, State.fld_congr (State.rd_setLaneX _ _ _ _), hu, State.fld_setFld_same _ _ _ _ (by decide)]
    exact Nat.zero_mod _
  have hcode : ¬ laneTimerWord l (R.SQ_CMD l) := by
    simp only [laneTimerWord, R.SQ_CMD, R.SQ_TIMER, R.SQ_LT, R.SQ_ABORT_ENT]; omega
  have hsv : SameMemory s v := by
    rw [hv, hu]; exact (SameMemory.wr _ _ _).trans (.setLaneX _ _ _)
  have hstill : s.laneGoes l = false → (v.laneAdvanceTime l).laneX l = { s.laneX l with cmd := 0 } := by
    intro hg
    rw [v.laneAdvanceTime_stopped l (hgoes.trans hg), hvl]
  obtain ⟨w, r, hw, ht | ht⟩ := v.laneAdvanceTime_spec l
  · refine ⟨?_, fun a ha hta => ?_, ?_, ⟨(s.laneX l).ramps, ?_⟩, hstill⟩ <;> rw [ht]
    · exact hsv.trans hw.sameMemory
    · rw [hw.regs a hta, hvr a ha]
    · rw [State.fld_congr (hw.regs _ hcode), hcmd]
    · rw [hw.laneX, hvl]
  · refine ⟨?_, fun a ha hta => ?_, ?_, ⟨r, ?_⟩, hstill⟩ <;> rw [ht]
    · exact (hsv.trans hw.sameMemory).trans (.setLaneX _ _ _)
    · rw [State.rd_setLaneX, hw.regs a hta, hvr a ha]
    · rw [State.fld_congr (State.rd_setLaneX _ _ _ _), State.fld_congr (hw.regs _ hcode), hcmd]
    · rw [State.laneX_setLaneX, hw.laneX, hvl]

theorem State.laneTail_spec (s : State) (l : Nat) (tag : Word) (hl : l < 16) : LaneTail l s (s.laneTail l tag).1 := by
  have ht := s.laneTimed_spec l
  have hk := (s.laneTimed l).laneWin_keeps l tag
  obtain ⟨r, htl⟩ := ht.lane
  obtain ⟨e, w, hkl⟩ := hk.lane
  have hev : ¬ laneEvalWord l (R.SQ_CMD l) := by
    simp only [laneEvalWord, R.SQ_CMD, R.SQ_STAT, R.SQ_EXV, R.SQ_LT]; omega
  have hne : ¬ eventWord (R.SQ_CMD l) :=
    not_eventWord_of_between (by simp only [R.SQ_CMD]; omega) (by simp only [R.SQ_CMD]; omega)
  unfold State.laneTail
  refine ⟨(ht.mem.trans hk.mem).trans (.setLaneX _ _ _), fun a ha hae => ?_, ?_, ?_, ?_, fun hg => ?_⟩
  · rw [State.rd_setLaneX, hk.regs a (fun h => ha (.inl h)) hae]
    exact ht.regs a (fun h => ha (.inr (.inl h))) (fun h => ha (h.elim (fun h => .inr (.inr (.inl h))) (fun h => .inr (.inr (.inr h)))))
  · rw [State.fld_congr (State.rd_setLaneX _ _ _ _), State.fld_congr (hk.regs _ hev hne), ht.code]
  · simp [hkl, htl]
  · simp [hkl, htl]
  · simp [hkl, ht.still hg]

/-- The rest of a lane's processing leaves a word of its block that is none of the code, the timers and the exits. -/
theorem LaneTail.rd {l : Nat} {s t : State} (h : LaneTail l s t) (hl : l < 16) (a : Nat) (h0 : 0x10000 + 0x1000 * l ≤ a)
    (h1 : a < 0x11000 + 0x1000 * l) (hw : ¬ laneTailWord l a) : t.rd a = s.rd a :=
  h.regs a hw (not_eventWord_of_between (by omega) (by omega))

theorem LaneTail.state {l : Nat} {s t : State} (h : LaneTail l s t) (hl : l < 16) :
    t.rd (R.SQ_STATE l) = s.rd (R.SQ_STATE l) :=
  h.rd hl _ (by simp [R.SQ_STATE]) (by simp only [R.SQ_STATE]; omega)
    (by simp only [laneTailWord, laneEvalWord, R.SQ_STATE, R.SQ_STAT, R.SQ_EXV, R.SQ_LT, R.SQ_CMD, R.SQ_TIMER, R.SQ_ABORT_ENT]; omega)

theorem LaneTail.pos {l : Nat} {s t : State} (h : LaneTail l s t) (hl : l < 16) :
    t.rd (R.SQ_POS l) = s.rd (R.SQ_POS l) :=
  h.rd hl _ (by simp [R.SQ_POS]) (by simp only [R.SQ_POS]; omega)
    (by simp only [laneTailWord, laneEvalWord, R.SQ_POS, R.SQ_STAT, R.SQ_EXV, R.SQ_LT, R.SQ_CMD, R.SQ_TIMER, R.SQ_ABORT_ENT]; omega)

theorem LaneTail.seq {l : Nat} {s t : State} (h : LaneTail l s t) (hl : l < 16) :
    t.rd (R.SQ_SEQ l) = s.rd (R.SQ_SEQ l) :=
  h.rd hl _ (by simp [R.SQ_SEQ]) (by simp only [R.SQ_SEQ]; omega)
    (by simp only [laneTailWord, laneEvalWord, R.SQ_SEQ, R.SQ_STAT, R.SQ_EXV, R.SQ_LT, R.SQ_CMD, R.SQ_TIMER, R.SQ_ABORT_ENT]; omega)

theorem LaneTail.rej {l : Nat} {s t : State} (h : LaneTail l s t) (hl : l < 16) :
    t.rd (R.SQ_REJ l) = s.rd (R.SQ_REJ l) :=
  h.rd hl _ (by simp [R.SQ_REJ]) (by simp only [R.SQ_REJ]; omega)
    (by simp only [laneTailWord, laneEvalWord, R.SQ_REJ, R.SQ_STAT, R.SQ_EXV, R.SQ_LT, R.SQ_CMD, R.SQ_TIMER, R.SQ_ABORT_ENT]; omega)

end Sys2Proof.Machine
end

section
/-!
Lane commands (R157): the refusal, START with its admission of a recipe, and the command as the host gives it.
-/
namespace Sys2Proof.Machine
open Sys2Proof

-- what a command finds

theorem LaneFound.word {l : Nat} {s u : State} (h : LaneFound l s u) {a : Nat} (ha : a < R.SQ_STG l 0) :
    u.rd a = s.rd a :=
  h.regs a (by simp only [laneReadyWord, R.SQ_ABORT_ENT, R.SQ_STG] at ha ⊢; omega)

theorem LaneFound.state {l : Nat} {s u : State} (h : LaneFound l s u) : u.rd (R.SQ_STATE l) = s.rd (R.SQ_STATE l) :=
  h.word (by simp only [R.SQ_STATE, R.SQ_STG]; omega)

theorem LaneFound.pos {l : Nat} {s u : State} (h : LaneFound l s u) : u.rd (R.SQ_POS l) = s.rd (R.SQ_POS l) :=
  h.word (by simp only [R.SQ_POS, R.SQ_STG]; omega)

theorem LaneFound.arg {l : Nat} {s u : State} (h : LaneFound l s u) :
    u.rd (R.SQ_CMD_ARG l) = s.rd (R.SQ_CMD_ARG l) :=
  h.word (by simp only [R.SQ_CMD_ARG, R.SQ_STG]; omega)

theorem State.laneState_congr {s t : State} {l : Nat} (h : t.rd (R.SQ_STATE l) = s.rd (R.SQ_STATE l)) :
    t.laneState l = s.laneState l := State.fld_congr h _

theorem State.laneRecipe_congr {s t : State} {l : Nat} (h : t.rd (R.SQ_POS l) = s.rd (R.SQ_POS l)) :
    t.laneRecipe l = s.laneRecipe l := State.fld_congr h _

theorem State.laneStep_congr {s t : State} {l : Nat} (h : t.rd (R.SQ_POS l) = s.rd (R.SQ_POS l)) :
    t.laneStep l = s.laneStep l := State.fld_congr h _

/-- Phase S on a lane where one host command waits: what the command finds, and what remains of its result. -/
theorem State.laneAfter_of_waits {s : State} {l code : Nat} (n tag : Word) (hl : l < 16) (h : s.laneWaits l code) :
    ∃ u, LaneFound l s u ∧ LaneTail l (u.laneCommand l code (s.rd (R.SQ_CMD_ARG l)) n tag) (s.laneAfter l n tag) := by
  have hu := s.laneAtCommand_found l n
  refine ⟨_, hu, ?_⟩
  rw [State.laneAfter, State.laneBegin_of_waits n tag h, hu.arg]
  exact State.laneTail_spec _ l tag hl

-- the refusal

/-- A refused lane command shows its code and the reason, and leaves the rest of the lane's words and all units. -/
theorem State.laneReject_spec (s : State) (l code why : Nat) (tag : Word) (hl : l < 16) :
    (s.laneReject l code why tag).rd (R.SQ_REJ l) = Word.ofN (code % 8 + why * 16) ∧
      SameMemory s (s.laneReject l code why tag) ∧
      ∀ a, a ≠ R.SQ_REJ l → a ≠ R.SQ_STAT l → ¬ eventWord a → (s.laneReject l code why tag).rd a = s.rd a := by
  have hrec := State.raise_records (s.wr (R.SQ_REJ l) (Word.ofN (code % 8 + why * 16))) 1 9 l (R.SQ_STAT l)
    F.SQ_STAT_CMD_REJ tag
  have hne : ¬ eventWord (R.SQ_REJ l) :=
    not_eventWord_of_between (by simp only [R.SQ_REJ]; omega) (by simp only [R.SQ_REJ]; omega)
  unfold State.laneReject
  refine ⟨?_, ?_, fun a hr hs he => ?_⟩
  · rw [hrec.regs _ hne, State.set1, State.rd_setFld_other _ _ _ (by simp [R.SQ_REJ, R.SQ_STAT]), State.rd_wr_same]
  · exact ((SameMemory.wr _ _ _).trans (SameMemory.wr _ _ _)).trans hrec.sameMemory
  · rw [hrec.regs _ he, State.set1, State.rd_setFld_other _ _ _ hs, State.rd_wr_other _ _ hr]

/-- A refusal in Phase S: reason and code, with SQ_POS and the memories as before. -/
theorem laneAfter_rejected {s u t : State} {l code why : Nat} {tag : Word} (hl : l < 16) (hu : LaneFound l s u)
    (ht : LaneTail l (u.laneReject l code why tag) t) :
    t.rd (R.SQ_REJ l) = Word.ofN (code % 8 + why * 16) ∧ t.rd (R.SQ_POS l) = s.rd (R.SQ_POS l) ∧ SameMemory s t := by
  obtain ⟨hrej, hmem, hregs⟩ := u.laneReject_spec l code why tag hl
  refine ⟨by rw [ht.rej hl, hrej], ?_, (hu.mem.trans hmem).trans ht.mem⟩
  rw [ht.pos hl, hregs _ (by simp [R.SQ_POS, R.SQ_REJ]) (by simp [R.SQ_POS, R.SQ_STAT])
    (not_eventWord_of_between (by simp only [R.SQ_POS]; omega) (by simp only [R.SQ_POS]; omega)), hu.pos]

-- START

theorem State.frogAll_writes (s : State) (l : Nat) : Writes (laneStgWord l) s (s.frogAll l) := by
  unfold State.frogAll State.frogExcept
  refine (s.each_writes _ _ fun u i hi => u.wr_writes _ ?_).trans (State.wr_writes _ _ ?_)
  · have := List.mem_range.mp (List.mem_filter.mp hi).1
    simp only [laneStgWord, R.SQ_FROG_CNT, R.SQ_STG, R.SQ_EXV]; omega
  · simp only [laneStgWord, R.SQ_FROG_CNT, R.SQ_EXV]; omega

/-- A word that START clears beside SQ_POS, SQ_SEQ, SQ_STATE and the abort entry: counters, timers and staged entries. -/
def laneClearWord (l a : Nat) : Prop := R.SQ_RC l 0 ≤ a

/-- What START leaves where it admits a recipe. -/
structure LaneAdmits (l r : Nat) (n : Word) (u v : State) : Prop where
  recipe : v.laneRecipe l = r
  step : v.laneStep l = 0
  seq : v.rd (R.SQ_SEQ l) = 0
  state : v.rd (R.SQ_STATE l) = 0x11
  wait : (v.laneX l).wait = some ⟨0, none, n + 2⟩
  inUse : v.rcpInUse r = true
  lawMem : v.lawMem = u.lawMem
  outMaster : v.outMaster = u.outMaster

theorem State.laneStart_admits (u : State) (l r : Nat) (n tag : Word) (hr : r < 256)
    (hst : u.laneState l = 0 ∨ u.laneState l = 4) (hv : u.rcpValid r = true)
    (hc : u.rcpChamber r = u.fld (R.SQ_CFG l) F.SQ_CFG_CHAMBER) (hcond : (u.laneX l).conds = 0) :
    LaneAdmits l r n u (u.laneStart l r n tag) := by
  have hst' : ¬ (u.laneState l ≠ 0 ∧ u.laneState l ≠ 4) := by omega
  have hok : ¬ (u.rcpValid r = false ∨ u.rcpChamber r ≠ u.fld (R.SQ_CFG l) F.SQ_CFG_CHAMBER) := by simp [hv, hc]
  have hfree : ∀ c : Bool, (u.when c (fun s => s.rcpUse (s.laneRecipe l) false)).lanes = u.lanes ∧
      (u.when c (fun s => s.rcpUse (s.laneRecipe l) false)).lawMem = u.lawMem ∧
      (u.when c (fun s => s.rcpUse (s.laneRecipe l) false)).outMaster = u.outMaster := by
    intro c; cases c <;> simp [State.when, State.rcpUse]
  generalize ht : u.laneStart l r n tag = t
  unfold State.laneStart at ht
  extract_lets st s1 s2 s3 s4 s5 s6 s7 s8 ab s9 x s10 at ht
  rw [if_neg hst', if_neg hok] at ht
  -- the recipe's entry
  have hin2 : s2.rcpInUse r = true := by simp only [s2, State.rcpInUse_rcpUse, if_true]
  have hlanes2 : s2.lanes = u.lanes := by
    simp only [s2, State.rcpUse, State.rcpSetBit_lanes]
    exact (hfree _).1
  have hlaw2 : s2.lawMem = u.lawMem := by
    simp only [s2, State.rcpUse, State.rcpSetBit_lawMem]
    exact (hfree _).2.1
  have hout2 : s2.outMaster = u.outMaster := by
    simp only [s2, State.rcpUse, State.rcpSetBit_outMaster]
    exact (hfree _).2.2
  -- position and SEQ
  have h24 : Writes (fun a => a < R.SQ_RC l 0) s2 s4 :=
    ((s2.setFld_writes _ _ (by simp [R.SQ_POS, R.SQ_RC])).trans (State.setFld_writes _ _ _ (by simp [R.SQ_POS, R.SQ_RC]))).trans
      (State.wr_writes _ _ (by simp [R.SQ_SEQ, R.SQ_RC]))
  have hpos4 : s4.rd (R.SQ_POS l) = s3.rd (R.SQ_POS l) := State.rd_wr_other _ _ (by simp [R.SQ_POS, R.SQ_SEQ])
  have hrec3 : s3.laneRecipe l = r := by
    simp only [s3, State.laneRecipe]
    rw [State.fld_setFld_other _ _ _ _ _ (by decide), State.fld_setFld_same _ _ _ _ (by decide)]
    exact Nat.mod_eq_of_lt hr
  have hstep3 : s3.laneStep l = 0 := State.fld_setFld_same _ _ _ _ (by decide)
  -- counters, timers and staged entries
  have h47 : Writes (fun a => R.SQ_RC l 0 ≤ a) s4 s7 := by
    refine ((s4.each_writes _ _ fun v i _ => v.wr_writes _ ?_).trans (State.each_writes _ _ _ fun v i _ => v.wr_writes _ ?_)).trans
      ((State.frogAll_writes _ l).mono fun a ha => ?_)
    · simp only [R.SQ_RC]; omega
    · simp only [R.SQ_LT, R.SQ_RC]; omega
    · simp only [laneStgWord, R.SQ_FROG_CNT, R.SQ_RC] at *; omega
  have h49 : Writes (fun a => a = R.SQ_STATE l ∨ R.SQ_RC l 0 ≤ a) s4 s9 :=
    ((h47.mono fun _ h => .inr h).trans (State.wr_writes _ _ (.inl rfl))).trans
      (State.wr_writes _ _ (.inr (by simp [R.SQ_RC, R.SQ_ABORT_ENT])))
  have hmem : SameMemory s2 s10 := (h24.sameMemory.trans h49.sameMemory).trans (.setLaneX _ _ _)
  have hseq4 : s4.rd (R.SQ_SEQ l) = 0 := State.rd_wr_same _ _ _
  have hx : x.conds = 0 := by
    simp only [x]
    rw [h49.laneX, h24.laneX, State.laneX, hlanes2]
    exact hcond
  have ht' : s10 = t := by
    have hnone : (List.range 3).filter (Nat.testBit 0) = [] :=
      List.filter_eq_nil_iff.mpr fun c _ => by rw [Nat.zero_testBit]; exact Bool.false_ne_true
    rw [← ht, hx, hnone, State.each, List.foldl_nil]
  have hpos : t.rd (R.SQ_POS l) = s3.rd (R.SQ_POS l) := by
    rw [← ht']
    simp only [s10, State.rd_setLaneX]
    rw [h49.regs _ (by simp [R.SQ_POS, R.SQ_STATE, R.SQ_RC]), hpos4]
  refine ⟨?_, ?_, ?_, ?_, ?_, ?_, ?_, ?_⟩
  · rw [State.laneRecipe_congr hpos, hrec3]
  · rw [State.laneStep_congr hpos, hstep3]
  · rw [← ht']
    simp only [s10, State.rd_setLaneX]
    rw [h49.regs _ (by simp [R.SQ_SEQ, R.SQ_STATE, R.SQ_RC]), hseq4]
  · rw [← ht']
    simp only [s10, State.rd_setLaneX]
    rw [State.rd_wr_other _ _ (by simp [R.SQ_STATE, R.SQ_ABORT_ENT]), State.rd_wr_same]
  · rw [← ht']
    simp only [s10, State.laneX_setLaneX]
  · rw [← ht', State.rcpInUse_congr hmem.dram, hin2]
  · rw [← ht', hmem.lawMem, hlaw2]
  · rw [← ht', hmem.outMaster, hout2]

theorem State.laneStart_busy (u : State) (l r : Nat) (n tag : Word) (h0 : u.laneState l ≠ 0) (h4 : u.laneState l ≠ 4) :
    u.laneStart l r n tag = u.laneReject l 1 1 tag := by
  unfold State.laneStart
  exact if_pos ⟨h0, h4⟩

theorem State.laneStart_unfit (u : State) (l r : Nat) (n tag : Word) (hst : u.laneState l = 0 ∨ u.laneState l = 4)
    (h : u.rcpValid r = false ∨ u.rcpChamber r ≠ u.fld (R.SQ_CFG l) F.SQ_CFG_CHAMBER) :
    u.laneStart l r n tag = u.laneReject l 1 3 tag := by
  have hst' : ¬ (u.laneState l ≠ 0 ∧ u.laneState l ≠ 4) := by omega
  unfold State.laneStart
  exact (if_neg hst').trans (if_pos h)

-- the command as the host gives it

theorem Reg.row_laneCmd (l : LaneIx) : Reg.row (R.SQ_CMD l) = some ⟨0x14, 1, 4, 0x0, 0x0, 0x7, 0x0, 0x0⟩ := by
  revert l; decide +kernel

/-- A command that the mode permits waits for Phase S with its code in SQ_CMD, and its argument in SQ_CMD_ARG. -/
theorem State.laneHost_waits (s : State) (l : LaneIx) (code : Nat) (arg : Option Word) (hu : s.laneUsed l = true)
    (hm : s.laneModeOk code = true) (h0 : 0 < code) (h7 : code ≤ 7) :
    ((s.laneHost l code arg).laneX l).host = (s.laneX l).host ++ [code] ∧
      ((s.laneHost l code arg).rd (R.SQ_CMD l)).toNat = code ∧
      (∀ w, arg = some w → (s.laneHost l code arg).rd (R.SQ_CMD_ARG l) = w) ∧
      SameMemory s (s.laneHost l code arg) ∧ SameRegsBut [R.SQ_CMD l, R.SQ_CMD_ARG l] s (s.laneHost l code arg) := by
  have hcode : (Word.ofN code).toNat = code := by rw [BitVec.toNat_ofNat]; omega
  have hreg : regCmd (R.SQ_CMD l) (Word.ofN code) 7 = Word.ofN code := by
    have : ∀ c : Fin 8, Word.ofN c.val &&& 7 &&& Word.ofN 7 = Word.ofN c.val := by decide
    simpa only [regCmd, Reg.row_laneCmd] using this ⟨code, by omega⟩
  have hne : R.SQ_CMD_ARG l ≠ R.SQ_CMD l := by simp [R.SQ_CMD_ARG, R.SQ_CMD]
  -- the state in which the code is written
  obtain ⟨u, hsu, hul, harg, hhost⟩ : ∃ u, Writes (· ∈ [R.SQ_CMD l, R.SQ_CMD_ARG l]) s u ∧ u.laneX l = s.laneX l ∧
      (∀ w, arg = some w → u.rd (R.SQ_CMD_ARG l) = w) ∧
      s.laneHost l code arg = (u.setLaneX l { u.laneX l with host := (u.laneX l).host ++ [code] }).wr (R.SQ_CMD l)
        (Word.ofN code) := by
    have hbus : ∀ u : State, u.laneUsed l = true → u.laneModeOk code = true →
        u.busLane l (R.SQ_CMD l) (Word.ofN code) 7 (u.tag 0) =
          ((u.setLaneX l { u.laneX l with host := (u.laneX l).host ++ [code] }).wr (R.SQ_CMD l) (Word.ofN code), 0) := by
      intro u hu hm
      simp only [State.busLane, hreg, hcode, hu, hm, Nat.pos_iff_ne_zero.mp h0, if_true, if_false, decide_false,
        Bool.not_true, Bool.or_self, Bool.false_eq_true]
    cases arg with
    | none =>
      refine ⟨s, .refl _ s, rfl, by simp, ?_⟩
      simp only [State.laneHost, hbus s hu hm, State.werrIf, if_true]
    | some w =>
      have hw : Writes (· ∈ [R.SQ_CMD l, R.SQ_CMD_ARG l]) s (s.wr (R.SQ_CMD_ARG l) w) := s.wr_writes _ (by simp)
      have hu' : (s.wr (R.SQ_CMD_ARG l) w).laneUsed l = true := by
        rw [← hu]
        exact State.bit_congr (State.rd_wr_other _ _ (by simp [R.SQ_CFG, R.SQ_CMD_ARG])) _
      have hm' : (s.wr (R.SQ_CMD_ARG l) w).laneModeOk code = true := by
        have : (s.wr (R.SQ_CMD_ARG l) w).mode = s.mode :=
          State.fld_congr (State.rd_wr_other _ _ (by simp only [R.SQ_CMD_ARG, R.TK_CTL]; omega)) _
        rw [← hm, State.laneModeOk, State.laneModeOk, this]
      refine ⟨_, hw, rfl, ?_, ?_⟩
      · rintro _ ⟨rfl⟩
        exact State.rd_wr_same _ _ _
      · simp only [State.laneHost, hu, hm, Bool.and_self, State.when, if_true, hbus _ hu' hm', State.werrIf]
  rw [hhost]
  refine ⟨by simp [hul], by rw [State.rd_wr_same, hcode], fun w hw => ?_, ?_, fun a ha => ?_⟩
  · rw [State.rd_wr_other _ _ hne, State.rd_setLaneX, harg w hw]
  · exact (hsu.sameMemory.trans (.setLaneX _ _ _)).trans (.wr _ _ _)
  · have hcmd : a ≠ R.SQ_CMD l := fun h => ha (by simp [h])
    rw [State.rd_wr_other _ _ hcmd, State.rd_setLaneX, hsu.regs a ha]

theorem State.laneModeOk_of_mode {s : State} (h : s.mode = 1 ∨ s.mode = 2) (code : Nat) : s.laneModeOk code = true := by
  rcases h with h | h <;> simp [State.laneModeOk, h]

/-- Settles O14: START waits for Phase S; there the lane's state and the recipe decide between admission and refusal. -/
theorem laneStartAdmitsARecipe : Obligations.LaneStartAdmitsARecipe := by
  unfold Obligations.LaneStartAdmitsARecipe
  refine ⟨fun l r s hu hm => ⟨_, rfl, ?_⟩, fun l r n tag s hw hr hst => ?_, fun l n tag s hw h0 h4 => ?_⟩
  · obtain ⟨hhost, hcmd, harg, hmem, hregs⟩ :=
      s.laneHost_waits l 1 (some (Word.ofN r)) hu (State.laneModeOk_of_mode hm 1) (by omega) (by omega)
    refine ⟨hhost, hcmd, ?_, hmem, hregs⟩
    have := r.isLt
    rw [harg _ rfl, BitVec.toNat_ofNat]; omega
  · have hlt : r < 256 := by omega
    obtain ⟨u, hu, ht⟩ := State.laneAfter_of_waits n tag l.isLt hw
    have hcmd : ∀ arg, u.laneCommand l 1 arg n tag = u.laneStart l (arg.toNat % 256) n tag := fun _ => rfl
    have hcfg : u.rd (R.SQ_CFG l) = s.rd (R.SQ_CFG l) := hu.word (by simp only [R.SQ_CFG, R.SQ_STG]; omega)
    rw [hcmd, hr] at ht
    have hst' : u.laneState l = 0 ∨ u.laneState l = 4 := by rw [State.laneState_congr hu.state]; exact hst
    have hvalid : u.rcpValid r = s.rcpValid r := by simp [State.rcpValid, State.rcpFld_congr hu.mem.dram]
    have hcham : u.rcpChamber r = s.rcpChamber r := State.rcpFld_congr hu.mem.dram _ _ _ _
    refine ⟨fun hv hc => ?_, fun hbad => ?_⟩
    · have hadm := u.laneStart_admits l r n tag hlt hst' (hvalid.trans hv)
        (by rw [hcham, hc, State.fld_congr hcfg]) (by rw [hu.lane])
      refine ⟨?_, ?_, ?_, ?_, ?_, ?_, ht.code, ?_, ?_⟩
      · rw [State.laneRecipe_congr (ht.pos l.isLt), hadm.recipe]
      · rw [State.laneStep_congr (ht.pos l.isLt), hadm.step]
      · rw [ht.seq l.isLt, hadm.seq]
      · rw [ht.state l.isLt, hadm.state]
      · rw [ht.wait, hadm.wait]
      · rw [State.rcpInUse_congr ht.mem.dram, hadm.inUse]
      · rw [ht.mem.lawMem, hadm.lawMem, hu.mem.lawMem]
      · rw [ht.mem.outMaster, hadm.outMaster, hu.mem.outMaster]
    · rw [State.laneStart_unfit u l r n tag hst' (by rw [hvalid, hcham, State.fld_congr hcfg]; exact hbad)] at ht
      exact laneAfter_rejected l.isLt hu ht
  · obtain ⟨u, hu, ht⟩ := State.laneAfter_of_waits n tag l.isLt hw
    have hrej : ∀ arg, u.laneCommand l 1 arg n tag = u.laneReject l 1 1 tag := fun arg =>
      u.laneStart_busy l (arg.toNat % 256) n tag (by rwa [State.laneState_congr hu.state])
        (by rwa [State.laneState_congr hu.state])
    rw [hrej] at ht
    exact laneAfter_rejected l.isLt hu ht

end Sys2Proof.Machine
end

section
/-!
HOLD, RESUME, ABORT, ADVANCE, CLEAR and GOTO of a lane (R157, R158, R161): what each leaves in the state that permits it.
-/
namespace Sys2Proof.Machine
open Sys2Proof

theorem not_eventWord_laneState {l : Nat} (hl : l < 16) : ¬ eventWord (R.SQ_STATE l) :=
  not_eventWord_of_between (by simp only [R.SQ_STATE]; omega) (by simp only [R.SQ_STATE]; omega)

-- HOLD

/-- A hold cause that begins in RUN. -/
theorem State.laneHoldCause_running (u : State) (l : Nat) (hl : l < 16) (hst : u.laneState l = 1) :
    (u.laneHoldCause l 0).laneState l = 2 ∧ (u.laneHoldCause l 0).bit (R.SQ_STATE l) ⟨8, 1⟩ = true ∧
      (u.laneHoldCause l 0).laneInAbort l = false ∧ SameMemory u (u.laneHoldCause l 0) := by
  let v := ((u.setFld (R.SQ_STATE l) ⟨8, 1⟩ 1).setB (R.SQ_STATE l) F.SQ_STATE_IN_ABORT false).setLane l 2
  have hv : u.laneHoldCause l 0 = v.laneHoldEvent l 1 := by
    simp [State.laneHoldCause, hst, v]
  have hrec : Records v (v.laneHoldEvent l 1) := State.eventU_records _ _ _ _ _ _ _
  have hrd := hrec.regs _ (not_eventWord_laneState hl)
  have huv : SameMemory u v := ((SameMemory.wr _ _ _).trans (SameMemory.wr _ _ _)).trans (SameMemory.wr _ _ _)
  rw [hv]
  refine ⟨?_, ?_, ?_, huv.trans hrec.sameMemory⟩
  · rw [State.laneState_congr hrd]
    exact State.fld_setFld_same _ _ _ _ (by decide)
  · rw [State.bit_congr hrd]
    simp only [v, State.setLane, State.setB]
    rw [State.bit_setFld_other _ _ _ _ _ (by decide), State.bit_setFld_other _ _ _ _ _ (by decide),
      State.bit_setFld_same _ _ _ _ (by decide) rfl]
    rfl
  · rw [State.laneInAbort, State.bit_congr hrd]
    simp only [v, State.setLane]
    rw [State.bit_setFld_other _ _ _ _ _ (by decide), State.bit_setB_same _ _ _ _ (by decide) rfl]

-- RESUME

theorem State.when_setLaneX (v : State) (c : Bool) (l a : Nat) (x : State → LaneX) :
    (v.when c fun s => s.setLaneX l (x s)).rd a = v.rd a ∧ SameMemory v (v.when c fun s => s.setLaneX l (x s)) := by
  cases c
  · exact ⟨rfl, .refl v⟩
  · exact ⟨rfl, .setLaneX _ _ _⟩

/-- RESUME in HOLD with no condition. -/
theorem State.laneResume_held (u : State) (l : Nat) (tag : Word) (hst : u.laneState l = 2)
    (hcond : (u.laneX l).conds = 0) :
    (u.laneResume l tag).laneState l = (if u.laneInAbort l then 3 else 1) ∧
      (u.laneResume l tag).fld (R.SQ_STATE l) F.SQ_STATE_HOLD_CAUSE = 0 ∧
      (u.laneResume l tag).laneInAbort l = false ∧ SameMemory u (u.laneResume l tag) := by
  let v := ((u.setFld (R.SQ_STATE l) F.SQ_STATE_HOLD_CAUSE 0).setFld (R.SQ_STATE l) F.SQ_STATE_IN_ABORT 0).setLane l
    (if u.laneInAbort l then 3 else 1)
  have hv : u.laneResume l tag =
      v.when (u.bit (R.SQ_STATE l) ⟨10, 1⟩) (fun s => s.setLaneX l { s.laneX l with reissue := true }) := by
    unfold State.laneResume
    rw [if_neg (by simp [hst]), if_neg (by simp [hcond])]
  obtain ⟨hrd, hmem⟩ := v.when_setLaneX (u.bit (R.SQ_STATE l) ⟨10, 1⟩) l (R.SQ_STATE l)
    fun s => { s.laneX l with reissue := true }
  have huv : SameMemory u v := ((SameMemory.wr _ _ _).trans (SameMemory.wr _ _ _)).trans (SameMemory.wr _ _ _)
  rw [hv]
  refine ⟨?_, ?_, ?_, huv.trans hmem⟩
  · rw [State.laneState_congr hrd]
    simp only [v, State.setLane, State.laneState]
    rw [State.fld_setFld_same _ _ _ _ (by decide)]
    split <;> rfl
  · rw [State.fld_congr hrd]
    simp only [v, State.setLane]
    rw [State.fld_setFld_other _ _ _ _ _ (by decide), State.fld_setFld_other _ _ _ _ _ (by decide),
      State.fld_setFld_same _ _ _ _ (by decide)]
    rfl
  · rw [State.laneInAbort, State.bit_congr hrd]
    simp only [v, State.setLane]
    rw [State.bit_setFld_other _ _ _ _ _ (by decide), State.bit_setFld_same _ _ _ _ (by decide) rfl]
    rfl

-- ABORT

/-- The recipe ends (R150, R161). -/
theorem State.laneFinish_spec (u : State) (l : Nat) (aborted : Bool) :
    (u.laneFinish l aborted).rd (R.SQ_STATE l) = (if aborted then 0x24 else 4) ∧
      ((u.laneFinish l aborted).laneX l).wait = none ∧ ((u.laneFinish l aborted).laneX l).abort = false ∧
      (u.laneFinish l aborted).lawMem = u.lawMem := by
  have hbad : ∀ (s : State) (c : Bool) (n : Nat),
      (s.when c (fun s => s.rcpSetBit (s.laneRecipe l) n false)).rd (R.SQ_STATE l) = s.rd (R.SQ_STATE l) ∧
      (s.when c (fun s => s.rcpSetBit (s.laneRecipe l) n false)).lawMem = s.lawMem := by
    intro s c n; cases c <;> simp [State.when]
  have hf := u.frogAll_writes l
  unfold State.laneFinish
  refine ⟨?_, by simp, by simp, ?_⟩
  · rw [State.rd_setLaneX, (hbad _ _ _).1, State.rd_wr_other _ _ (by simp [R.SQ_STATE, R.SQ_ABORT_ENT]), State.rd_wr_same]
  · rw [State.setLaneX_lawMem, (hbad _ _ _).2, State.wr_lawMem, State.wr_lawMem, hf.sameMemory.lawMem]

/-- The abort path of a lane that holds an abort entry (R161). -/
theorem State.laneAbortGo_held (u : State) (l : Nat) (h : u.bit (R.SQ_ABORT_ENT l) F.SQ_ABORT_ENT_HELD = true) :
    (u.laneAbortGo l).rd (R.SQ_STATE l) = 3 ∧ ((u.laneAbortGo l).laneX l).abort = true := by
  unfold State.laneAbortGo
  rw [if_pos h]
  exact ⟨by rw [State.rd_setLaneX, State.rd_wr_same], by simp⟩

/-- ABORT in RUN takes the abort path at once. -/
theorem State.laneCommand_abort_running (u : State) (l : Nat) (arg n tag : Word) (hst : u.laneState l = 1) :
    u.laneCommand l 4 arg n tag = u.laneAbortGo l := by
  have h : ¬ (u.laneState l = 2 ∧ u.laneInAbort l = true) := by omega
  have hcmd : u.laneCommand l 4 arg n tag = u.laneAbortCmd l := if_pos (.inl hst)
  rw [hcmd, State.laneAbortCmd]
  exact if_neg h

-- CLEAR

theorem State.laneClear_done (u : State) (l : Nat) (tag : Word) (hst : u.laneState l = 4) :
    (u.laneClear l tag).laneState l = 0 ∧ (u.laneClear l tag).bit (R.SQ_STATE l) F.SQ_STATE_ABORTED = false ∧
      (u.laneClear l tag).rcpInUse (u.laneRecipe l) = false := by
  have hv : u.laneClear l tag =
      ((u.rcpUse (u.laneRecipe l) false).setFld (R.SQ_STATE l) F.SQ_STATE_ABORTED 0).setLane l 0 := by
    unfold State.laneClear
    exact if_neg (by simp [hst])
  rw [hv]
  refine ⟨State.fld_setFld_same _ _ _ _ (by decide), ?_, ?_⟩
  · rw [State.setLane, State.bit_setFld_other _ _ _ _ _ (by decide), State.bit_setFld_same _ _ _ _ (by decide) rfl]
    rfl
  · rw [State.rcpInUse_congr (s := u.rcpUse (u.laneRecipe l) false) (by simp [State.setLane, State.setFld]),
      State.rcpInUse_rcpUse, if_pos rfl]

-- GOTO

theorem State.laneGoto_held (u : State) (l k : Nat) (n tag : Word) (hst : u.laneState l = 2)
    (hk : k < u.rcpSteps (u.laneRecipe l)) :
    (u.laneGoto l k n tag).laneState l = 2 ∧ (u.laneGoto l k n tag).lanePend l = true ∧
      ((u.laneGoto l k n tag).laneX l).wait = some ⟨k, none, n + 2⟩ ∧ ((u.laneGoto l k n tag).laneX l).ramps = [] ∧
      SameMemory u (u.laneGoto l k n tag) := by
  have hf := u.frogAll_writes l
  have hnf : ¬ laneStgWord l (R.SQ_STATE l) := by simp only [laneStgWord, R.SQ_STATE, R.SQ_FROG_CNT]; omega
  unfold State.laneGoto
  rw [if_neg (by simp [hst]), if_neg (by omega)]
  refine ⟨?_, ?_, by simp, by simp, (hf.sameMemory.trans (SameMemory.wr _ _ _)).trans (.setLaneX _ _ _)⟩
  · rw [State.laneState_congr (State.rd_setLaneX _ _ _ _), State.laneState, State.set1,
      State.fld_setFld_other _ _ _ _ _ (by decide), State.fld_congr (hf.regs _ hnf)]
    exact hst
  · rw [State.lanePend, State.bit_congr (State.rd_setLaneX _ _ _ _), State.set1,
      State.bit_setFld_same _ _ _ _ (by decide) rfl]
    rfl

-- ADVANCE

theorem State.laneExit_host (s : State) (l j : Nat) (x : ExitD) (tag : Word) (hx : x.typ = 5) :
    (s.laneExit l j x true tag).2 = (s.laneX l).adv.contains j := by
  simp [State.laneExit, hx]

theorem State.laneGoes_congr {s t : State} {l : Nat} (h : t.rd (R.SQ_STATE l) = s.rd (R.SQ_STATE l)) :
    t.laneGoes l = s.laneGoes l := by
  rw [State.laneGoes, State.laneGoes, State.laneState_congr h]

theorem LaneKeeps.state {l : Nat} {s t : State} (h : LaneKeeps l s t) (hl : l < 16) :
    t.rd (R.SQ_STATE l) = s.rd (R.SQ_STATE l) :=
  h.regs _ (by simp only [laneEvalWord, R.SQ_STATE, R.SQ_STAT, R.SQ_EXV]; omega) (not_eventWord_laneState hl)

/-- A HOST exit that an ADVANCE names ends the step, unless a lower exit does (R157, R163). -/
theorem State.laneExitsTo_advance (s : State) (l e : Nat) (tag : Word) (hl : l < 16) (hg : s.laneGoes l = true)
    (he : (s.laneX l).adv.contains e = true) (hx : (s.stepExit (s.laneRecipe l) (s.laneStep l) e).typ = 5) (k : Nat)
    (hk : k ≤ 4) :
    (∀ j, (s.laneExitsTo l tag k).2 = some j → j < k) ∧
      (e < k → ∃ j, (s.laneExitsTo l tag k).2 = some j ∧ j ≤ e) := by
  induction k with
  | zero => exact ⟨by simp [State.laneExitsTo], by omega⟩
  | succ k ih =>
    obtain ⟨hlow, hfound⟩ := ih (by omega)
    have hkeep := s.laneExitsTo_keeps l tag k (by omega)
    rw [State.laneExitsTo_succ]
    generalize s.laneExitsTo l tag k = acc at hlow hfound hkeep ⊢
    obtain ⟨u, win⟩ := acc
    cases hwin : win with
    | some j =>
      have hj : j < k := hlow j hwin
      refine ⟨fun i hi => ?_, fun hek => ⟨j, by simp [laneExitStep], ?_⟩⟩
      · simp [laneExitStep] at hi; omega
      · rcases Nat.lt_or_ge e k with h | h
        · obtain ⟨i, hi, hie⟩ := hfound h
          have : j = i := by simpa [hwin] using hi
          omega
        · omega
    | none =>
      have hke : k ≤ e := by
        refine Nat.le_of_not_lt fun hlt => ?_
        obtain ⟨i, hi, -⟩ := hfound hlt
        simp [hwin] at hi
      refine ⟨fun i hi => ?_, fun hek => ⟨e, ?_, Nat.le_refl e⟩⟩
      · have : i = k := by
          simp only [laneExitStep, Option.none_or] at hi
          split at hi
          · exact (Option.some.inj hi).symm
          · cases hi
        omega
      · have hek' : k = e := by omega
        obtain ⟨ends, warned, hlane⟩ := hkeep.lane
        have hug : u.laneGoes l = true := (State.laneGoes_congr (hkeep.state hl)).trans hg
        have hadv : (u.laneX l).adv.contains e = true := by rw [show u.laneX l = _ from hlane]; exact he
        simp only [laneExitStep, hek', hug, State.laneExit_host _ _ _ _ _ hx, hadv, if_true, Option.none_or]

/-- ADVANCE on a HOST exit of the committed step. -/
theorem State.laneAdvance_running (u : State) (l e : Nat) (tag : Word) (hst : u.laneState l = 1)
    (he : e < u.stepExits (u.laneRecipe l) (u.laneStep l))
    (hx : (u.stepExit (u.laneRecipe l) (u.laneStep l) e).typ = 5) :
    u.laneAdvance l e tag = u.setLaneX l { u.laneX l with adv := e :: (u.laneX l).adv } := by
  unfold State.laneAdvance
  rw [if_neg (by simp [hst])]
  exact if_neg (by simp [hx]; omega)

/-- A running lane whose ADVANCE stands takes its exit or a lower one. -/
theorem State.laneTail_advance (v : State) (l e : Nat) (tag : Word) (hl : l < 16) (hst : v.laneState l = 1)
    (hp : v.lanePend l = false) (hab : (v.laneX l).abort = false) (hkept : (v.laneX l).kept = none)
    (hadv : (v.laneX l).adv.contains e = true) (he4 : e < 4) (he : e < v.stepExits (v.laneRecipe l) (v.laneStep l))
    (hx : (v.stepExit (v.laneRecipe l) (v.laneStep l) e).typ = 5) :
    ∃ j, (v.laneTail l tag).2 = some j ∧ j ≤ e := by
  have ht := v.laneTimed_spec l
  obtain ⟨r, hlane⟩ := ht.lane
  have hstate : (v.laneTimed l).rd (R.SQ_STATE l) = v.rd (R.SQ_STATE l) :=
    ht.regs _ (by simp [R.SQ_STATE, R.SQ_CMD]) (by simp only [laneTimerWord, R.SQ_STATE, R.SQ_TIMER, R.SQ_LT]; omega)
  have hpos : (v.laneTimed l).rd (R.SQ_POS l) = v.rd (R.SQ_POS l) :=
    ht.regs _ (by simp [R.SQ_POS, R.SQ_CMD]) (by simp only [laneTimerWord, R.SQ_POS, R.SQ_TIMER, R.SQ_LT]; omega)
  have hdram := ht.mem.dram
  unfold State.laneTail
  generalize v.laneTimed l = w at hlane hstate hpos hdram
  have hg : w.laneGoes l = true := by
    rw [State.laneGoes_congr hstate]; simp [State.laneGoes, hst]
  have hpend : w.lanePend l = false := (State.bit_congr hstate _).trans hp
  have hruns : w.laneRuns l = true := by simp [State.laneRuns, hg, hpend, hlane, hab]
  have hwin : w.laneWin l tag = w.laneExits l tag := by
    simp [State.laneWin, hruns, hlane, hkept]
  have hexits : w.stepExits (w.laneRecipe l) (w.laneStep l) = v.stepExits (v.laneRecipe l) (v.laneStep l) := by
    rw [State.laneRecipe_congr hpos, State.laneStep_congr hpos, State.stepExits, State.stepFld_congr hdram, State.stepExits]
  have hexit : (w.stepExit (w.laneRecipe l) (w.laneStep l) e).typ = 5 := by
    rw [State.laneRecipe_congr hpos, State.laneStep_congr hpos, State.stepExit_congr hdram, hx]
  dsimp only
  rw [hwin, State.laneExits_eq, hexits]
  exact (w.laneExitsTo_advance l e tag hl hg (by rw [hlane]; exact hadv) hexit _ (Nat.min_le_left _ _)).2
    (Nat.lt_min.mpr ⟨he4, he⟩)

/-- Each of the six commands writes its code, and ADVANCE and GOTO their argument before it. -/
theorem exec_laneCommand {l : LaneIx} {e : Fin 4} {k : Fin 4096} {c : Instr} {code : Nat} (s : State)
    (hc : (c, code) ∈ [(Instr.laneHold l, 2), (.laneResume l, 3), (.laneAbort l, 4), (.laneAdvance l e, 5),
      (.laneClear l, 6), (.laneGoto l k, 7)]) :
    ∃ arg, 0 < code ∧ code ≤ 7 ∧ exec c s = .next (s.laneHost l code arg) ∧
      (code = 5 → arg = some (Word.ofN e)) ∧ (code = 7 → arg = some (Word.ofN k)) := by
  simp only [List.mem_cons, Prod.mk.injEq, List.not_mem_nil, or_false] at hc
  rcases hc with ⟨rfl, rfl⟩ | ⟨rfl, rfl⟩ | ⟨rfl, rfl⟩ | ⟨rfl, rfl⟩ | ⟨rfl, rfl⟩ | ⟨rfl, rfl⟩
  · exact ⟨none, by decide, by decide, rfl, by omega, by omega⟩
  · exact ⟨none, by decide, by decide, rfl, by omega, by omega⟩
  · exact ⟨none, by decide, by decide, rfl, by omega, by omega⟩
  · exact ⟨_, by decide, by decide, rfl, fun _ => rfl, by omega⟩
  · exact ⟨none, by decide, by decide, rfl, by omega, by omega⟩
  · exact ⟨_, by decide, by decide, rfl, by omega, fun _ => rfl⟩

/-- Settles O15: the commands wait for Phase S as START does, and each acts there on the state that permits it. -/
theorem laneHoldResumeAbortAdvanceClearGoto : Obligations.LaneHoldResumeAbortAdvanceClearGoto := by
  unfold Obligations.LaneHoldResumeAbortAdvanceClearGoto
  refine ⟨fun l e k c code s hu hc hm => ?_, fun l n tag s hw hst => ?_, fun l n tag s hw hst => ?_,
    fun l n tag s hw hst => ?_, fun l e n tag s hw hst hp hab hkept harg he hx => ?_, fun l n tag s hw hst => ?_,
    fun l n tag s hw hst hk => ?_⟩
  · have hok : s.laneModeOk code = true := by
      rcases hm with h | h | ⟨h, h2 | h4⟩
      · exact State.laneModeOk_of_mode (.inl h) code
      · exact State.laneModeOk_of_mode (.inr h) code
      · simp [State.laneModeOk, h, h2]
      · simp [State.laneModeOk, h, h4]
    obtain ⟨arg, h0, h7, hex, he, hk⟩ := exec_laneCommand s hc
    obtain ⟨hhost, hcmd, harg, hmem, hregs⟩ := s.laneHost_waits l code arg hu hok h0 h7
    refine ⟨_, hex, hhost, hcmd, fun h5 => ?_, fun h7 => ?_, hmem, hregs⟩
    · rw [harg _ (he h5), BitVec.toNat_ofNat]; omega
    · rw [harg _ (hk h7), BitVec.toNat_ofNat]; omega
  · obtain ⟨u, hu, ht⟩ := State.laneAfter_of_waits n tag l.isLt hw
    have hst' : u.laneState l = 1 := (State.laneState_congr hu.state).trans hst
    have hcmd : ∀ arg, u.laneCommand l 2 arg n tag = u.laneHoldCause l 0 := fun _ => if_neg (by simp [hst'])
    rw [hcmd] at ht
    obtain ⟨h2, hcause, hab, hmem⟩ := u.laneHoldCause_running l l.isLt hst'
    exact ⟨(State.laneState_congr (ht.state l.isLt)).trans h2, (State.bit_congr (ht.state l.isLt) _).trans hcause,
      (State.bit_congr (ht.state l.isLt) _).trans hab, (hu.mem.trans hmem).trans ht.mem⟩
  · obtain ⟨u, hu, ht⟩ := State.laneAfter_of_waits n tag l.isLt hw
    obtain ⟨h1, hcause, hab, hmem⟩ := u.laneResume_held l tag ((State.laneState_congr hu.state).trans hst) (by rw [hu.lane])
    have hin : u.laneInAbort l = s.laneInAbort l := State.bit_congr hu.state _
    refine ⟨?_, (State.fld_congr (ht.state l.isLt) _).trans hcause, (State.bit_congr (ht.state l.isLt) _).trans hab,
      (hu.mem.trans hmem).trans ht.mem⟩
    rw [← hin, ← h1]
    exact State.laneState_congr (ht.state l.isLt)
  · obtain ⟨u, hu, ht⟩ := State.laneAfter_of_waits n tag l.isLt hw
    rw [u.laneCommand_abort_running l _ n tag ((State.laneState_congr hu.state).trans hst)] at ht
    refine ⟨fun hheld => ?_, fun hheld => ?_⟩
    · have hgo : u.laneAbortGo l = u.laneFinish l true := by
        unfold State.laneAbortGo
        exact if_neg (by rw [hu.held, hheld]; decide)
      rw [hgo] at ht
      obtain ⟨hrd, hwait, hab, hlaw⟩ := u.laneFinish_spec l true
      have hrd' := (ht.state l.isLt).trans hrd
      refine ⟨?_, ?_, ht.wait.trans hwait, ht.abort.trans hab, (ht.mem.lawMem.trans hlaw).trans hu.mem.lawMem⟩
      · rw [State.laneState, State.fld, hrd']; decide
      · rw [State.bit, hrd']; decide
    · obtain ⟨hrd, hab⟩ := u.laneAbortGo_held l (hu.held.trans hheld)
      refine ⟨?_, ht.abort.trans hab⟩
      rw [State.laneState, State.fld, ht.state l.isLt, hrd]; decide
  · have hfound := s.laneAtCommand_found l n
    rw [State.laneBegin_of_waits n tag hw]
    generalize s.laneAtCommand l n = u at hfound
    have hargs : (u.rd (R.SQ_CMD_ARG l)).toNat % 4 = e.val := by rw [hfound.arg, harg]; omega
    have hexits : u.stepExits (u.laneRecipe l) (u.laneStep l) = s.stepExits (s.laneRecipe l) (s.laneStep l) := by
      rw [State.laneRecipe_congr hfound.pos, State.laneStep_congr hfound.pos, State.stepExits,
        State.stepFld_congr hfound.mem.dram, State.stepExits]
    have hexit : (u.stepExit (u.laneRecipe l) (u.laneStep l) e).typ = 5 := by
      rw [State.laneRecipe_congr hfound.pos, State.laneStep_congr hfound.pos, State.stepExit_congr hfound.mem.dram, hx]
    have hcmd : u.laneCommand l 5 (u.rd (R.SQ_CMD_ARG l)) n tag =
        u.setLaneX l { u.laneX l with adv := e.val :: (u.laneX l).adv } := by
      rw [← u.laneAdvance_running l e tag ((State.laneState_congr hfound.state).trans hst) (by omega) hexit, ← hargs]
      rfl
    rw [hcmd]
    refine State.laneTail_advance _ l e tag l.isLt ((State.laneState_congr hfound.state).trans hst)
      ((State.bit_congr hfound.state _).trans hp) ?_ ?_ ?_ e.isLt (Nat.lt_of_lt_of_eq he hexits.symm) hexit
    · rw [State.laneX_setLaneX, hfound.lane]; exact hab
    · rw [State.laneX_setLaneX, hfound.lane]; exact hkept
    · simp
  · obtain ⟨u, hu, ht⟩ := State.laneAfter_of_waits n tag l.isLt hw
    obtain ⟨h0, hab, huse⟩ := u.laneClear_done l tag ((State.laneState_congr hu.state).trans hst)
    refine ⟨(State.laneState_congr (ht.state l.isLt)).trans h0, (State.bit_congr (ht.state l.isLt) _).trans hab, ?_⟩
    rw [← State.laneRecipe_congr hu.pos]
    exact (State.rcpInUse_congr ht.mem.dram _).trans huse
  · obtain ⟨u, hu, ht⟩ := State.laneAfter_of_waits n tag l.isLt hw
    have hst' : u.laneState l = 2 := (State.laneState_congr hu.state).trans hst
    have hsteps : u.rcpSteps (u.laneRecipe l) = s.rcpSteps (s.laneRecipe l) := by
      rw [State.laneRecipe_congr hu.pos, State.rcpSteps, State.rcpFld_congr hu.mem.dram, State.rcpSteps]
    obtain ⟨h2, hp, hwait, hramps, hmem⟩ := u.laneGoto_held l _ n tag hst' (Nat.lt_of_lt_of_eq hk hsteps.symm)
    have hstill : (u.laneGoto l ((s.rd (R.SQ_CMD_ARG l)).toNat % 4096) n tag).laneGoes l = false := by
      simp [State.laneGoes, h2]
    exact ⟨(State.laneState_congr (ht.state l.isLt)).trans h2, (State.bit_congr (ht.state l.isLt) _).trans hp,
      ht.wait.trans hwait, (ht.ramps hstill).trans hramps, (hu.mem.trans hmem).trans ht.mem⟩

end Sys2Proof.Machine
end

section
/-!
Axis commands (R1, R3, R259).
-/
namespace Sys2Proof.Machine
open Sys2Proof

/-- The state after reset of an LZ-2048. -/
def resetLz2048 : State := { State.reset with lz2048 := true }

/-- Refutes O22: an LZ-2048 lacks regions 8 to 15 (R1), so STOP of an unconfigured axis there is a refused write that counts
in HI_WERR_CNT (R3), where the statement says that nothing changes. -/
theorem not_axisCommands : ¬ Obligations.AxisCommands := by
  unfold Obligations.AxisCommands
  rintro ⟨-, -, hunused, -⟩
  have hstays : exec (.axisStop 64) resetLz2048 = .next resetLz2048 :=
    hunused 64 0 (.axisStop 64) resetLz2048 (by decide +kernel) (by simp)
  have hrefused : exec (.axisStop 64) resetLz2048 = .next (resetLz2048.werr false (R.AX_CMD 64) 4) := rfl
  have hsame : resetLz2048.werr false (R.AX_CMD 64) 4 = resetLz2048 := by
    rw [hrefused] at hstays
    exact Host.Outcome.next.inj hstays
  have hcnt : (resetLz2048.werr false (R.AX_CMD 64) 4).rd R.HI_WERR_CNT = 1 := by decide +kernel
  have hzero : resetLz2048.rd R.HI_WERR_CNT = 0 := by decide +kernel
  rw [hsame, hzero] at hcnt
  exact absurd hcnt (by decide)

end Sys2Proof.Machine
end

section
/-!
Host writes (R450 to R453): a refused write, a write of a global register, of a host input word and of BAR2.
-/
namespace Sys2Proof.Machine
open Sys2Proof

-- a refused write

/-- What the refusal of a write leaves (R451): the counter, the status of the first one, and nothing else but what its
interrupt shows. -/
structure WriteRefused (s t : State) (a status : Nat) : Prop where
  mem : SameMemory s t
  log : t.log = s.log
  slots : t.slots = s.slots
  cnt : t.rd R.HI_WERR_CNT = s.rd R.HI_WERR_CNT + 1
  first : s.fld R.HI_WERR_STAT F.HI_WERR_STAT_STATUS = 0 → t.fld R.HI_WERR_STAT F.HI_WERR_STAT_STATUS = status ∧
    t.rd R.HI_WERR_ADDR = Word.ofN a
  later : s.fld R.HI_WERR_STAT F.HI_WERR_STAT_STATUS ≠ 0 → t.rd R.HI_WERR_ADDR = s.rd R.HI_WERR_ADDR ∧
    t.bit R.HI_WERR_STAT F.HI_WERR_STAT_OVER = true
  regs : SameRegsButEvents [R.HI_WERR_CNT, R.HI_WERR_STAT, R.HI_WERR_ADDR] s t

/-- No word below the recorder's is written by recording an event, but HI_IRQ0_STAT. -/
theorem not_eventWord_of_low {a : Nat} (h : a < 0x9000) (hi : a ≠ R.HI_IRQ0_STAT) : ¬ eventWord a := by
  rintro (he | he | ⟨k, -, -, he⟩)
  · simp only [R.EV_HEAD_SEQ, R.EV_OLDEST_SEQ, R.EV_STAGE_FILL, R.EV_LOST_CNT, R.EV_STAT,
      List.mem_cons, List.not_mem_nil, or_false] at he
    omega
  · omega
  · simp only [R.HI_RING_HEAD, R.HI_RING_CNT, R.HI_RING_LOST, List.mem_cons, List.not_mem_nil, or_false] at he
    omega

/-- The status words of a refusal, before it is counted. -/
def State.werrShow (s : State) (bar2 : Bool) (a status : Nat) : State :=
  if s.fld R.HI_WERR_STAT F.HI_WERR_STAT_STATUS = 0 then
    ((s.wr R.HI_WERR_ADDR (Word.ofN a)).setFld R.HI_WERR_STAT F.HI_WERR_STAT_STATUS status).setB
      R.HI_WERR_STAT F.HI_WERR_STAT_BAR2 bar2
  else s.set1 R.HI_WERR_STAT F.HI_WERR_STAT_OVER

theorem State.werrShow_writes (s : State) (bar2 : Bool) (a status : Nat) :
    Writes (fun b => b = R.HI_WERR_STAT ∨ b = R.HI_WERR_ADDR) s (s.werrShow bar2 a status) := by
  unfold State.werrShow
  split
  · exact ((s.wr_writes _ (.inr rfl)).trans (State.setFld_writes _ _ _ (.inl rfl))).trans
      (State.setFld_writes _ _ _ (.inl rfl))
  · exact s.setFld_writes _ _ (.inl rfl)

theorem State.werrShow_first (s : State) (bar2 : Bool) (a status : Nat) (hs : status < 16)
    (h0 : s.fld R.HI_WERR_STAT F.HI_WERR_STAT_STATUS = 0) :
    (s.werrShow bar2 a status).fld R.HI_WERR_STAT F.HI_WERR_STAT_STATUS = status ∧
      (s.werrShow bar2 a status).rd R.HI_WERR_ADDR = Word.ofN a := by
  have hne : R.HI_WERR_ADDR ≠ R.HI_WERR_STAT := by decide
  rw [State.werrShow, if_pos h0, State.setB]
  constructor
  · rw [State.fld_setFld_other _ _ _ _ _ (by decide), State.fld_setFld_same _ _ _ _ (by decide)]
    exact Nat.mod_eq_of_lt hs
  · rw [State.rd_setFld_other _ _ _ hne, State.rd_setFld_other _ _ _ hne, State.rd_wr_same]

theorem State.werrShow_later (s : State) (bar2 : Bool) (a status : Nat)
    (h0 : s.fld R.HI_WERR_STAT F.HI_WERR_STAT_STATUS ≠ 0) :
    (s.werrShow bar2 a status).rd R.HI_WERR_ADDR = s.rd R.HI_WERR_ADDR ∧
      (s.werrShow bar2 a status).bit R.HI_WERR_STAT F.HI_WERR_STAT_OVER = true := by
  rw [State.werrShow, if_neg h0, State.set1]
  exact ⟨State.rd_setFld_other _ _ _ (by decide), State.bit_setFld_same _ _ _ _ (by decide) rfl⟩

theorem State.werr_refused (s : State) (bar2 : Bool) (a status : Nat) (hs : status < 16) :
    WriteRefused s (s.werr bar2 a status) a status := by
  have hshow := s.werrShow_writes bar2 a status
  have hfirst := s.werrShow_first bar2 a status hs
  have hlater := s.werrShow_later bar2 a status
  have heq : s.werr bar2 a status = ((s.werrShow bar2 a status).incr R.HI_WERR_CNT).irq0 F.HI_IRQ0_STAT_WERR := rfl
  rw [heq]
  generalize s.werrShow bar2 a status = u at hshow hfirst hlater
  have hrec : Records (u.incr R.HI_WERR_CNT) ((u.incr R.HI_WERR_CNT).irq0 F.HI_IRQ0_STAT_WERR) := State.irq0_records _ _
  have hinc : Writes (· = R.HI_WERR_CNT) u (u.incr R.HI_WERR_CNT) := u.wr_writes _ rfl
  have hcnt : (u.incr R.HI_WERR_CNT).rd R.HI_WERR_CNT = u.rd R.HI_WERR_CNT + 1 := State.rd_wr_same _ _ _
  generalize u.incr R.HI_WERR_CNT = v at hrec hinc hcnt
  generalize v.irq0 F.HI_IRQ0_STAT_WERR = t at hrec
  have hstat : t.rd R.HI_WERR_STAT = u.rd R.HI_WERR_STAT :=
    (hrec.regs _ (not_eventWord_of_low (by decide) (by decide))).trans (hinc.regs _ (by decide))
  have haddr : t.rd R.HI_WERR_ADDR = u.rd R.HI_WERR_ADDR :=
    (hrec.regs _ (not_eventWord_of_low (by decide) (by decide))).trans (hinc.regs _ (by decide))
  refine ⟨(hshow.sameMemory.trans hinc.sameMemory).trans hrec.sameMemory, ?_, ?_, ?_, fun h => ?_, fun h => ?_,
    fun b hb he => ?_⟩
  · obtain ⟨io, rfl⟩ := hshow.only
    obtain ⟨io, rfl⟩ := hinc.only
    obtain ⟨io, out, ev, lost, fr, hr, worst, rfl⟩ := hrec.only
    rfl
  · obtain ⟨io, rfl⟩ := hshow.only
    obtain ⟨io, rfl⟩ := hinc.only
    obtain ⟨io, out, ev, lost, fr, hr, worst, rfl⟩ := hrec.only
    rfl
  · rw [hrec.regs _ (not_eventWord_of_low (by decide) (by decide)), hcnt, hshow.regs _ (by decide)]
  · rw [State.fld_congr hstat, haddr]; exact hfirst h
  · rw [State.bit_congr hstat, haddr]; exact hlater h
  · simp only [List.mem_cons, List.not_mem_nil, or_false, not_or] at hb
    obtain ⟨hc, hs, ha⟩ := hb
    rw [hrec.regs _ he, hinc.regs _ hc, hshow.regs _ (by simp [hs, ha])]

theorem State.busWhy_lt (s : State) (a : Nat) : s.busWhy a < 16 := by
  unfold State.busWhy
  repeat' split
  all_goals decide

-- a global register

/-- A register below 0x8000 is written in place: no entry of the log and no block of its own stands there. -/
theorem State.busArrive_global (s : State) {a : Nat} (v : Word) (off : Nat) (hw : s.busWhy a = 0) (ha : a < 0x8000)
    (hne : a ≠ R.HI_WERR_STAT) : s.busArrive a v off = s.regWrite a v 0xFFFFFFFF := by
  have hin : busInput a = none := if_neg (by omega)
  have hlog : busLogged a v 0xFFFFFFFF = false := by
    have hbist : a ≠ R.CV_BIST_CMD := by simp only [R.CV_BIST_CMD]; omega
    simp only [busLogged, hin, Option.isSome_none, Bool.false_eq_true, if_false, if_neg hbist,
      if_neg (show ¬ 0x1000000 ≤ a by omega), if_neg (show ¬ 0x180000 ≤ a by omega),
      if_neg (show ¬ 0x100000 ≤ a by omega), if_neg (show ¬ 0x80000 ≤ a by omega), if_neg (show ¬ 0x40000 ≤ a by omega),
      show ¬ 0x20000 ≤ a by omega, show ¬ 0x10000 ≤ a by omega, decide_false, Bool.false_and, Bool.or_self]
  have hmbx : a ≠ R.MG_MBX_CMD := by simp only [R.MG_MBX_CMD]; omega
  have hhg : a ≠ R.HG_CMD := by simp only [R.HG_CMD]; omega
  have hka : a ≠ R.KA_CMD := by simp only [R.KA_CMD]; omega
  have hxl : a ≠ R.XL_CMD := by simp only [R.XL_CMD]; omega
  have hword : s.busWord a v 0xFFFFFFFF off = (s.regWrite a v 0xFFFFFFFF, 0) := by
    simp only [State.busWord, hw, hin, State.busGlobal, if_neg hmbx, if_neg hhg, if_neg hka, if_neg hxl,
      if_neg (show ¬ 0x1000000 ≤ a by omega), if_neg (show ¬ 0x200000 ≤ a by omega),
      if_neg (show ¬ 0x180000 ≤ a by omega), if_neg (show ¬ 0x100000 ≤ a by omega),
      if_neg (show ¬ 0x80000 ≤ a by omega), if_neg (show ¬ 0x70000 ≤ a by omega), if_neg (show ¬ 0x60000 ≤ a by omega),
      if_neg (show ¬ 0x40000 ≤ a by omega), if_neg (show ¬ 0x30000 ≤ a by omega), if_neg (show ¬ 0x2E000 ≤ a by omega),
      if_neg (show ¬ 0x2C000 ≤ a by omega), if_neg (show ¬ 0x24000 ≤ a by omega), if_neg (show ¬ 0x20000 ≤ a by omega),
      if_neg (show ¬ 0x10000 ≤ a by omega), if_neg (show ¬ 0x8000 ≤ a by omega), hne, false_and, if_false]
  simp only [State.busArrive, hw, hlog, State.busApply, hword, State.werrIf, ne_eq, not_true, Bool.false_eq_true, if_true,
    if_false]

-- arrival

theorem Word.length_bytes (v : Word) : (Word.bytes v).length = 4 := rfl

theorem State.pcieWrite_down (s : State) (bar2 : Bool) (a : Nat) (bs : List Byte) (off : Nat) (h : s.hostDown = true) :
    s.pcieWrite bar2 a bs off = s := if_pos h

theorem State.pcieWrite_word (s : State) (a : Nat) (bs : List Byte) (off : Nat) (h : s.hostDown = false)
    (hlen : bs.length = 4) (ha : a % 4 = 0) : s.pcieWrite false a bs off = s.busArrive a (Word.ofBytes bs) off := by
  unfold State.pcieWrite
  rw [if_neg (by simp [h]), if_neg Bool.false_ne_true, if_pos ⟨hlen, ha⟩]

theorem State.pcieWrite_badLength (s : State) (a : Nat) (bs : List Byte) (off : Nat) (h : s.hostDown = false)
    (h4 : bs.length ≠ 4) (h8 : bs.length ≠ 8) : s.pcieWrite false a bs off = s.werr false a 11 := by
  unfold State.pcieWrite
  rw [if_neg (by simp [h]), if_neg Bool.false_ne_true, if_neg (by simp [h4]), if_neg (by simp [h8])]

theorem State.pcieWrite_bar2 (s : State) (a : Nat) (bs : List Byte) (off : Nat) (h : s.hostDown = false) :
    s.pcieWrite true a bs off = s.bar2Write a bs := by
  unfold State.pcieWrite
  rw [if_neg (by simp [h]), if_pos rfl]

theorem State.busArrive_refused (s : State) (a : Nat) (v : Word) (off : Nat) (h : s.busWhy a ≠ 0) :
    s.busArrive a v off = s.werr false a (s.busWhy a) := if_pos h

theorem State.mod_four_of_busWhy {s : State} {a : Nat} (h : s.busWhy a = 0) : a % 4 = 0 := by
  refine Decidable.byContradiction fun hne => ?_
  rw [State.busWhy, if_pos hne] at h
  exact absurd h (by decide)

-- a host input word

/-- The offset of a host input word. -/
def inputAddr (i : Fin 2048) : Nat := 0x43C000 + 4 * i.val

theorem State.busWhy_input (s : State) (i : Fin 2048) (hup : s.boot.up = true) : s.busWhy (inputAddr i) = 0 := by
  have hi := i.isLt
  have hin : (busInput (inputAddr i)).isSome = true := by
    rw [busInput, if_pos (by simp only [inputAddr]; omega)]; rfl
  have hlacks : s.busLacks (inputAddr i) = false := by
    have : ¬ (0x1000000 ≤ inputAddr i ∧ inputAddr i < 0x2000000) := by simp only [inputAddr]; omega
    simp [State.busLacks, this]
  have hlow : ¬ inputAddr i ≥ 0x4000000 := by simp only [inputAddr]; omega
  unfold State.busWhy
  rw [if_neg (by simp only [inputAddr]; omega), if_neg (by simp [State.busServed, hup, hlacks, hlow]), if_pos (by simp [hin])]

/-- A host input word becomes an entry of the log (R452), with nothing copied and nothing that waits. -/
theorem State.busArrive_input (s : State) (i : Fin 2048) (v : Word) (off : Nat) (hup : s.boot.up = true) :
    s.busArrive (inputAddr i) v off = if s.role = 2 then s.werr false (inputAddr i) 6
      else s.logAdd (s.tag off) (.hostWrite (inputAddr i) v 0xFFFFFFFF) := by
  have hi := i.isLt
  have hin : (busInput (inputAddr i)).isSome = true := by
    rw [busInput, if_pos (by simp only [inputAddr]; omega)]; rfl
  have hlog : busLogged (inputAddr i) v 0xFFFFFFFF = true := if_pos hin
  have hrcp : inputAddr i ≠ R.SQ_RCP_CTRL := by simp only [inputAddr, R.SQ_RCP_CTRL]; omega
  have holc : inputAddr i ≠ R.TK_OLC_CTRL := by simp only [inputAddr, R.TK_OLC_CTRL]; omega
  have hfrc : inputAddr i ≠ R.TK_FRC_CMD := by simp only [inputAddr, R.TK_FRC_CMD]; omega
  have hlow : ¬ 0x1000000 ≤ inputAddr i := by simp only [inputAddr]; omega
  have hbuf : ¬ inputAddr i < 0x42000 := by simp only [inputAddr]; omega
  have hstn : ¬ inputAddr i < 0x180000 := by simp only [inputAddr]; omega
  have hcopy : ∀ m, s.busCopy (inputAddr i) v m = s := fun m => by simp [State.busCopy, hrcp, holc]
  have hwait : ∀ m, s.busWait (inputAddr i) v m = s := fun m => by simp [State.busWait, holc, hfrc, hstn]
  have hbusLog : s.busLog (inputAddr i) v (s.tag off) =
      s.logAdd (s.tag off) (.hostWrite (inputAddr i) v 0xFFFFFFFF) := by
    simp [State.busLog, hlow, hbuf, holc, hcopy, hwait]
  simp only [State.busArrive, s.busWhy_input i hup, hlog, hbusLog, ne_eq, not_true, if_true, if_false]

theorem State.logAdd_spec (s : State) (tag : Word) (k : LogKind) :
    (s.logAdd tag k).io = s.io ∧ SameMemory s (s.logAdd tag k) ∧
      (s.logAdd tag k).log = s.log ++ [⟨s.assignCyc, s.lseq, false, tag, k⟩] := by
  have hsend : ∀ (u : State) (c d : Bool) (o : Out), (u.when c fun u => u.when d fun u => u.emit o).io = u.io ∧
      SameMemory u (u.when c fun u => u.when d fun u => u.emit o) ∧
      (u.when c fun u => u.when d fun u => u.emit o).log = u.log := by
    intro u c d o
    cases c <;> cases d <;> exact ⟨rfl, ⟨rfl, rfl, rfl, rfl, rfl, rfl⟩, rfl⟩
  let u : State := { s with log := s.log ++ [⟨s.assignCyc, s.lseq, false, tag, k⟩], lseq := s.lseq + 1 }
  have hmem : SameMemory s u := ⟨rfl, rfl, rfl, rfl, rfl, rfl⟩
  obtain ⟨hio, hm, hl⟩ := hsend u (decide (s.role = 1)) (!u.xl.unused) (.logEntry ⟨s.assignCyc, s.lseq, false, tag, k⟩)
  exact ⟨hio, hmem.trans hm, hl⟩

-- BAR2

theorem State.bar2Write_protected (s : State) (a : Nat) (b : Byte) (hup : s.boot.up = true) (ha : a < 0x4000000)
    (hp : s.rcpProtects a = true) : s.bar2Write a [b] = s.werr true a 10 := by
  unfold State.bar2Write
  simp [hup, show ¬ 0x4000000 < a + 1 by omega, List.range_succ, hp]

theorem State.bar2Write_free (s : State) (a : Nat) (b : Byte) (hup : s.boot.up = true) (hlo : 0x10000 ≤ a)
    (ha : a < 0x4000000) (hp : s.rcpProtects a = false) : s.bar2Write a [b] = s.setDbyte a b := by
  unfold State.bar2Write
  simp [hup, show ¬ 0x4000000 < a + 1 by omega, show ¬ a < 0x10000 by omega, show ¬ a < 0x4000 by omega, List.range_succ, hp,
    State.each]

-- regions that the variant lacks

theorem State.regionRow_lacks (s : State) (r a : Nat) (f : State → State) (h : s.lacks r = true) :
    s.regionRow r a f = s.werr false a 4 := if_pos h

/-- A command that stands for a write in a region's window is refused where the variant lacks the region. -/
theorem exec_of_lacks {k : SlotIx} {x : AxisIx} {p : PairIx} {g : ClusterIx} {q : RegionIx} {code : BitVec 3} {n : Fin 8}
    {v : Word} {w : Fin 4096} {j : Fin 32} {arg : BitVec 64} {m : BitVec 12} {off r a : Nat} {c : Instr} (s : State)
    (hc : (c, r, a) ∈ [(Instr.modeRequest k code, k.val / 256, R.LE_MODE k), (.tpWrite k n v, k.val / 256, R.LE_TP k n),
      (.clrFault k, k.val / 256, R.LE_CMD k), (.clrMax k, k.val / 256, R.LE_CMD k),
      (.reengage k, k.val / 256, R.LE_SUP_CMD k), (.lawAddrWrite g v, g.val / 8, R.LC_LAW_ADDR g),
      (.lawDataWrite g w v, g.val / 8, R.LC_LAW_DATA g), (.swatchStart g j, g.val / 8, R.LC_SW_CTRL g),
      (.swatchAbort g, g.val / 8, R.LC_SW_CTRL g), (.senClear g, g.val / 8, R.LC_SEN_CMD g),
      (.axisStop x, x.val / 8, R.AX_CMD x), (.axisResume x, x.val / 8, R.AX_CMD x),
      (.axisReplan x, x.val / 8, R.AX_CMD x), (.axisClrFault x, x.val / 8, R.AX_CMD x),
      (.setPos x arg, x.val / 8, R.AX_CMD x), (.pwmCommit p, p.val / 12, R.PW_COMMIT p),
      (.pwGcommit q m, q.val, R.PW_GCOMMIT q), (.ceArm q off, q.val, R.CE_CTRL q),
      (.ceDisarm q off, q.val, R.CE_CTRL q), (.ceForce q off, q.val, R.CE_CTRL q)])
    (h : s.lacks r = true) : exec c s = .next (s.werr false a 4) := by
  have hrow : ∃ f, exec c s = .next (s.regionRow r a f) := by
    simp only [List.mem_cons, Prod.mk.injEq, List.not_mem_nil, or_false] at hc
    rcases hc with ⟨rfl, rfl, rfl⟩ | ⟨rfl, rfl, rfl⟩ | ⟨rfl, rfl, rfl⟩ | ⟨rfl, rfl, rfl⟩ | ⟨rfl, rfl, rfl⟩ |
      ⟨rfl, rfl, rfl⟩ | ⟨rfl, rfl, rfl⟩ | ⟨rfl, rfl, rfl⟩ | ⟨rfl, rfl, rfl⟩ | ⟨rfl, rfl, rfl⟩ | ⟨rfl, rfl, rfl⟩ |
      ⟨rfl, rfl, rfl⟩ | ⟨rfl, rfl, rfl⟩ | ⟨rfl, rfl, rfl⟩ | ⟨rfl, rfl, rfl⟩ | ⟨rfl, rfl, rfl⟩ | ⟨rfl, rfl, rfl⟩ |
      ⟨rfl, rfl, rfl⟩ | ⟨rfl, rfl, rfl⟩ | ⟨rfl, rfl, rfl⟩ <;>
    exact ⟨_, rfl⟩
  obtain ⟨f, hf⟩ := hrow
  rw [hf, State.regionRow_lacks _ _ _ _ h]

/-- Settles O53: a write is refused by its link, offset, length, role or protection, and else acts or enters the log. -/
theorem hostWritesFollowTheirAccess : Obligations.HostWritesFollowTheirAccess := by
  unfold Obligations.HostWritesFollowTheirAccess
  have hexec : ∀ b2 a bs off s, exec (.registerWrite b2 a bs off) s = .next (s.pcieWrite b2 a bs off) :=
    fun _ _ _ _ _ => rfl
  have hinput : ∀ (i : Fin 2048) v s, exec (.hostInputWrite i v) s =
      .next (s.pcieWrite false (inputAddr i) (Word.bytes v) 0) := fun _ _ _ => rfl
  refine ⟨fun b2 a bs off i v s hd => ?_, fun a off v r s hd hw hr ha hne => ?_, fun a off w bs s hd hbad => ?_,
    fun i v s hd hup => ?_, fun k x p g q code n v w j arg m off r a c s hc hl => ?_, fun a off b s hd hup hlo ha => ?_⟩
  · rw [hexec, hinput, s.pcieWrite_down _ _ _ _ hd, s.pcieWrite_down _ _ _ _ hd]
    exact ⟨rfl, rfl⟩
  · refine ⟨s.regWrite a v 0xFFFFFFFF, ?_, ?_, .wr _ _ _, fun b hb => State.rd_wr_other _ _ (by simpa using hb)⟩
    · rw [hexec, s.pcieWrite_word a _ off hd (Word.length_bytes v) (State.mod_four_of_busWhy hw), Word.ofBytes_bytes,
        s.busArrive_global v off hw ha hne]
    · rw [State.regWrite, State.rd_wr_same, State.regValue_full s v hr]
  · have hrefused : s.pcieWrite false a bs off = s.werr false a w ∧ w < 16 := by
      rcases hbad with ⟨hlen, h4, rfl, h0⟩ | ⟨h4, h8, rfl⟩
      · exact ⟨by rw [s.pcieWrite_word a bs off hd hlen h4, s.busArrive_refused a _ off h0], s.busWhy_lt a⟩
      · exact ⟨s.pcieWrite_badLength a bs off hd h4 h8, by decide⟩
    obtain ⟨heq, hlt⟩ := hrefused
    obtain ⟨hmem, -, -, hcnt, hfirst, hlater, hregs⟩ := s.werr_refused false a w hlt
    exact ⟨_, by rw [hexec, heq], hcnt, hfirst, hlater, hmem, hregs⟩
  · have harrive := s.busArrive_input i v 0 hup
    have hput : exec (.hostInputWrite i v) s = .next (s.busArrive (inputAddr i) v 0) := by
      rw [hinput, s.pcieWrite_word _ _ 0 hd (Word.length_bytes v) (State.mod_four_of_busWhy (s.busWhy_input i hup)),
        Word.ofBytes_bytes]
    refine ⟨fun hrole => ?_, fun hrole => ?_⟩
    · rw [if_neg hrole] at harrive
      exact ⟨_, hput.trans (congrArg _ harrive), s.logAdd_spec _ _⟩
    · rw [if_pos hrole] at harrive
      obtain ⟨hmem, hlog, -, hcnt, hfirst, -, hregs⟩ := s.werr_refused false (inputAddr i) 6 (by decide)
      exact ⟨_, by rw [hput, harrive], hlog, hcnt, fun h => (hfirst h).1, hmem, hregs⟩
  · obtain ⟨hmem, -, -, hcnt, hfirst, -, hregs⟩ := s.werr_refused false a 4 (by decide)
    exact ⟨_, exec_of_lacks s hc hl, hmem, hcnt, hfirst, hregs⟩
  · rw [Does, Does, hexec, s.pcieWrite_bar2 a _ off hd]
    refine ⟨fun hp => ⟨_, by rw [s.bar2Write_free a b hup hlo ha hp], ?_, s.setDbyte_io a b, s.setDbyte_lawMem a b, ?_⟩,
      fun hp => ⟨_, by rw [s.bar2Write_protected a b hup ha hp], ?_⟩⟩
    · rw [State.dbyte_setDbyte, if_pos rfl]
    · intro x hx
      rw [State.dbyte_setDbyte, if_neg hx]
    · have hrej := s.werr_refused true a 10 (by decide)
      exact ⟨hrej.mem, hrej.cnt⟩

end Sys2Proof.Machine
end

section
/-!
Commands to a slot's registers (R110, R114, R116, R130): CLR_FAULT, CLR_MAX and REENGAGE, at t0 and at a release.
-/
namespace Sys2Proof.Machine
open Sys2Proof

-- the extra state of a slot

@[simp] theorem State.slotX_setSlotX (s : State) (k : Nat) (x : SlotX) : (s.setSlotX k x).slotX k = x :=
  Smap.get_set_same _ _ _ _

theorem State.slotX_setSlotX_other (s : State) {k j : Nat} (x : SlotX) (h : j ≠ k) :
    (s.setSlotX k x).slotX j = s.slotX j := Smap.get_set_other _ _ _ h

theorem SameMemory.setSlotX (s : State) (k : Nat) (x : SlotX) : SameMemory s (s.setSlotX k x) :=
  ⟨rfl, rfl, rfl, rfl, rfl, rfl⟩

/-- Only what a running sample keeps of its slots changes (R120). -/
structure KeepsSlots (s t : State) : Prop where
  only : ∃ slots, t = { s with slots := slots }
  fault : ∀ j, (t.slotX j).fault = (s.slotX j).fault
  host : ∀ j, (t.slotX j).host = (s.slotX j).host

theorem KeepsSlots.rd {s t : State} (h : KeepsSlots s t) (a : Nat) : t.rd a = s.rd a := by
  obtain ⟨slots, rfl⟩ := h.only
  rfl

theorem KeepsSlots.mem {s t : State} (h : KeepsSlots s t) : SameMemory s t := by
  obtain ⟨slots, rfl⟩ := h.only
  exact ⟨rfl, rfl, rfl, rfl, rfl, rfl⟩

theorem State.setSlotX_keepsSlots (s : State) (j : Nat) (rs : List Ready) :
    KeepsSlots s (s.setSlotX j { s.slotX j with ready := rs }) := by
  refine ⟨⟨_, rfl⟩, fun i => ?_, fun i => ?_⟩
  all_goals
    by_cases h : i = j
    · subst h; rw [State.slotX_setSlotX]
    · rw [State.slotX_setSlotX_other _ _ h]

theorem State.modeKeep_keepsSlots (s : State) (k : Nat) : KeepsSlots s (s.modeKeep k) := by
  have hrefl : KeepsSlots s s := ⟨⟨s.slots, rfl⟩, fun _ => rfl, fun _ => rfl⟩
  unfold State.modeKeep
  split
  · dsimp only
    unfold State.when
    split
    · exact s.setSlotX_keepsSlots _ _
    · exact hrefl
  · exact hrefl

-- the register commands

/-- What the end of a slot fault leaves (R110). -/
structure FaultEnds (k : Nat) (s t : State) : Prop where
  fault : (t.slotX k).fault = false
  host : (t.slotX k).host = (s.slotX k).host
  cause : t.bit (R.LE_STAT k) ⟨11, 1⟩ = false
  mem : SameMemory s t
  regs : SameRegsBut [R.LE_STAT k] s t

theorem State.clrSlotFault_ends (s : State) (k : Nat)
    (h : s.bit (R.LC_SEN_STAT (k / 32)) F.LC_SEN_STAT_HELD = false) : FaultEnds k s (s.clrSlotFault k) := by
  have heq : s.clrSlotFault k =
      ((s.modeKeep k).setSlotX k { (s.modeKeep k).slotX k with fault := false }).clrFcause k 3 := if_neg (by simp [h])
  have hu := s.modeKeep_keepsSlots k
  rw [heq]
  generalize s.modeKeep k = u at hu
  have hv : ∀ v, v = u.setSlotX k { u.slotX k with fault := false } →
      (v.slotX k).fault = false ∧ (v.slotX k).host = (u.slotX k).host ∧ (∀ a, v.rd a = u.rd a) ∧ SameMemory u v := by
    rintro v rfl
    simp [SameMemory.setSlotX]
  generalize u.setSlotX k { u.slotX k with fault := false } = v at hv
  obtain ⟨hfault, hhost, hrd, hmem⟩ := hv v rfl
  have hw := v.modeKeep_keepsSlots k
  unfold State.clrFcause
  generalize v.modeKeep k = w at hw
  exact ⟨(hw.fault k).trans hfault, ((hw.host k).trans hhost).trans (hu.host k),
    State.bit_setFld_same _ _ _ _ (by decide) rfl, ((hu.mem.trans hmem).trans hw.mem).trans (.wr _ _ _),
    fun a ha => (State.rd_setFld_other _ _ _ (by simpa using ha)).trans
      (((hw.rd a).trans (hrd a)).trans (hu.rd a))⟩

theorem R.LE_CMD_ne_LE_MODE (k : Nat) : R.LE_CMD k ≠ R.LE_MODE k := by simp [R.LE_CMD, R.LE_MODE]

/-- What CLR_FAULT leaves where it applies. -/
theorem State.slotHost_clrFault (s : State) (k : Nat) (tag : Word)
    (h : s.bit (R.LC_SEN_STAT (k / 32)) F.LC_SEN_STAT_HELD = false) :
    FaultEnds k (s.wr (R.LE_CMD k) 0) (s.slotHost k (R.LE_CMD k) 1 1 tag) := by
  have hclr : F.LE_CMD_CLR_FAULT.get (1 &&& 1) = 1 := by decide
  have hmax : F.LE_CMD_CLR_MAX.get (1 &&& 1) ≠ 1 := by decide
  have heq : s.slotHost k (R.LE_CMD k) 1 1 tag = (s.wr (R.LE_CMD k) 0).clrSlotFault k := by
    unfold State.slotHost
    rw [if_neg (R.LE_CMD_ne_LE_MODE k), if_pos rfl]
    simp only [State.when, hclr, hmax, decide_true, decide_false, if_true, Bool.false_eq_true, if_false]
  have hne : R.LC_SEN_STAT (k / 32) ≠ R.LE_CMD k := by
    simp only [R.LC_SEN_STAT, R.clusterBase, R.LE_CMD, R.slotBase, R.regionBase]; omega
  rw [heq]
  exact State.clrSlotFault_ends _ k ((State.bit_congr (State.rd_wr_other _ _ hne) _).trans h)

theorem State.slotHost_clrMax (s : State) (k : Nat) (tag : Word) :
    s.slotHost k (R.LE_CMD k) 2 2 tag = (s.wr (R.LE_CMD k) 0).wr (R.LE_MAX_DELAY k) 0 := by
  unfold State.slotHost
  rw [if_neg (R.LE_CMD_ne_LE_MODE k), if_pos rfl]
  rfl

theorem State.slotHost_reengage (s : State) (k : Nat) (tag : Word) :
    s.slotHost k (R.LE_SUP_CMD k) 1 1 tag = s.set1 (R.LE_SUP_CMD k) F.LE_SUP_CMD_REENGAGE := by
  unfold State.slotHost
  rw [if_neg (by simp [R.LE_SUP_CMD, R.LE_MODE]), if_neg (by simp [R.LE_SUP_CMD, R.LE_CMD]), if_pos rfl]
  rfl

-- the refusals of a slot write

/-- No field of a slot stands in LE_CMD, and only field 31 in LE_SUP_CMD (R114, R132). -/
theorem slotFieldReg_command {k f a : Nat} (h : slotFieldReg k f = some a) :
    a ≠ R.LE_CMD k ∧ (a = R.LE_SUP_CMD k → f = 31) := by
  unfold slotFieldReg at h
  split at h <;> cases h
  all_goals
    simp [R.LE_CMD, R.LE_SP, R.LE_PV, R.LE_OUT, R.LE_ERR, R.LE_MAN_OUT, R.LE_OUT_HI, R.LE_OUT_LO, R.LE_OUT_RATE, R.LE_AUX0,
      R.LE_AUX1, R.LE_TRK_VAL, R.LE_TP, R.LE_STAT, R.LE_SKIP_CNT, R.LE_LAST_DELAY, R.LE_SAMPLE_T, R.LE_FE_LIMIT,
      R.LE_OPEN_OUT, R.LE_FRZ_BAND, R.LE_MOVE_MIN, R.LE_SUP_CMD]

theorem slotRegField_cmd (k : Nat) : slotRegField k (R.LE_CMD k) = none := by
  rw [slotRegField, if_neg (R.LE_CMD_ne_LE_MODE k), List.find?_eq_none]
  exact fun f _ hf => (slotFieldReg_command (of_decide_eq_true hf)).1 rfl

theorem slotRegField_supCmd (k : Nat) : slotRegField k (R.LE_SUP_CMD k) = some 31 := by
  rw [slotRegField, if_neg (by simp [R.LE_SUP_CMD, R.LE_MODE]), List.find?_range_eq_some]
  refine ⟨by simp [slotFieldReg], by decide, fun f hf => ?_⟩
  rw [Bool.not_eq_true', decide_eq_false_iff_not]
  intro h
  have := (slotFieldReg_command h).2 rfl
  omega

theorem State.slotHostWhy_cmd (s : State) (k : Nat) (v m : Word)
    (h : s.mode ≠ 3 ∨ F.LE_CMD_CLR_FAULT.get (v &&& m) = 0) : s.slotHostWhy k (R.LE_CMD k) v m = 0 := by
  unfold State.slotHostWhy
  dsimp only
  rw [if_neg, slotRegField_cmd]
  rcases h with h | h <;> simp [h]

theorem State.slotHostWhy_reengage (s : State) (k : Nat) (v m : Word) (hm : s.mode ≠ 3)
    (ho : Smap.find s.img.owners (Ref.slotField k 31) = none) : s.slotHostWhy k (R.LE_SUP_CMD k) v m = 0 := by
  unfold State.slotHostWhy
  dsimp only
  rw [if_neg (by simp [hm]), slotRegField_supCmd]
  simp [ho]

theorem State.slotHostWhy_running (s : State) (k a : Nat) (v m : Word) (hm : s.mode = 3)
    (hstat : a ≠ R.LE_STAT k) (hflag : a ≠ R.LE_STG_FLAG k) (hsup : a ≠ R.LE_SUP_STAT k)
    (hcmd : a ≠ R.LE_CMD k ∨ F.LE_CMD_CLR_FAULT.get (v &&& m) ≠ 0) : s.slotHostWhy k a v m = 1 := by
  unfold State.slotHostWhy
  dsimp only
  rw [if_pos]
  rcases hcmd with h | h <;> simp [hm, hstat, hflag, hsup, h]

-- where a slot write applies

theorem State.slotOrder_open (s : State) (k a : Nat) (v m : Word) (hl : s.lacks (k / 256) = false)
    (hw : s.slotHostWhy k a v m = 0) : s.slotOrder k a v m = s.slotHostAt k a v m (s.tag 0) := by
  unfold State.slotOrder State.regionRow
  rw [if_neg (by simp [hl])]
  simp only [hw]

theorem State.slotOrder_now (s : State) (k a : Nat) (v m : Word) (h : s.slotNow k) (hw : s.slotHostWhy k a v m = 0) :
    s.slotOrder k a v m = s.slotHost k a v m (s.tag 0) := by
  obtain ⟨hl, hnow⟩ := h
  rw [s.slotOrder_open k a v m hl hw]
  exact if_pos (by rcases hnow with h | h <;> simp [h])

/-- The slot with one more host write that waits for its release. -/
def State.slotWaiting (s : State) (k a : Nat) (v m : Word) : State :=
  s.setSlotX k { s.slotX k with host := (s.slotX k).host ++ [(a, v, m, s.seq)] }

theorem State.slotWaiting_spec (s : State) (k a : Nat) (v m : Word) :
    ((s.slotWaiting k a v m).slotX k).host = (s.slotX k).host ++ [(a, v, m, s.seq)] ∧
      ((s.slotWaiting k a v m).slotX k).fault = (s.slotX k).fault ∧ SameMemory s (s.slotWaiting k a v m) ∧
      ∀ b, (s.slotWaiting k a v m).rd b = s.rd b := by
  refine ⟨?_, ?_, .setSlotX _ _ _, fun _ => rfl⟩ <;> rw [State.slotWaiting, State.slotX_setSlotX]

theorem State.slotOrder_waits (s : State) (k a : Nat) (v m : Word) (h : s.slotWaits k)
    (hw : s.slotHostWhy k a v m = 0) : s.slotOrder k a v m =
      (s.slotWaiting k a v m).when (a = R.LE_CMD k) (fun s => s.wr a (s.rd a ||| (v &&& m &&& 3))) := by
  obtain ⟨hl, htim, hused⟩ := h
  rw [s.slotOrder_open k a v m hl hw]
  exact if_neg (by simp [htim, hused])

theorem State.slotOrder_running (s : State) (k a : Nat) (v m : Word) (hl : s.lacks (k / 256) = false)
    (hw : s.slotHostWhy k a v m = 1) : s.slotOrder k a v m = s.werr false a 1 := by
  unfold State.slotOrder State.regionRow
  rw [if_neg (by simp [hl])]
  simp only [hw]

/-- A bit that is set in a mask reads 1 after the mask is added. -/
theorem Fld.get_or_of_set (f : Fld) (hlen : f.len = 1) (w m : Word) (h : m.getLsbD f.lsb = true) : f.get (w ||| m) = 1 := by
  apply Nat.eq_of_testBit_eq
  intro i
  rw [Fld.get_testBit, hlen, BitVec.getLsbD_or]
  cases i with
  | zero => simp [h]
  | succ i => simp [Nat.testBit_succ]

/-- A command in LE_CMD waits for the release, and LE_CMD shows it (R116). -/
theorem State.slotOrder_cmd_waits (s : State) (k : Nat) (v : Word) (f : Fld) (h : s.slotWaits k)
    (hw : s.slotHostWhy k (R.LE_CMD k) v v = 0) (hlen : f.len = 1) (hv : (v &&& v &&& 3).getLsbD f.lsb = true) :
    ((s.slotOrder k (R.LE_CMD k) v v).slotX k).host = (s.slotX k).host ++ [(R.LE_CMD k, v, v, s.seq)] ∧
      (s.slotOrder k (R.LE_CMD k) v v).bit (R.LE_CMD k) f = true ∧
      ((s.slotOrder k (R.LE_CMD k) v v).slotX k).fault = (s.slotX k).fault ∧
      SameMemory s (s.slotOrder k (R.LE_CMD k) v v) ∧ SameRegsBut [R.LE_CMD k] s (s.slotOrder k (R.LE_CMD k) v v) := by
  obtain ⟨hhost, hfault, hmem, hrd⟩ := s.slotWaiting_spec k (R.LE_CMD k) v v
  rw [s.slotOrder_waits _ _ _ _ h hw, State.when, if_pos (decide_eq_true rfl)]
  generalize s.slotWaiting k (R.LE_CMD k) v v = u at hhost hfault hmem hrd
  refine ⟨hhost, ?_, hfault, hmem.trans (.wr _ _ _), fun a ha => ?_⟩
  · rw [State.bit, State.rd_wr_same, Fld.get_or_of_set f hlen _ _ hv]; rfl
  · rw [State.rd_wr_other _ _ (by simpa using ha), hrd]

/-- CLR_FAULT and REENGAGE are refused in RUN (R233). -/
theorem exec_slotCommand_running (s : State) {k : SlotIx} {c : Instr} (hl : s.lacks (k.val / 256) = false) (hm : s.mode = 3)
    (hc : c ∈ [Instr.clrFault k, .reengage k]) : ∃ a, exec c s = .next (s.werr false a 1) := by
  simp only [List.mem_cons, List.not_mem_nil, or_false] at hc
  rcases hc with rfl | rfl
  · have hwhy := s.slotHostWhy_running k (R.LE_CMD k) 1 1 hm (by simp [R.LE_CMD, R.LE_STAT])
      (by simp [R.LE_CMD, R.LE_STG_FLAG]) (by simp [R.LE_CMD, R.LE_SUP_STAT]) (.inr (by decide))
    exact ⟨_, congrArg Host.Outcome.next (s.slotOrder_running _ _ _ _ hl hwhy)⟩
  · have hwhy := s.slotHostWhy_running k (R.LE_SUP_CMD k) 1 1 hm (by simp [R.LE_SUP_CMD, R.LE_STAT])
      (by simp [R.LE_SUP_CMD, R.LE_STG_FLAG]) (by simp [R.LE_SUP_CMD, R.LE_SUP_STAT])
      (.inl (by simp [R.LE_SUP_CMD, R.LE_CMD]))
    exact ⟨_, congrArg Host.Outcome.next (s.slotOrder_running _ _ _ _ hl hwhy)⟩

-- a release

/-- What a release leaves once the waiting writes have applied: the fault, no waiting write, the registers but LE_SAMPLE_T. -/
structure Releases (k : Nat) (s t : State) : Prop where
  fault : (t.slotX k).fault = (s.slotX k).fault
  host : (t.slotX k).host = (s.slotX k).host
  regs : ∀ a, a ≠ R.LE_SAMPLE_T k → t.rd a = s.rd a

theorem State.copyTp_releases (s : State) (k : Nat) : Releases k s (s.copyTp k) := by
  have hlaw : ∀ (ws : List (Nat × Word)) (u : State) (c : State → Nat × Word → Bool) (i : State → Nat × Word → Nat),
      (u.each ws (fun s nv => s.when (c s nv) (fun s => s.setLawKey (i s nv) nv.2))).io = u.io := by
    intro ws u c i
    unfold State.each
    induction ws generalizing u with
    | nil => rfl
    | cons w ws ih =>
      rw [List.foldl_cons, ih]
      cases h : c u w <;> simp [State.when, State.setLawKey]
  unfold State.copyTp
  exact ⟨by simp, by simp, fun a _ => (State.rd_setSlotX _ _ _ _).trans (State.rd_congr (hlaw _ _ _ _) a)⟩

theorem State.slotRelease_releases (s : State) (k t deadline : Nat) : Releases k s (s.slotRelease k t deadline) := by
  have hu := s.copyTp_releases k
  unfold State.slotRelease
  generalize s.copyTp k = u at hu
  exact ⟨(congrArg SlotX.fault (State.slotX_setSlotX _ _ _)).trans hu.fault,
    (congrArg SlotX.host (State.slotX_setSlotX _ _ _)).trans hu.host,
    fun a ha => (State.rd_wr_other _ _ ha).trans (hu.regs a ha)⟩

/-- A release applies the one waiting write that is due, and then releases the sample (R116). -/
theorem State.localRelease_applies (s : State) (k off a : Nat) (v m n : Word) (hd : n ≠ s.seq ∨ off ≠ 0)
    (hh : (s.slotX k).host = [(a, v, m, n)]) :
    Releases k ((s.setSlotX k { s.slotX k with host := [] }).slotHost k a v m (tagOf (s.now off)))
      (s.localRelease k off) := by
  have hrun : s.slotHostRun k off (tagOf (s.now off)) =
      (s.setSlotX k { s.slotX k with host := [] }).slotHost k a v m (tagOf (s.now off)) := by
    have hdue : (decide (n ≠ s.seq) || decide (off ≠ 0)) = true := by simpa using hd
    unfold State.slotHostRun
    dsimp only
    rw [hh]
    simp only [List.filter_cons, List.filter_nil, hdue, Bool.not_true, Bool.false_eq_true, if_true, if_false, State.each,
      List.foldl_cons, List.foldl_nil]
  unfold State.localRelease
  dsimp only
  rw [hrun]
  generalize (s.setSlotX k { s.slotX k with host := [] }).slotHost k a v m (tagOf (s.now off)) = u
  generalize relNote (u.slotX k).rels _ _ = rels
  generalize relFree rels _ _ = deadline
  have hr := (u.setSlotX k { u.slotX k with rels := rels }).slotRelease_releases k (s.now off) deadline
  exact ⟨hr.fault.trans (by rw [State.slotX_setSlotX]), hr.host.trans (by rw [State.slotX_setSlotX]), hr.regs⟩

/-- The release of a due slot outside a cascade. -/
theorem exec_localSlotRelease (s : State) (k : SlotIx) (off : Nat) (hd : s.relDue k (s.now off) = true)
    (hc : s.bit (R.LE_CFG k) F.LE_CFG_CASC = false) :
    exec (.localSlotRelease k off) s = .next (s.localRelease k off) := by
  have hhead : s.jobHead k = k := if_neg (by simp [hc])
  have hslots : s.jobSlots k = [k.val] := if_neg (by simp [hc])
  have hexec : exec (.localSlotRelease k off) s = .next (s.when (s.relDue k (s.now off)) fun s =>
      s.each ((s.jobSlots (s.jobHead k)).filter (fun j => s.relDue j (s.now off))) (fun s j => s.localRelease j off)) := rfl
  rw [hexec, hd, State.when, if_pos rfl, hhead, hslots]
  simp only [List.filter_cons, List.filter_nil, hd, if_true, State.each, List.foldl_cons, List.foldl_nil]

theorem werrRegs_perm : [R.HI_WERR_CNT, R.HI_WERR_STAT, R.HI_WERR_ADDR].Perm werrRegs := by decide

/-- Settles O9: each command at t0, as it waits, as RUN refuses it, and at the release that takes it. -/
theorem slotClearCommands : Obligations.SlotClearCommands := by
  unfold Obligations.SlotClearCommands
  have hclrFault : ∀ (k : SlotIx) s, exec (.clrFault k) s = .next (s.slotOrder k (R.LE_CMD k) 1 1) := fun _ _ => rfl
  have hclrMax : ∀ (k : SlotIx) s, exec (.clrMax k) s = .next (s.slotOrder k (R.LE_CMD k) 2 2) := fun _ _ => rfl
  have hreengage : ∀ (k : SlotIx) s, exec (.reengage k) s = .next (s.slotOrder k (R.LE_SUP_CMD k) 1 1) := fun _ _ => rfl
  refine ⟨fun k s hm hheld hnow => ⟨_, hclrFault k s, ?_⟩, fun k s hm hw => ⟨_, hclrFault k s, ?_⟩,
    fun k c s hl hm hc => ?_, fun k s hnow => ⟨_, hclrMax k s, ?_⟩, fun k s hw => ⟨_, hclrMax k s, ?_⟩,
    fun k s hm ho hnow => ⟨_, hreengage k s, ?_⟩, fun k s hm ho hw => ⟨_, hreengage k s, ?_⟩,
    fun k off n s hd hc hdue => ⟨fun hh hheld => ⟨_, exec_localSlotRelease s k off hd hc, ?_⟩,
      fun hh => ⟨_, exec_localSlotRelease s k off hd hc, ?_⟩, fun hh => ⟨_, exec_localSlotRelease s k off hd hc, ?_⟩⟩⟩
  · rw [s.slotOrder_now _ _ _ _ hnow (s.slotHostWhy_cmd _ _ _ (.inl hm))]
    have h := s.slotHost_clrFault k (s.tag 0) hheld
    refine ⟨h.fault, h.cause, (SameMemory.wr _ _ _).trans h.mem, fun a ha => ?_⟩
    simp only [List.mem_cons, List.not_mem_nil, or_false, not_or] at ha
    rw [h.regs a (by simpa using ha.1), State.rd_wr_other _ _ ha.2]
  · exact s.slotOrder_cmd_waits k 1 F.LE_CMD_CLR_FAULT hw (s.slotHostWhy_cmd _ _ _ (.inl hm)) rfl (by decide)
  · obtain ⟨a, hexec⟩ := exec_slotCommand_running s hl hm hc
    have h := s.werr_refused false a 1 (by decide)
    exact ⟨_, hexec, h.slots, h.cnt, h.mem, fun b hb => h.regs b (fun hin => hb (werrRegs_perm.mem_iff.mp hin))⟩
  · rw [s.slotOrder_now _ _ _ _ hnow (s.slotHostWhy_cmd _ _ _ (.inr (by decide))), s.slotHost_clrMax]
    have hslots : ((s.wr (R.LE_CMD k) 0).wr (R.LE_MAX_DELAY k) 0).slots = s.slots := by simp
    refine ⟨State.rd_wr_same _ _ _, hslots, (SameMemory.wr _ _ _).trans (.wr _ _ _), fun a ha => ?_⟩
    simp only [List.mem_cons, List.not_mem_nil, or_false, not_or] at ha
    rw [State.rd_wr_other _ _ ha.1, State.rd_wr_other _ _ ha.2]
  · obtain ⟨hhost, hbit, -, hmem, hregs⟩ := s.slotOrder_cmd_waits k 2 F.LE_CMD_CLR_MAX hw
      (s.slotHostWhy_cmd _ _ _ (.inr (by decide))) rfl (by decide)
    exact ⟨hhost, hbit, hmem, hregs⟩
  · rw [s.slotOrder_now _ _ _ _ hnow (s.slotHostWhy_reengage _ _ _ hm ho), s.slotHost_reengage]
    have hslots : (s.set1 (R.LE_SUP_CMD k) F.LE_SUP_CMD_REENGAGE).slots = s.slots := by simp [State.set1, State.setFld]
    exact ⟨State.bit_setFld_same _ _ _ _ (by decide) rfl, hslots, .wr _ _ _,
      fun a ha => State.rd_setFld_other _ _ _ (by simpa using ha)⟩
  · have hne : ¬ decide (R.LE_SUP_CMD k = R.LE_CMD k) = true := by simp [R.LE_SUP_CMD, R.LE_CMD]
    rw [s.slotOrder_waits _ _ _ _ hw (s.slotHostWhy_reengage _ _ _ hm ho), State.when, if_neg hne]
    obtain ⟨hhost, -, hmem, hrd⟩ := s.slotWaiting_spec k (R.LE_SUP_CMD k) 1 1
    exact ⟨hhost, hmem, fun a _ => hrd a⟩
  · have hr := s.localRelease_applies k off _ 1 1 n hdue hh
    have hf := (s.setSlotX k { s.slotX k with host := [] }).slotHost_clrFault k (tagOf (s.now off)) hheld
    refine ⟨hr.fault.trans hf.fault, ?_, ?_, ?_⟩
    · rw [hr.host, hf.host]
      exact congrArg SlotX.host (State.slotX_setSlotX _ _ _)
    · rw [State.bit_congr (hr.regs _ (by simp [R.LE_STAT, R.LE_SAMPLE_T])), hf.cause]
    · rw [hr.regs _ (by simp [R.LE_CMD, R.LE_SAMPLE_T]), hf.regs _ (by simp [R.LE_CMD, R.LE_STAT]), State.rd_wr_same]
  · have hr := s.localRelease_applies k off _ 2 2 n hdue hh
    rw [State.slotHost_clrMax] at hr
    refine ⟨?_, ?_, ?_⟩
    · rw [hr.regs _ (by simp [R.LE_MAX_DELAY, R.LE_SAMPLE_T]), State.rd_wr_same]
    · rw [hr.host]
      exact congrArg SlotX.host (State.slotX_setSlotX _ _ _)
    · rw [hr.regs _ (by simp [R.LE_CMD, R.LE_SAMPLE_T]), State.rd_wr_other _ _ (by simp [R.LE_CMD, R.LE_MAX_DELAY]),
        State.rd_wr_same]
  · have hr := s.localRelease_applies k off _ 1 1 n hdue hh
    rw [State.slotHost_reengage] at hr
    refine ⟨?_, ?_⟩
    · rw [State.bit_congr (hr.regs _ (by simp [R.LE_SUP_CMD, R.LE_SAMPLE_T]))]
      exact State.bit_setFld_same _ _ _ _ (by decide) rfl
    · rw [hr.host]
      exact congrArg SlotX.host (State.slotX_setSlotX _ _ _)

end Sys2Proof.Machine
end
